-- ==== Sys2Proof/Word.lean ====
section
/-! DEFINITION. The word types: a register is 64 bits (spec/00_scope.md R5), memory is bytes. -/

namespace Sys2Proof

/-- A BAR0 register word (R5). -/
abbrev Word := BitVec 64
/-- One byte. -/
abbrev Byte := BitVec 8
/-- A run of bytes, the lowest address first. -/
abbrev Bytes := List Byte

end Sys2Proof
end

