-- ==== Sys2Proof/Syntax.lean ====
section
/-! DEFINITION. The commands of the block: one constructor of `Instr` for each row of spec/opcode_table.json,
with its operands, and the types of those operands. A row that a sensor, a link partner or a timer causes carries what it
measures or receives. Identifiers have the ranges of spec/00_scope.md R11. -/

namespace Sys2Proof

/-- Global tile number, die × 64 + tile (R11). -/
abbrev Gt := Fin 512
/-- Rate region, die × 8 + region (R11, R73). -/
abbrev Rgn := Fin 64
/-- Fabric port P0 to P15 (R11). -/
abbrev Port := Fin 16
/-- PCIe port H0 or H1 (R457). -/
abbrev HostPort := Fin 2
/-- I/O die IOD0 to IOD3 (R11). -/
abbrev Iod := Fin 4
/-- Channel of an I/O-die mover (R282). -/
abbrev IoCh := Fin 32
/-- Tile DMA channel DMA0 to DMA3 (R220). -/
abbrev TileCh := Fin 4
/-- Service crossing (R40). -/
abbrev Xing := Fin 36
/-- Fill of a service crossing's elastic buffer (R41). -/
abbrev Fill := Fin 17
/-- First-stage converter (R572). -/
abbrev Converter := Fin 5
/-- Bank of a tile (R74). -/
abbrev Bank := Fin 72
/-- Patch map entry (R109). -/
abbrev PatchEntry := Fin 16
/-- Bank index of a refresh set (R117). -/
abbrev RefBank := Fin 16
/-- Agent code (R82). -/
abbrev Agent := BitVec 4
/-- Tally of a tile (R237). -/
abbrev TallyIx := Fin 64
/-- Loop level (R241). -/
abbrev LoopLvl := Fin 4
/-- Bytes a command takes in the tile stream; the encoding is private (R260), so the command carries it. -/
abbrev CmdLen := BitVec 16
/-- Lane of a fabric port (R310). -/
abbrev Lane := Fin 4
/-- Child slot of the launch relay (R366). -/
abbrev ChildSlot := Fin 8
/-- A time in units of 2^-16 ns (R371). -/
abbrev Ts := Int
/-- Ring number (R388). -/
abbrev RingIx := Fin 262144
/-- Word of ADU_CANCEL (R420). -/
abbrev CancelWord := Fin 4096
/-- Customer account (R420). -/
abbrev Account := Fin 4096
/-- Seats named by an immediate clear (R235). -/
abbrev SeatList := List (Fin 8192)
/-- Aperture window (R458). -/
abbrev AperWin := Fin 256
/-- Offset within BAR2 (R457). -/
abbrev AperOff := BitVec 38
/-- MSI-X vector (R463). -/
abbrev MsixVec := Fin 2048
/-- Interrupt source (R502). -/
abbrev SrcIx := Fin 1024
/-- Steward core (R500). -/
abbrev Core := Fin 4
/-- Forwarding target (R509). -/
abbrev FwdIx := Fin 32
/-- Signatures in logical tile order and agent order (R536). -/
abbrev Sigs := List Word

/-- Who writes a register: a host port, or a Steward core (R514). -/
inductive Writer where
  | host (p : HostPort)
  | steward
  deriving DecidableEq, Repr

/-- The part of a register an access addresses (R7): the whole, the low half or the high half. -/
inductive Sz where
  | full | lo | hi
  deriving DecidableEq, Repr

/-- What has passed on the time base (R368) since the last command that moved time. -/
structure TimeIn where
  ns : Nat
  frac : BitVec 32
  deriving DecidableEq, Repr

/-- A write to one register: who, which part, and the value (for a half, in its low 32 bits). -/
structure Acc where
  by_ : Writer
  size : Sz
  val : Word
  deriving DecidableEq, Repr

/-- A write to any BAR0 offset (R7, R9), and the moment that it is made at. -/
structure RegWrite where
  by_ : Writer
  off : BitVec 26
  bytes : Nat
  val : Word
  at_ : TimeIn := { ns := 0, frac := 0 }
  deriving DecidableEq, Repr

/-- What the calibration phases found (R478): the phase that failed, the time, the skew trims (R39), the crossing
latencies (R40) and the spare patches that tested bad (R99). -/
structure CalResult where
  failed : Option (Fin 5)
  calMs : BitVec 32
  trims : List (Fin 12 × BitVec 16)
  lats : List (Xing × BitVec 16)
  badSpares : List (Gt × Fin 4)
  deriving DecidableEq, Repr

/-- PMBus PAGE: a read, or a write of a page (R585). -/
inductive PageAccess where
  | read
  | write (n : Byte)
  deriving DecidableEq, Repr

/-- The conditions of the selected page that STATUS_WORD reports as they stand (R585). -/
structure PageSense where
  voutBad : Bool
  vinBad : Bool
  hot : Bool
  deriving DecidableEq, Repr

/-- Negotiated speed and width of a PCIe link (R475, HP_STATUS). -/
structure LinkMode where
  speed : BitVec 3
  width : BitVec 4
  active : BitVec 4
  deriving DecidableEq, Repr

/-- Wait steps of a region in one stage, by cause (R513). -/
structure WaitSums where
  queue : Nat
  wait : Nat
  fence : Nat
  owner : Nat
  engine : Nat
  landing : Nat
  quiesce : Nat
  deriving DecidableEq, Repr

/-- What the monitors of a region measured over the stage that ends: output power in 1/16 W (R55, R574), the estimated
pace (R43), a new calibration factor when a tile allowed one (R44), the landing margin and the waits (R512). -/
structure RegionMeas where
  n : Rgn
  power : Nat
  pace : BitVec 16
  cal : Option (BitVec 16)
  landMargin : Option Int
  waits : WaitSums
  deriving DecidableEq, Repr

/-- FEC codewords of a port since the last boundary: corrected, and uncorrectable (R310, R314). -/
structure FecIn where
  port : Port
  corr : BitVec 32
  uncorr : BitVec 16
  deriving DecidableEq, Repr

/-- What a stage boundary brings: the monitors' measurements, the ports whose link partner has taken this end's epoch (R334), and the
FEC codewords that the ports counted. -/
structure BoundaryIn where
  meas : List RegionMeas
  peers : List Port
  fec : List FecIn := []
  deriving DecidableEq, Repr

/-- A bit error found in a word, numbered from the start of the bank or of LPDDR5X: a single-bit error, or an uncorrectable one
with the data bits that read inverted (R97, R115). -/
structure Upset where
  word : Nat
  ue : Bool
  flip : Word
  deriving DecidableEq, Repr

/-- A bit error found in a word of a sequencer's data memory, or of its instruction memory (R223). -/
structure CoreUpset where
  dmem : Bool
  upset : Upset
  deriving DecidableEq, Repr

/-- The bytes an access reads or writes. -/
inductive MemOp where
  | read (n : Nat)
  | write (data : Bytes)
  deriving DecidableEq, Repr

/-- An access that reaches a bank of a tile (R76, R84). -/
structure BankAcc where
  agent : Agent
  addr : BitVec 32
  op : MemOp
  upsets : List Upset
  deriving DecidableEq, Repr

/-- HANDOVER operands (R251); `common` says that a common field of R230 is set. -/
structure HandoverOps where
  bank : BitVec 7
  frm : Agent
  towards : Agent
  tally : TallyIx
  e : BitVec 32
  common : Bool
  len : CmdLen
  deriving DecidableEq, Repr

/-- SCAN operands (R253). -/
structure ScanOps where
  bank : BitVec 7
  frm : Agent
  tally : TallyIx
  e : BitVec 32
  common : Bool
  len : CmdLen
  deriving DecidableEq, Repr

/-- Whether the march of a scan found a failing bit (R105). -/
structure MarchResult where
  failing : Bool
  deriving DecidableEq, Repr

/-- Who asks for an LPDDR5X block (R115, R518). -/
inductive Requester where
  | tile (g : Gt)
  | io (i : Iod) (ch : IoCh)
  | load
  | aperture (p : HostPort)
  | steward
  | adu
  | packet (src : BitVec 16)
  deriving DecidableEq, Repr

/-- An LPDDR5X request (R114, R116), with the corrections that link ECC made on the bus while it was carried (R115). -/
structure DramReq where
  by_ : Requester
  off : BitVec 40
  op : MemOp
  upsets : List Upset
  linkCe : Nat := 0
  deriving DecidableEq, Repr

/-- MR4 readings of the nine packages and the controller whose reading is reported (R118). -/
structure Mr4Result where
  readings : List (BitVec 2)
  pkg : Fin 9
  deriving DecidableEq, Repr

/-- Common fields of engine commands (R230). -/
structure CmdHdr where
  predKind : BitVec 2
  predIdx : BitVec 13
  predNeg : Bool
  waitEn : Bool
  waitT : TallyIx
  waitV : BitVec 32
  sig0En : Bool
  sig0T : TallyIx
  sig1En : Bool
  sig1T : TallyIx
  deriving DecidableEq, Repr

/-- MATMUL operands (R178). -/
structure MatmulOps where
  a : BitVec 32
  aIdx : Bool
  aStride : BitVec 20
  aFmt : BitVec 4
  aScale : BitVec 32
  aSstride : BitVec 16
  b : BitVec 32
  bFmt : BitVec 4
  bScale : BitVec 32
  m : BitVec 10
  n : BitVec 8
  k : BitVec 20
  acc : BitVec 1
  accRow : BitVec 9
  init : Bool
  deriving DecidableEq, Repr

/-- ACCSTORE operands (R184). -/
structure AccstoreOps where
  acc : BitVec 1
  accRow : BitVec 9
  accFmt : BitVec 4
  m : BitVec 10
  n : BitVec 8
  d : BitVec 32
  dStride : BitVec 20
  dFmt : BitVec 4
  dScale : BitVec 32
  dSstride : BitVec 16
  rmode : BitVec 2
  sat : Bool
  site : BitVec 14
  rowbind : BitVec 2
  bind : BitVec 32
  deriving DecidableEq, Repr

/-- VEC operands (R196) but for OP, which the constructor names. -/
structure VecOps where
  d : BitVec 32
  s1 : BitVec 32
  s2 : BitVec 32
  s3 : BitVec 32
  dFmt : BitVec 4
  s1Fmt : BitVec 4
  s2Fmt : BitVec 4
  s3Fmt : BitVec 4
  dEstride : BitVec 16
  s1Estride : BitVec 16
  s2Estride : BitVec 16
  s3Estride : BitVec 16
  dRstride : BitVec 20
  s1Rstride : BitVec 20
  s2Rstride : BitVec 20
  s3Rstride : BitVec 20
  s1Idx : Bool
  s1Scale : BitVec 32
  dScale : BitVec 32
  s1Sstride : BitVec 16
  dSstride : BitVec 16
  count : BitVec 14
  rows : BitVec 12
  imm0 : BitVec 32
  imm1 : BitVec 32
  lim : Bool
  limits : BitVec 32
  rmode : BitVec 2
  sat : Bool
  site : BitVec 14
  rowbind : BitVec 2
  bind : BitVec 32
  deriving DecidableEq, Repr

/-- The VEC operations (R204); `undefined` stands for an operation name that the module does not define (R198). -/
inductive VecOp where
  | cvt | add | sub | mul | fma | axpb | max | min | abs | neg | sel | cmpgt
  | exp | ln | rcp | rsqrt | sqrt | sigmoid | tanh | silu | gelu | swiglu
  | iadd | isub | imul | imin | imax | iand | ior | ixor | ishl | ishr | iota
  | rsum | rsumsq | rdot | rmax | rmin | rargmax | softmax | rmsnorm | layernorm
  | gather | sample | merge | undefined
  deriving DecidableEq, Repr

/-- A descriptor (R262) but for OP, which the constructor names; `rsvOp` is an OP of 0x6 to 0xF, with its offset from 0x6, that stands in
place of the constructor's. `planned` is the stage and slot that the plan gives the first parcel
of a plan transfer (R320), which the tile stream's private encoding carries (R260); without one a parcel takes the next PLAN slot. -/
structure Desc where
  src : Word
  dst : Word
  len : BitVec 32
  srcKind : BitVec 2
  dstKind : BitVec 2
  crec : Bool
  paged : Bool
  pageSide : Bool
  pgLog2 : BitVec 5
  tag : BitVec 16
  pgTable : BitVec 32
  pgCount : BitVec 32
  notBefore : Word
  qdst : Word
  shards : BitVec 5
  pq : BitVec 2
  rsvd0 : BitVec 25
  shStride : BitVec 32
  rsvd1 : Word
  planned : Option (Word × BitVec 16)
  rsvOp : Option (Fin 10) := none
  deriving DecidableEq, Repr

/-- The descriptor operations (R262). -/
inductive DescOp where
  | copy | get | put | set | clear | parity
  deriving DecidableEq, Repr

/-- The channel a descriptor runs on: a tile channel with the common fields of its command, or an I/O-die channel with the bytes that
its reads of host memory return, in the order of the reads. -/
inductive DescAt where
  | tile (g : Gt) (ch : TileCh) (h : CmdHdr)
  | io (i : Iod) (ch : IoCh) (host : Bytes)
  deriving DecidableEq, Repr

/-- A data mover's channel (R275, CHANNEL). -/
inductive ChanId where
  | tile (g : Gt) (ch : TileCh)
  | io (i : Iod) (ch : IoCh)
  deriving DecidableEq, Repr

/-- A slot of a mover's wheel (R271). -/
inductive MoverSlot where
  | tile (g : Gt) (slot : Fin 256)
  | io (i : Iod) (slot : Fin 256)
  deriving DecidableEq, Repr

/-- An engine command with its operands (R229, R230). -/
inductive EngCmd where
  | matmul (o : MatmulOps)
  | accstore (o : AccstoreOps)
  | vec (op : VecOp) (o : VecOps)
  | desc (ch : TileCh) (op : DescOp) (d : Desc)
  deriving DecidableEq, Repr

/-- SIGNAL operands (R254). -/
structure SignalOps where
  agent : Agent
  tally : TallyIx
  amount : BitVec 16
  len : CmdLen
  deriving DecidableEq, Repr

/-- What the sequencer's next instruction is: an RV32IMC instruction, fetched from IMEM, with the bit errors found in its memories
meanwhile (R223), or a command of the tile stream, whose encoding is private (R260) and whose name and operands are therefore given. -/
inductive SeqForm where
  | rv (upsets : List CoreUpset := [])
  | engine (h : CmdHdr) (c : EngCmd) (len : CmdLen)
  | signal (o : SignalOps) (common : Bool)
  | fence (agent : Agent) (tally : TallyIx) (common : Bool) (len : CmdLen)
  | undefinedName
  deriving DecidableEq, Repr

/-- Width of a sequencer load or store (R221). -/
inductive MemSize where
  | byte | half | word
  deriving DecidableEq, Repr

/-- A sequencer load into `rd` or a store of `data` (R221). -/
structure SeqMemOp where
  store : Bool
  size : MemSize
  signed : Bool
  addr : BitVec 32
  data : BitVec 32
  rd : Fin 32
  deriving DecidableEq, Repr

/-- The source of a LOOP's count (R241). -/
inductive LoopSrc where
  | imm (n : BitVec 24)
  | forever
  | reg
  deriving DecidableEq, Repr

/-- LOOP operands: the count and the address that follows its ENDLOOP (R241); `common` says that a common field of R230 is set. -/
structure LoopOps where
  src : LoopSrc
  bodyEnd : BitVec 32
  len : CmdLen
  common : Bool := false
  deriving DecidableEq, Repr

/-- A wait that the tally wait limit ends (R240): the sequencer's, an engine's or channel's, a pending owner's at a bank,
or a remote write's in the landing buffer. -/
inductive WaitWho where
  | seq
  | agent (a : Agent)
  | bank (k : Bank)
  | landing
  deriving DecidableEq, Repr

/-- Remote operation header (R289). -/
structure PktHdr where
  ga : Word
  reply : Word
  src : BitVec 16
  opc : Byte
  flags : Byte
  length : BitVec 16
  issuer : BitVec 16
  seq : BitVec 32
  land_ : BitVec 32
  deriving DecidableEq, Repr

/-- A packet: its header and payload (R288, R289). -/
structure Packet where
  hdr : PktHdr
  payload : Bytes
  deriving DecidableEq, Repr

/-- A link frame (R312); `crc` is the CRC it carries. -/
structure Frame where
  seq : BitVec 16
  kind : Byte
  flags : Byte
  valid : BitVec 16
  epoch : BitVec 16
  stage : BitVec 32
  slot : BitVec 16
  body : Bytes
  crc : BitVec 32
  deriving DecidableEq, Repr

/-- A link slot that begins: its number in the stage (R315), and whether the plan assigns the slot to a parcel, which the plan container's
private encoding says (R320, R260). -/
structure SlotIn where
  slot : BitVec 16
  assigned : Bool := false
  deriving DecidableEq, Repr

/-- A register of the route and multicast block (R343, R347, R366). -/
inductive RouteReg where
  | self
  | dest (m : BitVec 16)
  | mc (g : Fin 4096)
  deriving DecidableEq, Repr

/-- A launch packet: its SRC_MODULE, the launch header and the stream bytes (R353). -/
structure LaunchPkt where
  src : BitVec 16
  launchId : BitVec 32
  kind : Byte
  depth : Byte
  flags : Byte
  reason : Byte
  parent : BitVec 16
  grandparent : BitVec 16
  count : BitVec 32
  streamOff : Word
  streamLen : Word
  data : Bytes
  deriving DecidableEq, Repr

/-- What the time client uses of a PTP message: its messageType, the port identity it comes from, its domain and sequenceId, its
correctionField and its timestamp, both in 2^-16 ns, and the two-step flag (R369, R373). -/
structure PtpMsg where
  kind : Nat
  srcClock : Word
  srcPort : BitVec 16
  domain : Byte
  seqId : BitVec 16
  correction : Int
  time : Ts
  twoStep : Bool
  hasTlv : Bool
  deriving DecidableEq, Repr

/-- A command ring named in ADU_CTRL (R394, R420). -/
inductive CmdRing where
  | cmd0 | cmd1
  deriving DecidableEq, Repr

/-- SUBMIT command (R394); `tail` is bytes 63:56. -/
structure SubmitOps where
  flags : Byte
  account : BitVec 16
  req : BitVec 32
  ring : BitVec 32
  promptLen : BitVec 32
  prompt : Word
  seed : Word
  maxNew : BitVec 32
  stopId : BitVec 32
  adapter : BitVec 16
  lpset : BitVec 16
  prefixLen : BitVec 32
  prefixList : Word
  tail : Word
  deriving DecidableEq, Repr

/-- The bytes of a weight, adapter or prefix command (R451); `tail` is bytes 63:24. -/
structure AduOps where
  b1 : Byte
  b3_2 : BitVec 16
  b7_4 : BitVec 32
  b11_8 : BitVec 32
  b13_12 : BitVec 16
  b15_14 : BitVec 16
  b23_16 : Word
  tail : BitVec 320
  deriving DecidableEq, Repr

/-- A mirror packet's header and the bytes of its records (R448). -/
structure MirrorPkt where
  round : Word
  count : BitVec 16
  first : BitVec 16
  records : Bytes
  deriving DecidableEq, Repr

/-- Levels and core targets that the firmware sets before it reports ready (R510). -/
abbrev FwSources := List (SrcIx × BitVec 4 × BitVec 6)

/-- The three MCTP bindings (R496). -/
inductive SpdmBinding where
  | h0 | h1 | smbus
  deriving DecidableEq, Repr

/-- The commands, one for each row of spec/opcode_table.json, in its order. -/
inductive Instr where
  /-- VIN_TURN_ON (R567). -/
  | vinTurnOn
  /-- VIN_TURN_OFF (R567). -/
  | vinTurnOff
  /-- VIN_OVERVOLTAGE (R567). -/
  | vinOvervoltage
  /-- INPUT_CHARGED (R570). -/
  | inputCharged
  /-- RAILS_GOOD (R569). -/
  | railsGood
  /-- PWRGD_RISE (R478). -/
  | pwrgdRise
  /-- CALIBRATION_COMPLETE (R478). -/
  | calibrationComplete (c : CalResult)
  /-- POWER_LOSS (R571). -/
  | powerLoss
  /-- CONVERTER_FAIL (R572). -/
  | converterFail (n : Converter)
  /-- SENSOR_OVERTEMP (R579). -/
  | sensorOvertemp
  /-- THERMAL_DIODE_TRIP (R580). -/
  | thermalDiodeTrip
  /-- THERMTRIP_POWER_OFF (R580). -/
  | thermtripPowerOff
  /-- PAGE (R585). -/
  | page (w : PageAccess)
  /-- VOUT_MODE (R585). -/
  | voutMode
  /-- STATUS_WORD (R585). -/
  | statusWord (m : PageSense)
  /-- READ_VIN (R585). -/
  | readVin (reading : BitVec 16)
  /-- READ_IIN (R585). -/
  | readIin (reading : BitVec 16)
  /-- READ_VOUT (R585). -/
  | readVout (reading : BitVec 16)
  /-- READ_IOUT (R585). -/
  | readIout (reading : BitVec 16)
  /-- READ_TEMPERATURE_1 (R585). -/
  | readTemperature1 (reading : BitVec 16)
  /-- READ_POUT (R585). -/
  | readPout (reading : BitVec 16)
  /-- READ_PIN (R585). -/
  | readPin (reading : BitVec 16)
  /-- PMBUS_REVISION (R585). -/
  | pmbusRevision
  /-- PMBUS_REFUSED_COMMAND (R585). -/
  | pmbusRefusedCommand (code : Byte) (write : Bool)
  /-- HOST_LINK_DOWN (R456). -/
  | hostLinkDown (p : HostPort)
  /-- HOST_LINK_UP (R456). -/
  | hostLinkUp (p : HostPort) (m : LinkMode)
  /-- STAGE_BOUNDARY (R32). -/
  | stageBoundary (b : BoundaryIn)
  /-- POWER_FLAG (R56). -/
  | powerFlag (n : Rgn)
  /-- POWER_ABORT (R57). -/
  | powerAbort (n : Rgn)
  /-- CAL_STALE (R45). -/
  | calStale (n : Rgn)
  /-- STAGE_WORK_START (R61). -/
  | stageWorkStart (n : Rgn)
  /-- STAGE_WORK_FINISH (R34). -/
  | stageWorkFinish (n : Rgn) (ns : Nat)
  /-- OVERSTAY (R65). -/
  | overstay (n : Rgn)
  /-- RATE_WINDOW_OPEN (R46). -/
  | rateWindowOpen (n : Rgn)
  /-- RATE_WINDOW_CLOSE (R46). -/
  | rateWindowClose (n : Rgn)
  /-- XING_FILL_EXCURSION (R42). -/
  | xingFillExcursion (c : Xing) (fill : Fill)
  /-- FREF_LOSS (R368). -/
  | frefLoss
  /-- FREF_RETURN (R381). -/
  | frefReturn
  /-- SYNC_TIMEOUT (R382). -/
  | syncTimeout (t : TimeIn)
  /-- HOLDOVER_LIMIT_EXPIRE (R72). -/
  | holdoverLimitExpire (t : TimeIn)
  /-- RGN_BUDGET_WRITE (R54). -/
  | rgnBudgetWrite (n : Rgn) (a : Acc)
  /-- XING_FILL_READ (R41). -/
  | xingFillRead (p : HostPort) (c : Xing) (z : Sz)
  /-- RGN_LATE_READ (R63). -/
  | rgnLateRead (p : HostPort) (n : Rgn) (z : Sz)
  /-- BANK_ACCESS (R84). -/
  | bankAccess (g : Gt) (a : BankAcc)
  /-- HANDOVER (R85). -/
  | handover (g : Gt) (h : HandoverOps)
  /-- HANDOVER_EFFECT (R86). -/
  | handoverEffect (g : Gt) (k : Bank)
  /-- SCAN (R100). -/
  | scanOp (g : Gt) (h : ScanOps)
  /-- SCAN_START (R101). -/
  | scanStart (g : Gt) (k : Bank)
  /-- SCAN_END (R101). -/
  | scanEnd (g : Gt) (o : MarchResult)
  /-- BANK_OWN_WRITE (R91). -/
  | bankOwnWrite (g : Gt) (k : Bank) (a : Acc)
  /-- PATCH_RELEASE_REQUEST (R108). -/
  | patchReleaseRequest (g : Gt) (e : PatchEntry) (a : Acc)
  /-- LPDDR_REQUEST (R116). -/
  | lpddrRequest (r : DramReq)
  /-- REFRESH_INTERVAL (R118). -/
  | refreshInterval (i : Iod)
  /-- REFRESH_WINDOW (R122). -/
  | refreshWindow (i : Iod) (k : RefBank)
  /-- MR4_READ (R118). -/
  | mr4Read (i : Iod) (r : Mr4Result)
  /-- SEQ_INSTRUCTION (R222). -/
  | seqInstruction (g : Gt) (f : SeqForm)
  /-- SEQ_BANK_LOAD_STORE (R221). -/
  | seqBankLoadStore (g : Gt) (a : SeqMemOp)
  /-- TILE_PREDICATE_STORE (R234). -/
  | tilePredicateStore (g : Gt) (hiWord : Bool) (v : BitVec 32)
  /-- LOOP_COUNT_STORE (R242). -/
  | loopCountStore (g : Gt) (l : LoopLvl) (v : BitVec 32)
  /-- STAGE_END (R226). -/
  | stageEnd (g : Gt) (len : CmdLen) (common : Bool)
  /-- LOOP (R241). -/
  | openLoop (g : Gt) (o : LoopOps)
  /-- ENDLOOP (R243). -/
  | endLoop (g : Gt) (len : CmdLen) (common : Bool)
  /-- BREAK (R244). -/
  | breakLoop (g : Gt) (len : CmdLen) (common : Bool)
  /-- SIGNAL (R254). -/
  | signalOp (g : Gt) (o : SignalOps)
  /-- WAIT (R255). -/
  | waitOp (g : Gt) (tally : TallyIx) (v : BitVec 32) (len : CmdLen) (common : Bool)
  /-- WAIT_RELEASE (R255). -/
  | waitRelease (g : Gt)
  /-- FENCE (R301). -/
  | fenceOp (g : Gt) (agent : Agent) (tally : TallyIx) (len : CmdLen)
  /-- FENCE_COMPLETE (R301). -/
  | fenceComplete (g : Gt) (agent : Agent)
  /-- TALLY_WAIT (R240). -/
  | tallyWait (g : Gt) (w : WaitWho)
  /-- ENGINE_COMMAND_END (R231). -/
  | engineCommandEnd (g : Gt) (agent : Agent) (drain : Bool)
  /-- MATMUL (R178). -/
  | matmul (g : Gt) (h : CmdHdr) (o : MatmulOps)
  /-- ACCSTORE (R184). -/
  | accstore (g : Gt) (h : CmdHdr) (o : AccstoreOps)
  /-- CVT (R202). -/
  | cvt (g : Gt) (h : CmdHdr) (o : VecOps)
  /-- ADD (R204). -/
  | addOp (g : Gt) (h : CmdHdr) (o : VecOps)
  /-- SUB (R204). -/
  | subOp (g : Gt) (h : CmdHdr) (o : VecOps)
  /-- MUL (R204). -/
  | mulOp (g : Gt) (h : CmdHdr) (o : VecOps)
  /-- FMA (R204). -/
  | fma (g : Gt) (h : CmdHdr) (o : VecOps)
  /-- AXPB (R204). -/
  | axpb (g : Gt) (h : CmdHdr) (o : VecOps)
  /-- MAX (R204). -/
  | maxOp (g : Gt) (h : CmdHdr) (o : VecOps)
  /-- MIN (R204). -/
  | minOp (g : Gt) (h : CmdHdr) (o : VecOps)
  /-- ABS (R204). -/
  | absOp (g : Gt) (h : CmdHdr) (o : VecOps)
  /-- NEG (R204). -/
  | negOp (g : Gt) (h : CmdHdr) (o : VecOps)
  /-- SEL (R204). -/
  | selOp (g : Gt) (h : CmdHdr) (o : VecOps)
  /-- CMPGT (R204). -/
  | cmpgt (g : Gt) (h : CmdHdr) (o : VecOps)
  /-- EXP (R203). -/
  | expOp (g : Gt) (h : CmdHdr) (o : VecOps)
  /-- LN (R203). -/
  | ln (g : Gt) (h : CmdHdr) (o : VecOps)
  /-- RCP (R203). -/
  | rcp (g : Gt) (h : CmdHdr) (o : VecOps)
  /-- RSQRT (R203). -/
  | rsqrt (g : Gt) (h : CmdHdr) (o : VecOps)
  /-- SQRT (R203). -/
  | sqrt (g : Gt) (h : CmdHdr) (o : VecOps)
  /-- SIGMOID (R203). -/
  | sigmoid (g : Gt) (h : CmdHdr) (o : VecOps)
  /-- TANH (R203). -/
  | tanh (g : Gt) (h : CmdHdr) (o : VecOps)
  /-- SILU (R204). -/
  | silu (g : Gt) (h : CmdHdr) (o : VecOps)
  /-- GELU (R204). -/
  | gelu (g : Gt) (h : CmdHdr) (o : VecOps)
  /-- SWIGLU (R204). -/
  | swiglu (g : Gt) (h : CmdHdr) (o : VecOps)
  /-- IADD (R204). -/
  | iadd (g : Gt) (h : CmdHdr) (o : VecOps)
  /-- ISUB (R204). -/
  | isub (g : Gt) (h : CmdHdr) (o : VecOps)
  /-- IMUL (R204). -/
  | imul (g : Gt) (h : CmdHdr) (o : VecOps)
  /-- IMIN (R204). -/
  | imin (g : Gt) (h : CmdHdr) (o : VecOps)
  /-- IMAX (R204). -/
  | imax (g : Gt) (h : CmdHdr) (o : VecOps)
  /-- IAND (R204). -/
  | iand (g : Gt) (h : CmdHdr) (o : VecOps)
  /-- IOR (R204). -/
  | ior (g : Gt) (h : CmdHdr) (o : VecOps)
  /-- IXOR (R204). -/
  | ixor (g : Gt) (h : CmdHdr) (o : VecOps)
  /-- ISHL (R204). -/
  | ishl (g : Gt) (h : CmdHdr) (o : VecOps)
  /-- ISHR (R204). -/
  | ishr (g : Gt) (h : CmdHdr) (o : VecOps)
  /-- IOTA (R204). -/
  | iota (g : Gt) (h : CmdHdr) (o : VecOps)
  /-- RSUM (R206). -/
  | rsum (g : Gt) (h : CmdHdr) (o : VecOps)
  /-- RSUMSQ (R206). -/
  | rsumsq (g : Gt) (h : CmdHdr) (o : VecOps)
  /-- RDOT (R206). -/
  | rdot (g : Gt) (h : CmdHdr) (o : VecOps)
  /-- RMAX (R207). -/
  | rmax (g : Gt) (h : CmdHdr) (o : VecOps)
  /-- RMIN (R207). -/
  | rmin (g : Gt) (h : CmdHdr) (o : VecOps)
  /-- RARGMAX (R207). -/
  | rargmax (g : Gt) (h : CmdHdr) (o : VecOps)
  /-- SOFTMAX (R208). -/
  | softmax (g : Gt) (h : CmdHdr) (o : VecOps)
  /-- RMSNORM (R209). -/
  | rmsnorm (g : Gt) (h : CmdHdr) (o : VecOps)
  /-- LAYERNORM (R210). -/
  | layernorm (g : Gt) (h : CmdHdr) (o : VecOps)
  /-- GATHER (R213). -/
  | gather (g : Gt) (h : CmdHdr) (o : VecOps)
  /-- SAMPLE (R215). -/
  | sample (g : Gt) (h : CmdHdr) (o : VecOps)
  /-- MERGE (R217). -/
  | merge (g : Gt) (h : CmdHdr) (o : VecOps)
  /-- TALLY_WRITE (R261). -/
  | tallyWrite (g : Gt) (t : TallyIx) (a : Acc)
  /-- COPY (R262). -/
  | copyOp (c : DescAt) (d : Desc)
  /-- GET (R262). -/
  | getOp (c : DescAt) (d : Desc)
  /-- PUT (R262). -/
  | putOp (c : DescAt) (d : Desc)
  /-- SET (R262). -/
  | setOp (c : DescAt) (d : Desc)
  /-- CLEAR (R262). -/
  | clearOp (c : DescAt) (d : Desc)
  /-- PARITY (R274). -/
  | parity (c : DescAt) (d : Desc)
  /-- DMA_BURST (R271). -/
  | dmaBurst (m : MoverSlot)
  /-- DESCRIPTOR_END (R276). -/
  | descriptorEnd (c : ChanId)
  /-- COMPLETION_RING_RESUME (R277). -/
  | completionRingResume (c : ChanId)
  /-- PCIE_READ_ERROR (R279). -/
  | pcieReadError (i : Iod) (ch : IoCh)
  /-- IDMA_RUN (R278). -/
  | idmaRun (i : Iod) (ch : IoCh) (a : Acc)
  /-- IDMA_STOP (R278). -/
  | idmaStop (i : Iod) (ch : IoCh) (a : Acc)
  /-- IDMA_SHARE_WRITE (R283). -/
  | idmaShareWrite (i : Iod) (ch : IoCh) (a : Acc)
  /-- IDMA_RINGS_WRITE (R283). -/
  | idmaRingsWrite (i : Iod) (ch : IoCh) (a : Acc)
  /-- GET_REQUEST_PACKET (R291). -/
  | getRequestPacket (p : Port) (k : Packet)
  /-- GET_DATA_PACKET (R293). -/
  | getDataPacket (p : Port) (k : Packet)
  /-- PUT_PACKET (R291). -/
  | putPacket (p : Port) (k : Packet)
  /-- SET_PACKET (R291). -/
  | setPacket (p : Port) (k : Packet)
  /-- CLEAR_PACKET (R291). -/
  | clearPacket (p : Port) (k : Packet)
  /-- ACK_PACKET (R300). -/
  | ackPacket (p : Port) (k : Packet)
  /-- NACK_PACKET (R302). -/
  | nackPacket (p : Port) (k : Packet)
  /-- RESERVED_OPC_PACKET (R289). -/
  | reservedOpcPacket (p : Port) (k : Packet)
  /-- LANDING_BUFFER_RESUME (R298). -/
  | landingBufferResume (g : Gt)
  /-- SLOT_SEND (R317). -/
  | slotSend (p : Port) (t : SlotIn)
  /-- IDLE_FRAME (R312). -/
  | idleFrame (p : Port) (f : Frame)
  /-- DATA_FRAME (R323). -/
  | dataFrame (p : Port) (f : Frame)
  /-- CONTROL_FRAME (R328). -/
  | controlFrame (p : Port) (f : Frame) (t : TimeIn)
  /-- PROBE_FRAME (R337). -/
  | probeFrame (p : Port) (f : Frame) (t : TimeIn)
  /-- CAL_FRAME (R338). -/
  | calFrame (p : Port) (f : Frame) (bitErrors : Nat)
  /-- INIT_FRAME (R334). -/
  | initFrame (p : Port) (f : Frame)
  /-- RESERVED_KIND_FRAME (R312). -/
  | reservedKindFrame (p : Port) (f : Frame)
  /-- PARCEL_CONSUME (R324). -/
  | parcelConsume (p : Port)
  /-- CONTROL_FRAME_TIMER (R326). -/
  | controlFrameTimer (p : Port)
  /-- REPLAY_TIMER_EXPIRE (R329). -/
  | replayTimerExpire (p : Port) (seq : BitVec 16)
  /-- CREDIT_TIMEOUT (R333). -/
  | creditTimeout (p : Port)
  /-- LANE_LOCK_LOSS (R311). -/
  | laneLockLoss (p : Port) (lane : Lane)
  /-- LANE_LOCK_REGAIN (R311). -/
  | laneLockRegain (p : Port) (lane : Lane)
  /-- TRAINING_COMPLETE (R334). -/
  | trainingComplete (p : Port)
  /-- PROBE_INTERVAL (R337). -/
  | probeInterval (p : Port)
  /-- CAL_INTERVAL (R338). -/
  | calInterval (p : Port)
  /-- VBL_ENABLE (R334). -/
  | vblEnable (p : Port) (a : Acc)
  /-- VBL_DISABLE (R335). -/
  | vblDisable (p : Port) (a : Acc)
  /-- VBL_CATCHUP_READ (R68). -/
  | vblCatchupRead (h : HostPort) (p : Port) (z : Sz)
  /-- ROUTE_TABLE_WRITE (R350). -/
  | routeTableWrite (r : RouteReg) (a : Acc)
  /-- LAUNCH_DATA (R356). -/
  | launchData (p : Port) (k : LaunchPkt)
  /-- LAUNCH_HEARTBEAT (R355). -/
  | launchHeartbeat (p : Port) (k : LaunchPkt)
  /-- GRAFT_REQ (R361). -/
  | graftReq (p : Port) (k : LaunchPkt)
  /-- GRAFT_ACK (R362). -/
  | graftAck (p : Port) (k : LaunchPkt)
  /-- GRAFT_NAK (R362). -/
  | graftNak (p : Port) (k : LaunchPkt)
  /-- LAUNCH_DONE (R364). -/
  | launchDone (p : Port) (k : LaunchPkt)
  /-- HEARTBEAT_TIMER (R358). -/
  | heartbeatTimer (c : ChildSlot)
  /-- SILENCE_TIMEOUT (R360). -/
  | silenceTimeout
  /-- GRAFT_TIMEOUT (R362). -/
  | graftTimeout
  /-- ROOT_SEND_PACKET (R359). -/
  | rootSendPacket
  /-- DONE_TIMER_EXPIRE (R365). -/
  | doneTimerExpire
  /-- RLY_FEED_WRITE (R359). -/
  | rlyFeedWrite (a : Acc)
  /-- RELAY_ENABLE (R354). -/
  | relayEnable (a : Acc)
  /-- RELAY_DISABLE (R366). -/
  | relayDisable (a : Acc)
  /-- SYNC_MESSAGE (R373). -/
  | syncMessage (p : Port) (k : Packet) (t : TimeIn)
  /-- FOLLOW_UP_MESSAGE (R373). -/
  | followUpMessage (p : Port) (k : Packet) (t : TimeIn)
  /-- DELAY_REQ_SEND (R373). -/
  | delayReqSend (p : Port) (seqId : BitVec 16)
  /-- DELAY_RESP_MESSAGE (R373). -/
  | delayRespMessage (p : Port) (k : Packet) (t : TimeIn)
  /-- ANNOUNCE_MESSAGE (R369). -/
  | announceMessage (p : Port) (k : Packet)
  /-- PTP_DISCARDED_MESSAGE (R369). -/
  | ptpDiscardedMessage (p : Port) (k : Packet)
  /-- FT_STEP_WRITE (R374). -/
  | ftStepWrite (a : Acc) (t : TimeIn)
  /-- RESET_TIME (R375). -/
  | resetTime (a : Acc)
  /-- CLIENT_ENABLE (R382). -/
  | clientEnable (a : Acc) (t : TimeIn)
  /-- FT_RATE_WRITE (R376). -/
  | ftRateWrite (a : Acc) (t : TimeIn)
  /-- STEERING_WATCHDOG_EXPIRE (R377). -/
  | steeringWatchdogExpire (t : TimeIn)
  /-- FT_NOW_NS_READ (R474). -/
  | ftNowNsRead (p : HostPort) (z : Sz) (now : TimeIn)
  /-- RING_CFG_WRITE (R392). -/
  | ringCfgWrite (n : RingIx) (a : Acc)
  /-- RING_CONS_WRITE (R390). -/
  | ringConsWrite (n : RingIx) (a : Acc)
  /-- DOORBELL_WRITE (R462). -/
  | doorbellWrite (n : RingIx) (a : Acc)
  /-- NOP (R394). -/
  | nop (c : CmdRing)
  /-- SUBMIT (R395). -/
  | submit (c : CmdRing) (o : SubmitOps)
  /-- ADU_RESERVED_OPCODE (R394). -/
  | aduReservedOpcode (c : CmdRing) (op : Byte)
  /-- WS_SWITCH (R426). -/
  | wsSwitch (c : CmdRing) (o : AduOps)
  /-- AD_SWITCH (R430). -/
  | adSwitch (c : CmdRing) (o : AduOps)
  /-- AD_CLEAR (R433). -/
  | adClear (c : CmdRing) (o : AduOps)
  /-- LP_REGISTER (R441). -/
  | lpRegister (c : CmdRing) (o : AduOps)
  /-- LP_RELEASE (R442). -/
  | lpRelease (c : CmdRing) (o : AduOps)
  /-- SP_REGISTER (R441). -/
  | spRegister (c : CmdRing) (o : AduOps)
  /-- SP_CAPTURE (R445). -/
  | spCapture (c : CmdRing) (o : AduOps)
  /-- SP_RELEASE (R442). -/
  | spRelease (c : CmdRing) (o : AduOps)
  /-- EVENT_RING_RESUME (R398). -/
  | eventRingResume
  /-- ADU_CANCEL_WRITE (R418). -/
  | aduCancelWrite (w : CancelWord) (a : Acc)
  /-- IMMEDIATE_CLEAR_LAND (R419). -/
  | immediateClearLand (g : Gt) (seats : SeatList)
  /-- ACCT_BAL_WRITE (R406). -/
  | acctBalWrite (n : Account) (a : Acc)
  /-- ACCT_CFG_WRITE (R406). -/
  | acctCfgWrite (n : Account) (a : Acc)
  /-- MIRROR_BINDING (R449). -/
  | mirrorBinding (p : Port) (k : Packet)
  /-- MIRROR_SELECTOR (R449). -/
  | mirrorSelector (p : Port) (k : Packet)
  /-- MIRROR_END_NOTICE (R449). -/
  | mirrorEndNotice (p : Port) (k : Packet)
  /-- MIRROR_IMMEDIATE_CLEAR (R449). -/
  | mirrorImmediateClear (p : Port) (k : Packet)
  /-- KV_POOL_READ (R474). -/
  | kvPoolRead (p : HostPort) (z : Sz)
  /-- OWN_CLAIM (R466). -/
  | ownClaim (a : Acc)
  /-- OWN_REQUEST (R469). -/
  | ownRequest (a : Acc)
  /-- OWN_HANDOVER (R470). -/
  | ownHandover (a : Acc)
  /-- OWN_LAPSE_WRITE (R473). -/
  | ownLapseWrite (a : Acc)
  /-- OWNERSHIP_LAPSE (R472). -/
  | ownershipLapse (t : TimeIn)
  /-- APER_WIN_WRITE (R461). -/
  | aperWinWrite (w : AperWin) (a : Acc)
  /-- APERTURE_READ (R458). -/
  | apertureRead (p : HostPort) (off : AperOff) (len : Nat)
  /-- APERTURE_WRITE (R458). -/
  | apertureWrite (p : HostPort) (off : AperOff) (data : Bytes)
  /-- MSIX_PENDING_SEND (R464). -/
  | msixPendingSend (p : HostPort) (v : MsixVec)
  /-- REGISTER_WRITE (R465). -/
  | registerWrite (w : RegWrite)
  /-- LOAD_FIRMWARE (R485). -/
  | loadFirmware (a : Acc)
  /-- LOAD_STRUCTURE (R489). -/
  | loadStructure (a : Acc)
  /-- LOAD_PLAN (R493). -/
  | loadPlan (a : Acc)
  /-- LOAD_CERT (R497). -/
  | loadCert (a : Acc)
  /-- UNLOAD (R495). -/
  | unload (a : Acc)
  /-- LOAD_REFUSED_KIND (R481). -/
  | loadRefusedKind (a : Acc)
  /-- LOAD_END (R480). -/
  | loadEnd
  /-- FIRMWARE_READY (R485). -/
  | firmwareReady (l : FwSources)
  /-- FIRMWARE_READY_TIMEOUT (R485). -/
  | firmwareReadyTimeout
  /-- GET_VERSION (R496). -/
  | getVersion (b : SpdmBinding)
  /-- GET_CAPABILITIES (R496). -/
  | getCapabilities (b : SpdmBinding)
  /-- NEGOTIATE_ALGORITHMS (R496). -/
  | negotiateAlgorithms (b : SpdmBinding)
  /-- GET_DIGESTS (R497). -/
  | getDigests (b : SpdmBinding)
  /-- GET_CERTIFICATE (R496). -/
  | getCertificate (b : SpdmBinding) (slot : BitVec 4) (off : BitVec 16) (len : BitVec 16)
  /-- CHALLENGE (R497). -/
  | challenge (b : SpdmBinding) (slot : BitVec 4) (nonce : Bytes)
  /-- GET_MEASUREMENTS (R498). -/
  | getMeasurements (b : SpdmBinding) (ix : Byte) (signed : Bool) (nonce : Bytes)
  /-- MCTP_CONTROL (R496). -/
  | mctpControl (b : SpdmBinding) (cmd : Byte)
  /-- CORE_CLAIM (R505). -/
  | coreClaim (c : Core)
  /-- CORE_COMPLETE (R506). -/
  | coreComplete (c : Core) (n : SrcIx)
  /-- INT_SET (R502). -/
  | intSet (a : Acc)
  /-- INT_SRC_WRITE (R504). -/
  | intSrcWrite (n : SrcIx) (a : Acc)
  /-- FORWARD_SEND (R509). -/
  | forwardSend (f : FwdIx)
  /-- MB_REQUEST (R511). -/
  | mbRequest (a : Acc)
  /-- MB_REPLY (R511). -/
  | mbReply (tag : Byte) (reply : Bytes)
  /-- TELEMETRY_INTERVAL_END (R513). -/
  | telemetryIntervalEnd
  /-- TELEMETRY_RECORD_WRITE (R513). -/
  | telemetryRecordWrite
  /-- STEWARD_MEMORY_UE (R501). -/
  | stewardMemoryUe (u : Upset)
  /-- RESUME (R528). -/
  | resume (a : Acc)
  /-- RESUME_CHECK_END (R528). -/
  | resumeCheckEnd
  /-- LOCKSTEP_SUMMARY (R537). -/
  | lockstepSummary (p : Port) (k : Packet)
  /-- LOCKSTEP_SIGNATURES (R537). -/
  | lockstepSignatures (p : Port) (k : Packet)
  /-- LOCKSTEP_TIMEOUT (R537). -/
  | lockstepTimeout (stage : Word)
  /-- FENCE_ORDER (R539). -/
  | fenceOrder (p : Port) (k : Packet)
  /-- FENCE_SUBMIT (R539). -/
  | fenceSubmit (a : Acc)
  /-- FENCE_CHECK_END (R541). -/
  | fenceCheckEnd
  /-- REGISTER_READ_REQUEST (R543). -/
  | registerReadRequest (p : Port) (k : Packet)
  /-- MANAGEMENT_DISCARD (R542). -/
  | managementDiscard (p : Port) (k : Packet)
  /-- PWRGD_FALL (R569). -/
  | pwrgdFall
  /-- JUNCTION_TEMPERATURE_RETURN (R579). -/
  | junctionTemperatureReturn
  /-- XING_FILL_RETURN (R42). -/
  | xingFillReturn (c : Xing) (fill : Fill)
  /-- LAUNCH_RESERVED_KIND (R353). -/
  | launchReservedKind (p : Port) (k : LaunchPkt)
  deriving DecidableEq, Repr

end Sys2Proof
end

