-- ==== Sys2Proof/Decode.lean ====
section
/-! DEFINITION. The command that a word of the opcode table's bits spells. spec/opcode_table.json gives no row any bits: the encoding of
tile streams is private (spec/07_command_streams.md R260), and every other command is an event. So no word spells a command. -/

namespace Sys2Proof

/-- The command that a word spells: none. -/
def decodeTableWord (_nbits _w : Nat) : Option Instr := none

end Sys2Proof
end

