-- ==== Sys2Proof/Machine/Bits.lean ====
section
/-! DEFINITION. Bit fields, byte order, sparse tables and byte memories: the small operations that every unit uses. -/

namespace Sys2Proof.Machine

/-- A field of a register: its lowest bit and its width (R5). -/
structure Fld where
  lo : Nat
  len : Nat
  deriving DecidableEq, Repr

/-- The value of a field of a word. -/
def Fld.get (f : Fld) (w : Word) : Nat := (w.toNat >>> f.lo) % 2 ^ f.len
/-- The bits of a word that a field covers. -/
def Fld.mask (f : Fld) : Word := BitVec.ofNat 64 ((2 ^ f.len - 1) <<< f.lo)
/-- A word with one field replaced; the value wraps to the field's width. -/
def Fld.set (f : Fld) (w : Word) (v : Nat) : Word := (w &&& ~~~f.mask) ||| BitVec.ofNat 64 ((v % 2 ^ f.len) <<< f.lo)

/-- Bits `hi` to `lo` of a number, as the field tables write them. -/
def bits (v hi lo : Nat) : Nat := (v >>> lo) % 2 ^ (hi + 1 - lo)
/-- One bit of a number. -/
def bit (v i : Nat) : Bool := v.testBit i
/-- A Boolean as a bit. -/
def b2n (b : Bool) : Nat := if b then 1 else 0
/-- A number read as a signed field of `n` bits. -/
def toInt (n v : Nat) : Int := if v % 2 ^ n < 2 ^ (n - 1) then (v % 2 ^ n : Nat) else (v % 2 ^ n : Nat) - (2 ^ n : Nat)
/-- A signed number as an `n`-bit field. -/
def ofInt (n : Nat) (v : Int) : Nat := (v % (2 ^ n : Nat)).toNat
/-- A signed value held within a range. -/
def clampInt (lo hi v : Int) : Int := max lo (min hi v)
/-- The quotient rounded up. -/
def divUp (a b : Nat) : Nat := (a + b - 1) / b

/-! Sparse tables: lists of (key, value) with keys rising and no entry at the default. -/

/-- The value a sparse table holds at a key; the default where it holds none. -/
def tget {α : Type} (d : α) : List (Nat × α) → Nat → α
  | [], _ => d
  | (j, v) :: r, k => if j = k then v else tget d r k
/-- A sparse table with one entry written. Writing the default removes the entry. -/
def tput {α : Type} [DecidableEq α] (d : α) (t : List (Nat × α)) (k : Nat) (v : α) : List (Nat × α) :=
  t.filter (·.1 < k) ++ (if v = d then [] else [(k, v)]) ++ t.filter (k < ·.1)
/-- A sparse table is in canonical form: keys rise and no entry is at the default. -/
def twf {α : Type} (d : α) (t : List (Nat × α)) : Prop :=
  t.Pairwise (fun a b => a.1 < b.1) ∧ ∀ e ∈ t, e.2 ≠ d
/-- Changes the value at one key. -/
def tmod {α : Type} [DecidableEq α] (d : α) (t : List (Nat × α)) (k : Nat) (f : α → α) : List (Nat × α) :=
  tput d t k (f (tget d t k))
/-- Removes the entries whose keys lie in a range. -/
def tdropRange {α : Type} (t : List (Nat × α)) (lo n : Nat) : List (Nat × α) :=
  t.filter (fun e => e.1 < lo || lo + n ≤ e.1)
/-- The keys of a sparse table whose entries satisfy a condition. -/
def tkeys {α : Type} (t : List (Nat × α)) (p : Nat → α → Bool) : List Nat := (t.filter (fun e => p e.1 e.2)).map (·.1)

/-! Byte order (R5): little-endian but where a rule says big-endian. -/

/-- A little-endian byte string as a number. -/
def leNat : Bytes → Nat
  | [] => 0
  | b :: r => b.toNat + 256 * leNat r
/-- A number as `n` little-endian bytes. -/
def toLe : Nat → Nat → Bytes
  | 0, _ => []
  | n + 1, v => BitVec.ofNat 8 v :: toLe n (v / 256)
/-- A big-endian byte string as a number. -/
def beNat (b : Bytes) : Nat := leNat b.reverse
/-- A number as `n` big-endian bytes. -/
def toBe (n v : Nat) : Bytes := (toLe n v).reverse
/-- Bytes `off` to `off + n - 1` of a byte string. -/
def slice (b : Bytes) (off n : Nat) : Bytes := (b.drop off).take n
/-- The little-endian field of `n` bytes at an offset of a byte string. -/
def leAt (b : Bytes) (off n : Nat) : Nat := leNat (slice b off n)
/-- A byte string cut or padded with zeros to `n` bytes. -/
def padTo (n : Nat) (b : Bytes) : Bytes := b.take n ++ List.replicate (n - b.length) 0
/-- The ASCII bytes of a text. -/
def ascii (t : String) : Bytes := t.toList.map (fun c => BitVec.ofNat 8 c.toNat)
/-- Whether every byte is zero. -/
def allZero (b : Bytes) : Bool := b.all (· == 0)
/-- A byte string in pieces of `n` bytes, with `fuel` pieces at most. -/
def chunksOf (n : Nat) : Nat → Bytes → List Bytes
  | 0, _ => []
  | fuel + 1, b => if b.isEmpty then [] else b.take n :: chunksOf n fuel (b.drop n)

/-! CRC-64 (R535): reflected, initial value and final XOR all ones. -/

/-- One bit of the CRC-64. -/
def crc64Bit (c : Word) : Word := if c.getLsbD 0 then (c >>> 1) ^^^ 0xC96C5795D7870F42 else c >>> 1
/-- One byte of the CRC-64. -/
def crc64Byte (c : Word) (b : Byte) : Word :=
  crc64Bit (crc64Bit (crc64Bit (crc64Bit (crc64Bit (crc64Bit (crc64Bit (crc64Bit (c ^^^ b.setWidth 64))))))))
/-- The CRC-64 of bytes that follow those of an earlier CRC; 0 is the CRC of no bytes. -/
def crc64 (c : Word) (b : Bytes) : Word := ~~~ (b.foldl crc64Byte (~~~ c))

/-! Byte memories: sparse, every unlisted byte 0 (R81: SRAM and LPDDR5X are zeroed by calibration). -/

/-- A byte memory. -/
abbrev Mem := List Host.Cell
/-- One byte of a memory. -/
def memByte (m : Mem) (a : Nat) : Byte := tget 0 m a
/-- The cells of a byte string placed at an address, zero bytes left out. -/
def cellsOf : Nat → Bytes → Mem
  | _, [] => []
  | a, b :: r => if b = 0 then cellsOf (a + 1) r else (a, b) :: cellsOf (a + 1) r
/-- A memory with a byte string written. -/
def memWrite (m : Mem) (a : Nat) (b : Bytes) : Mem :=
  m.filter (·.1 < a) ++ cellsOf a b ++ m.filter (a + b.length ≤ ·.1)
/-- The bytes of a memory from an address on. -/
def memRead (m : Mem) (a n : Nat) : Bytes :=
  let w := m.filter (fun e => a ≤ e.1 && e.1 < a + n)
  (List.range n).map (fun i => memByte w (a + i))
/-- A memory is in canonical form. -/
abbrev Mem.wf (m : Mem) : Prop := m.Pairwise (fun a b => a.1 < b.1) ∧ ∀ e ∈ m, e.2 ≠ 0
/-- The little-endian number of `n` bytes at an address. -/
def memNat (m : Mem) (a n : Nat) : Nat := leNat (memRead m a n)

end Sys2Proof.Machine
end

