-- ==== Sys2Proof/Machine/Num.lean ====
section
/-! DEFINITION. Number formats (spec/04_formats.md R126 to R161): exact values, decoding, rounding, conversion, microscaled and ternary
rows, and the counter-based generator. -/

namespace Sys2Proof.Machine

/-- An exact value: a NaN, an infinity, or (−1)^neg × m × 2^e, zeros keeping their sign (R134, R136, R137). -/
inductive Val where
  | nan
  | inf (neg : Bool)
  | num (neg : Bool) (m : Nat) (e : Int)
  deriving DecidableEq, Repr

/-- +0 -/
def Val.zero : Val := .num false 0 0
/-- The value of an integer. -/
def Val.ofInt (i : Int) : Val := .num (i < 0) i.natAbs 0
/-- Whether a value is a zero. -/
def Val.isZero : Val → Bool
  | .num _ m _ => m = 0
  | _ => false
/-- Whether a value is a NaN. -/
def Val.isNan : Val → Bool
  | .nan => true
  | _ => false
/-- The sign of a value. -/
def Val.sign : Val → Bool
  | .nan => false
  | .inf n => n
  | .num n _ _ => n
/-- The negated value. -/
def Val.neg : Val → Val
  | .nan => .nan
  | .inf n => .inf !n
  | .num n m e => .num (!n) m e
/-- The magnitude. -/
def Val.abs : Val → Val
  | .nan => .nan
  | .inf _ => .inf false
  | .num _ m e => .num false m e
/-- A value times a power of two. -/
def Val.scale (v : Val) (k : Int) : Val := match v with | .num n m e => .num n m (e + k) | v => v
/-- `m` at exponent `e` counted at a lower exponent `q`. -/
def shiftTo (m : Nat) (e q : Int) : Nat := m * 2 ^ (e - q).toNat
/-- The exact sum (R136, R147). A sum of zeros is +0 unless both are −0. -/
def Val.add : Val → Val → Val
  | .nan, _ => .nan
  | _, .nan => .nan
  | .inf a, .inf b => if a = b then .inf a else .nan
  | .inf a, _ => .inf a
  | _, .inf b => .inf b
  | .num a m e, .num b n f =>
    if m = 0 && n = 0 then .num (a && b) 0 0
    else
      let q := min e f
      let x : Int := if a then -(shiftTo m e q : Int) else shiftTo m e q
      let y : Int := if b then -(shiftTo n f q : Int) else shiftTo n f q
      .num (x + y < 0) (x + y).natAbs q
/-- The exact difference. -/
def Val.sub (a b : Val) : Val := a.add b.neg
/-- The exact product. -/
def Val.mul : Val → Val → Val
  | .nan, _ => .nan
  | _, .nan => .nan
  | .inf a, .inf b => .inf (a != b)
  | .inf a, .num b m _ => if m = 0 then .nan else .inf (a != b)
  | .num a m _, .inf b => if m = 0 then .nan else .inf (a != b)
  | .num a m e, .num b n f => .num (a != b) (m * n) (e + f)
/-- A value as an integer count of a power of two, for comparison. -/
def Val.at_ (v : Val) (q : Int) : Int := match v with | .num n m e => if n then -(shiftTo m e q : Int) else shiftTo m e q | _ => 0
/-- The order of two values that are not NaN; the zeros are equal. -/
def Val.lt : Val → Val → Bool
  | .nan, _ => false
  | _, .nan => false
  | .inf a, .inf b => a && !b
  | .inf a, _ => a
  | _, .inf b => !b
  | .num a m e, .num b n f => let q := min e f; Val.at_ (.num a m e) q < Val.at_ (.num b n f) q

/-! Rounding (R151 to R154). -/

/-- A floating-point format (R134): mantissa bits, bias, the largest finite code, and the codes of infinity and NaN, without the sign. -/
structure FFmt where
  width : Nat
  mb : Nat
  bias : Nat
  maxCode : Nat
  inf : Option Nat
  nan : Option Nat
  deriving DecidableEq, Repr
/-- FP32 -/
def fp32 : FFmt := ⟨32, 23, 127, 0x7F7FFFFF, some 0x7F800000, some 0x7FC00000⟩
/-- BF16 -/
def bf16 : FFmt := ⟨16, 7, 127, 0x7F7F, some 0x7F80, some 0x7FC0⟩
/-- FP16 -/
def fp16 : FFmt := ⟨16, 10, 15, 0x7BFF, some 0x7C00, some 0x7E00⟩
/-- E4M3 -/
def e4m3 : FFmt := ⟨8, 3, 7, 0x7E, none, some 0x7F⟩
/-- E5M2 -/
def e5m2 : FFmt := ⟨8, 2, 15, 0x7B, some 0x7C, some 0x7E⟩
/-- E3M2 -/
def e3m2 : FFmt := ⟨6, 2, 3, 0x1F, none, none⟩
/-- E2M3 -/
def e2m3 : FFmt := ⟨6, 3, 1, 0x1F, none, none⟩
/-- E2M1 -/
def e2m1 : FFmt := ⟨4, 1, 1, 0x7, none, none⟩

/-- The value of an encoding (R134, R135). -/
def FFmt.decode (f : FFmt) (c : Nat) : Val :=
  let s := c.testBit (f.width - 1)
  let mag := c % 2 ^ (f.width - 1)
  if f.maxCode < mag then (if f.inf = some mag then .inf s else .nan)
  else
    let e := mag / 2 ^ f.mb
    let m := mag % 2 ^ f.mb
    if e = 0 then .num s m (1 - (f.bias : Int) - f.mb) else .num s (2 ^ f.mb + m) ((e : Int) - f.bias - f.mb)
/-- floor(log2 (n / d)) of a positive fraction. -/
def flog2 (n d : Nat) : Int :=
  let l : Int := (n.log2 : Int) - d.log2
  if (if 0 ≤ l then n < d * 2 ^ l.toNat else n * 2 ^ (-l).toNat < d) then l - 1 else l

/-- A rounding mode with the draw bits U that SR takes (R151, R152). -/
inductive RMode where
  | rne
  | rtz
  | sr (u : Nat)
  deriving DecidableEq, Repr
/-- Whether the remainder `r` of a quotient by `d` rounds its quotient `n` up in magnitude. -/
def RMode.up (m : RMode) (n r d : Nat) : Bool :=
  match m with
  | .rne => d < 2 * r || (2 * r = d && n % 2 = 1)
  | .rtz => false
  | .sr u => r != 0 && 65536 ≤ r * 65536 / d + u
/-- The magnitude n/d × 2^e counted in units of 2^q, rounded. -/
def roundUnits (mode : RMode) (n d : Nat) (e q : Int) : Nat :=
  let a := n * 2 ^ (e - q).toNat
  let b := d * 2 ^ (q - e).toNat
  if mode.up (a / b) (a % b) b then a / b + 1 else a / b
/-- The code of the positive magnitude n/d × 2^e in a format, before overflow is considered; it may exceed the largest finite code: a
magnitude beyond the format is rounded, RTZ included, as if its exponents went on, and overflows when what it gives does (R153 does not say
how it is rounded: DESIGN CHOICE, log entry 94). -/
def FFmt.code (f : FFmt) (mode : RMode) (n d : Nat) (e : Int) : Nat :=
  if n = 0 then 0
  else
    let qmin : Int := 1 - (f.bias : Int) - f.mb
    let q := max (flog2 n d + e - f.mb) qmin
    (q - qmin).toNat * 2 ^ f.mb + roundUnits mode n d e q
/-- A code with its sign. -/
def FFmt.signed (f : FFmt) (neg : Bool) (c : Nat) : Nat := c + if neg then 2 ^ (f.width - 1) else 0
/-- The result for an infinite source, or for a finite overflow, in a format (R153). -/
def FFmt.past (f : FFmt) (neg sat isInf : Bool) : Nat :=
  match f.inf, f.nan with
  | some i, _ => if sat && !isInf then f.signed neg f.maxCode else f.signed neg i
  | none, some n => if sat then f.signed neg f.maxCode else n
  | none, none => f.signed neg f.maxCode
/-- The encoding of a fraction (−1)^neg × n/d × 2^e (R151 to R154). -/
def FFmt.encodeQ (f : FFmt) (mode : RMode) (sat neg : Bool) (n d : Nat) (e : Int) : Nat :=
  let c := f.code mode n d e
  if f.maxCode < c then f.past neg sat false else f.signed neg c
/-- The encoding of a value (R137, R151 to R154). -/
def FFmt.encode (f : FFmt) (mode : RMode) (sat : Bool) : Val → Nat
  | .nan => f.nan.getD 0
  | .inf s => f.past s sat true
  | .num s m e => f.encodeQ mode sat s m 1 e
/-- A value rounded once to FP32, to nearest even. -/
def rne32 (v : Val) : Val := fp32.decode (fp32.encode .rne false v)
/-- A fraction rounded once to FP32. -/
def rneQ (neg : Bool) (n d : Nat) (e : Int) : Val := fp32.decode (fp32.encodeQ .rne false neg n d e)
/-- The FP32 bits of a value. -/
def bits32 (v : Val) : BitVec 32 := BitVec.ofNat 32 (fp32.encode .rne false v)
/-- The value of FP32 bits. -/
def val32 (b : BitVec 32) : Val := fp32.decode b.toNat
/-- The integer that a value rounds to in `n` bits, in range (R153 to R155). -/
def encodeInt (n : Nat) (mode : RMode) (v : Val) : Nat :=
  let hi : Int := 2 ^ (n - 1) - 1
  let lo : Int := -(2 ^ (n - 1))
  match v with
  | .nan => 0
  | .inf s => ofInt n (if s then lo else hi)
  | .num s m e => let k : Int := roundUnits mode m 1 e 0; ofInt n (clampInt lo hi (if s then -k else k))

/-! Format codes and elements (R126 to R133, R139 to R145). -/

/-- The element formats (R126). -/
inductive Fmt where
  | fp32 | bf16 | fp16 | e4m3 | e5m2 | e3m2 | e2m3 | e2m1 | int8 | int4 | t3 | int32
  deriving DecidableEq, Repr
/-- The format of a code, or none where it is reserved (R127). -/
def fmtOf (c : BitVec 4) : Option Fmt :=
  match c.toNat with
  | 0 => some .fp32 | 1 => some .bf16 | 2 => some .fp16 | 3 => some .e4m3 | 4 => some .e5m2 | 5 => some .e3m2 | 6 => some .e2m3
  | 7 => some .e2m1 | 8 => some .int8 | 9 => some .int4 | 10 => some .t3 | 11 => some .int32 | _ => none
/-- Whether a format is microscaled. -/
def Fmt.micro (f : Fmt) : Bool := f = .e3m2 || f = .e2m3 || f = .e2m1
/-- Whether a format is an integer format. -/
def Fmt.isInt (f : Fmt) : Bool := f = .int8 || f = .int4 || f = .int32
/-- Whether a format is packed within a row: INT4, FP6, FP4 or T3 (R193). -/
def Fmt.packed (f : Fmt) : Bool := f.micro || f = .int4 || f = .t3
/-- Bytes of an element of a byte-sized format. -/
def Fmt.size : Fmt → Nat
  | .fp32 => 4 | .int32 => 4 | .bf16 => 2 | .fp16 => 2 | _ => 1
/-- Element bytes of a packed row of `n` elements (R130 to R132). -/
def Fmt.rowBytes (f : Fmt) (n : Nat) : Nat :=
  match f with
  | .int4 => divUp n 2
  | .e3m2 => 24 * divUp n 32
  | .e2m3 => 24 * divUp n 32
  | .e2m1 => 16 * divUp n 32
  | .t3 => 13 * divUp n 64
  | f => n * f.size
/-- Scale bytes of a row of `n` elements (R133). -/
def Fmt.scaleBytes (f : Fmt) (n : Nat) : Nat := if f.micro then divUp n 32 else if f = .t3 then 2 * divUp n 64 else 0
/-- The floating-point parameters of a format, if it has them. -/
def Fmt.ff : Fmt → Option FFmt
  | .fp32 => some Machine.fp32 | .bf16 => some Machine.bf16 | .fp16 => some Machine.fp16 | .e4m3 => some Machine.e4m3
  | .e5m2 => some Machine.e5m2 | .e3m2 => some Machine.e3m2 | .e2m3 => some Machine.e2m3 | .e2m1 => some Machine.e2m1 | _ => none
/-- The bits of an integer format. -/
def Fmt.intBits : Fmt → Nat
  | .int4 => 4 | .int32 => 32 | _ => 8
/-- The value of an element code, unscaled. -/
def Fmt.value (f : Fmt) (c : Nat) : Val :=
  match f.ff with
  | some p => p.decode c
  | none => Val.ofInt (toInt f.intBits c)
/-- Element `j` of a packed run of bytes, as a code (R130, R131). -/
def packedCode (f : Fmt) (b : Bytes) (j : Nat) : Nat :=
  match f with
  | .int4 => bits (leAt b (j / 2) 1) (4 * (j % 2) + 3) (4 * (j % 2))
  | .e2m1 => bits (leAt b (j / 2) 1) (4 * (j % 2) + 3) (4 * (j % 2))
  | .e3m2 => bits (leAt b (3 * (j / 4)) 3) (6 * (j % 4) + 5) (6 * (j % 4))
  | .e2m3 => bits (leAt b (3 * (j / 4)) 3) (6 * (j % 4) + 5) (6 * (j % 4))
  | f => leAt b (j * f.size) f.size
/-- Digit `i` of a T3 byte as a trit; an invalid byte reads as zeros (R141, R144). -/
def tritOf (b i : Nat) : Int := if 243 ≤ b then 0 else match b / 3 ^ i % 3 with | 1 => 1 | 2 => -1 | _ => 0
/-- Trit `j` of packed groups (R142). -/
def trit (b : Bytes) (j : Nat) : Int := tritOf (leAt b (13 * (j / 64) + j % 64 / 5) 1) (j % 64 % 5)
/-- Whether a row of `n` trits reads an invalid byte (R144). -/
def tritsBad (b : Bytes) (n : Nat) : Bool := (List.range n).any (fun j => 243 ≤ leAt b (13 * (j / 64) + j % 64 / 5) 1)
/-- The value of an E8M0 scale (R139). -/
def e8m0 (e : Nat) : Val := if e = 255 then .nan else .num false 1 ((e : Int) - 127)
/-- Element `j` of a packed row with its scales, as its scaled value (R139 to R143). -/
def packedVal (f : Fmt) (b scales : Bytes) (j : Nat) : Val :=
  match f with
  | .t3 => (bf16.decode (leAt scales (2 * (j / 64)) 2)).mul (Val.ofInt (trit b j))
  | .int4 => f.value (packedCode f b j)
  | _ => (e8m0 (leAt scales (j / 32) 1)).mul (f.value (packedCode f b j))

/-! The generator (R158 to R161). -/

/-- mix64 -/
def mix64 (x : Word) : Word :=
  let x := (x ^^^ (x >>> 30)) * 0xBF58476D1CE4E5B9
  let x := (x ^^^ (x >>> 27)) * 0x94D049BB133111EB
  x ^^^ (x >>> 31)
/-- One draw (R158). -/
def draw (key counter : Word) : Word := mix64 (mix64 (key ^^^ 0x9E3779B97F4A7C15) + counter * 0xD1B54A32D192ED03)
/-- The counter of a draw (R160). -/
def drawCounter (purpose pos site index : Nat) : Word :=
  BitVec.ofNat 64 (purpose % 4 * 2 ^ 62 + pos % 2 ^ 24 * 2 ^ 38 + site % 2 ^ 14 * 2 ^ 24 + index % 2 ^ 24)
/-- The mode of one element under RMODE: SR draws for it (R151, R152, R161). -/
def rmodeOf (rmode : Nat) (key : Word) (pos site index : Nat) : RMode :=
  match rmode with
  | 0 => .rne
  | 1 => .rtz
  | _ => .sr ((draw key (drawCounter 0 pos site index)).toNat / 2 ^ 48)

/-! Writing rows (R153 to R157). -/

/-- The code of a value in a format that is neither microscaled nor T3 (R155). -/
def Fmt.encode (f : Fmt) (mode : RMode) (sat : Bool) (v : Val) : Nat :=
  match f.ff with
  | some p => p.encode mode sat v
  | none => encodeInt f.intBits mode v
/-- The largest of some magnitudes. -/
def maxAbs (l : List Val) : Val := l.foldl (fun a v => if a.lt v.abs then v.abs else a) Val.zero
/-- Whether a value is NaN or infinite. -/
def Val.special : Val → Bool
  | .num _ _ _ => false
  | _ => true
/-- One block of values in a microscaling format: the scale byte and the element codes (R156). -/
def blockCodes (f : Fmt) (mode : Nat → RMode) (l : List Val) : Nat × List Nat :=
  let p := f.ff.getD Machine.e2m1
  let emax : Int := if f = .e3m2 then 4 else 2
  if l.any Val.special then (255, l.map (fun _ => 0))
  else match maxAbs l with
    | .num _ 0 _ => (0, l.map (fun v => p.signed v.sign 0))
    | .num _ m e =>
      let x := flog2 m 1 + e - emax
      let sb := (clampInt 0 254 (x + 127)).toNat
      (sb, l.zipIdx.map (fun v => p.encode (mode v.2) true (v.1.scale (127 - (sb : Int)))))
    | _ => (255, [])
/-- The trit of a value by a nonzero finite scale, to nearest even and clamped (R157). -/
def tritCode (v s : Val) : Nat :=
  match v, s with
  | .num a m e, .num b n f => let k := roundUnits .rne m n (e - f) 0; if k = 0 then 0 else if a != b then 2 else 1
  | _, _ => 0
/-- One group of 64 values in T3: the BF16 scale and the digits (R157). -/
def groupCodes (l : List Val) : Nat × List Nat :=
  if l.any Val.special then (0x7FC0, l.map (fun _ => 0))
  else
    let sum := l.foldl (fun a v => a.add v.abs) Val.zero
    let c := bf16.encode .rne true (sum.scale (-6))
    let s := bf16.decode c
    (c, l.map (fun v => if s.isZero then 0 else tritCode v s))
/-- Five trit digits in a byte (R141). -/
def t3Byte (d : List Nat) : Byte := BitVec.ofNat 8 (d.foldr (fun x a => x + 3 * a) 0)
/-- A list cut into pieces of `n`. -/
def pieces {α : Type} (n : Nat) : Nat → List α → List (List α)
  | 0, _ => []
  | k + 1, l => if l.isEmpty then [] else l.take n :: pieces n k (l.drop n)
/-- The bytes of packed codes of a format, low bits first. -/
def packBits (w : Nat) (l : List Nat) : Bytes :=
  if w = 4 then (pieces 2 l.length l).map (fun p => BitVec.ofNat 8 (p.getD 0 0 + 16 * p.getD 1 0))
  else (pieces 4 l.length l).flatMap (fun p => toLe 3 (p.getD 0 0 + 2 ^ 6 * p.getD 1 0 + 2 ^ 12 * p.getD 2 0 + 2 ^ 18 * p.getD 3 0))
/-- Values padded with zeros to whole pieces of `n`. -/
def padVals (n : Nat) (l : List Val) : List Val := l ++ List.replicate (divUp l.length n * n - l.length) Val.zero
/-- A packed row of values: its element bytes and its scale bytes (R130 to R133, R156, R157). -/
def packRow (f : Fmt) (mode : Nat → RMode) (l : List Val) : Bytes × Bytes :=
  match f with
  | .int4 => (packBits 4 (l.zipIdx.map (fun v => f.encode (mode v.2) true v.1)), [])
  | .t3 =>
    let g := (pieces 64 l.length (padVals 64 l)).map groupCodes
    (g.flatMap (fun x => (pieces 5 13 x.2).map t3Byte), g.flatMap (fun x => toLe 2 x.1))
  | _ =>
    let b := (pieces 32 l.length (padVals 32 l)).zipIdx.map (fun x => blockCodes f (fun i => mode (32 * x.2 + i)) x.1)
    (b.flatMap (fun x => packBits (if f = .e2m1 then 4 else 6) x.2), b.map (fun x => BitVec.ofNat 8 x.1))

end Sys2Proof.Machine
end

