-- ==== Sys2Proof/Config.lean ====
section
/-! DEFINITION. What the spec leaves open: free values, which have no body, so that nothing can be proved of them, and the constants
of one manufactured module. A free value is applied to the state's counter `free`, which every use advances (log entry 6). -/

namespace Sys2Proof.Config

/-- A byte the spec leaves undefined: overlapping operands (R199), overlapping transfers (R268, R274). -/
opaque freeByte : Nat → Byte
/-- A number the spec leaves open within a range that the use gives (rounding that no rule states, counts of steps). -/
opaque freeNat : Nat → Nat
/-- The bytes of the SHA-512 of the boot ROM (R497, index 1), which the spec does not give. -/
opaque bootRomHash : Nat → Byte

/-- The byte string that the readable fuse fields make for their SHA-512 (R497, index 4): the spec does not give their order and layout. -/
opaque fuseImage : List Bytes → Bytes

end Sys2Proof.Config
end

