-- ==== Sys2Proof/Machine/RegMap.lean ====
section
/-! DEFINITION. The register map of BAR0 (R7, R10): a name for every register of the spec with its offset, its fields, its reset
value and which bits a host write changes. Each register's field table stands in the chapter of its block. -/

namespace Sys2Proof.Machine

/-- The registers. An index numbers a tile, region, port, die, channel, ring or entry as the register's caption in spec/ does. -/
inductive Reg where
  | ID_PART
  | ID_SERIAL
  | ID_TILES (n : Nat)
  | ROOT_HASH (n : Nat)
  | BOOT_STATE
  | BOOT_ADDR
  | BOOT_CTRL
  | BOOT_RESULT
  | FW_INFO
  | PART_STATE (n : Nat)
  | DEV_KEY (n : Nat)
  | OWN_STATUS
  | OWN_CLAIM
  | OWN_REQUEST
  | OWN_HANDOVER
  | OWN_LAPSE
  | HP_STATUS (n : Nat)
  | HP_COUNT (n : Nat)
  | APER_WIN (n : Nat)
  | MSIX_PBA (n : Nat)
  | MSIX_TABLE (n : Nat)
  | MB_REQ (n : Nat)
  | MB_RSP (n : Nat)
  | MB_CTRL
  | TEL_CFG
  | TEL_IDX
  | STW_STATUS
  | INT_SRC (n : Nat)
  | INT_PEND (n : Nat)
  | INT_ACT (n : Nat)
  | INT_SET
  | CORE_THRESH (n : Nat)
  | CORE_CLAIM (n : Nat)
  | CORE_COMPLETE (n : Nat)
  | CORE_LEVEL (n : Nat)
  | FWD (n : Nat)
  | STG_CFG
  | STG_COUNT
  | STG_STATUS
  | HOLD_LIMIT
  | XING_ALARM
  | SKEW_TRIM (n : Nat)
  | XING_FILL (n : Nat)
  | RGN_BUDGET (n : Nat)
  | RGN_TARGET (n : Nat)
  | RGN_RATE (n : Nat)
  | RGN_PACE (n : Nat)
  | RGN_POWER (n : Nat)
  | RGN_LATE (n : Nat)
  | RGN_STATUS (n : Nat)
  | FT_CTRL
  | FT_STATUS
  | FT_NOW_NS
  | FT_NOW_FRAC
  | FT_STEP
  | FT_RATE
  | FT_SERVO
  | FT_LIMITS
  | FT_SAMPLE
  | FT_MASTER
  | FT_MASTER_PORT
  | FT_EPOCH
  | VBL_CTRL (n : Nat)
  | VBL_STATUS (n : Nat)
  | VBL_TIMERS (n : Nat)
  | VBL_SLOTS (n : Nat)
  | VBL_PATTERN0 (n : Nat)
  | VBL_PATTERN1 (n : Nat)
  | VBL_TX (n : Nat)
  | VBL_RX (n : Nat)
  | VBL_TXCOUNT (n : Nat)
  | VBL_RXCOUNT (n : Nat)
  | VBL_ERR (n : Nat)
  | VBL_CATCHUP (n : Nat)
  | VBL_LAT (n : Nat)
  | VBL_PHY (n : Nat)
  | TS_CORR (n : Nat)
  | TS_TXQ_META (n : Nat)
  | TS_TXQ_NS (n : Nat)
  | TS_COUNT (n : Nat)
  | ROUTE_DEST (n : Nat)
  | ROUTE_MC (n : Nat)
  | ROUTE_SELF
  | ROUTE_STATUS
  | ROUTE_COUNT
  | ROUTE_HASH (n : Nat)
  | RLY_CTRL
  | RLY_AREA
  | RLY_FEED
  | RLY_FAMILY
  | RLY_PROGRESS
  | RLY_STATUS
  | RLY_EXPECT
  | RLY_CHILD (n : Nat)
  | ADU_CTRL
  | ADU_STATUS
  | ADU_ROUND
  | ADU_TEMPLATE
  | ADU_COUNT
  | ADU_REQ_SEL
  | ADU_REQ_VIEW (n : Nat)
  | ACCT_CFG (n : Nat)
  | ACCT_BAL (n : Nat)
  | ADU_CANCEL (n : Nat)
  | KV_CFG
  | KV_POOL
  | SHARD_CFG
  | WT_EVENT
  | WS_STATE (n : Nat)
  | AD_STATE (n : Nat)
  | LP_STATE (n : Nat)
  | SP_STATE (n : Nat)
  | RING_BASE (n : Nat)
  | RING_SHADOW (n : Nat)
  | RING_IDX (n : Nat)
  | RING_CFG (n : Nat)
  | RING_STAT (n : Nat)
  | SEQ_STATUS (n : Nat)
  | SEQ_PC (n : Nat)
  | SEQ_FAULT (n : Nat)
  | TALLY_LIMIT (n : Nat)
  | QUEUE_FILL (n : Nat)
  | SEQ_WAIT (n : Nat)
  | LOOP (n k : Nat)
  | TALLY (n k : Nat)
  | PRED (n : Nat)
  | SEAT_PRED (n k : Nat)
  | BANK_OWN (n k : Nat)
  | SRAM_ECC (n : Nat)
  | SCAN_STATUS (n : Nat)
  | BANK_EVENT (n : Nat)
  | PATCH_MAP (n k : Nat)
  | MXE_STATUS (n : Nat)
  | MXE_WORK (n : Nat)
  | MXE_ACC_ECC (n : Nat)
  | VEC_STATUS (n : Nat)
  | VEC_WORK (n : Nat)
  | VEC_CLASS (n : Nat)
  | TDMA_STATUS (n k : Nat)
  | TDMA_COUNT (n k : Nat)
  | TDMA_CFG (n k : Nat)
  | DR_STATUS (n : Nat)
  | DR_ECC (n : Nat)
  | DR_UE_ADDR (n : Nat)
  | DR_FORCED (n : Nat)
  | DR_DEBT (n k : Nat)
  | IDMA_SUM (n : Nat)
  | IDMA_EVENT (n : Nat)
  | IDMA_CTRL (n k : Nat)
  | IDMA_RINGS (n k : Nat)
  | IDMA_STATUS (n k : Nat)
  | IDMA_COUNT (n k : Nat)
  | FLT_STATUS
  | FLT_LOG_IDX
  | PART_FLT (n : Nat)
  | PART_CMT (n : Nat)
  | RESUME_ADDR
  | RESUME_C
  | RESUME_Q
  | RESUME_CTRL
  | LS_CTRL
  | LS_STATUS
  | LS_FIRST
  | FENCE_STATUS
  | FENCE_EPOCH
  | FENCE_SUBMIT
  | FLT_LOG (n k : Nat)
  deriving DecidableEq, Repr

/-- A register's offset in BAR0. -/
def Reg.off : Reg → Nat
  | .ID_PART => 0x0
  | .ID_SERIAL => 0x8
  | .ID_TILES n => 0x40 + n * 0x8
  | .ROOT_HASH n => 0x80 + n * 0x8
  | .BOOT_STATE => 0x100
  | .BOOT_ADDR => 0x108
  | .BOOT_CTRL => 0x110
  | .BOOT_RESULT => 0x118
  | .FW_INFO => 0x120
  | .PART_STATE n => 0x140 + n * 0x8
  | .DEV_KEY n => 0x200 + n * 0x8
  | .OWN_STATUS => 0x10000
  | .OWN_CLAIM => 0x10008
  | .OWN_REQUEST => 0x10010
  | .OWN_HANDOVER => 0x10018
  | .OWN_LAPSE => 0x10020
  | .HP_STATUS n => 0x10100 + n * 0x100
  | .HP_COUNT n => 0x10108 + n * 0x100
  | .APER_WIN n => 0x11000 + n * 0x8
  | .MSIX_PBA n => 0x17f00 + n * 0x8
  | .MSIX_TABLE n => 0x18000 + n * 0x8
  | .MB_REQ n => 0x20000 + n * 0x8
  | .MB_RSP n => 0x20100 + n * 0x8
  | .MB_CTRL => 0x20200
  | .TEL_CFG => 0x20400
  | .TEL_IDX => 0x20408
  | .STW_STATUS => 0x20410
  | .INT_SRC n => 0x100000 + n * 0x8
  | .INT_PEND n => 0x102000 + n * 0x8
  | .INT_ACT n => 0x102080 + n * 0x8
  | .INT_SET => 0x102100
  | .CORE_THRESH n => 0x103000 + n * 0x20
  | .CORE_CLAIM n => 0x103008 + n * 0x20
  | .CORE_COMPLETE n => 0x103010 + n * 0x20
  | .CORE_LEVEL n => 0x103018 + n * 0x20
  | .FWD n => 0x104000 + n * 0x8
  | .STG_CFG => 0x200000
  | .STG_COUNT => 0x200008
  | .STG_STATUS => 0x200010
  | .HOLD_LIMIT => 0x200018
  | .XING_ALARM => 0x200020
  | .SKEW_TRIM n => 0x200040 + n * 0x8
  | .XING_FILL n => 0x200100 + n * 0x8
  | .RGN_BUDGET n => 0x210000 + n * 0x100
  | .RGN_TARGET n => 0x210008 + n * 0x100
  | .RGN_RATE n => 0x210010 + n * 0x100
  | .RGN_PACE n => 0x210018 + n * 0x100
  | .RGN_POWER n => 0x210020 + n * 0x100
  | .RGN_LATE n => 0x210028 + n * 0x100
  | .RGN_STATUS n => 0x210030 + n * 0x100
  | .FT_CTRL => 0x300000
  | .FT_STATUS => 0x300008
  | .FT_NOW_NS => 0x300010
  | .FT_NOW_FRAC => 0x300018
  | .FT_STEP => 0x300020
  | .FT_RATE => 0x300028
  | .FT_SERVO => 0x300030
  | .FT_LIMITS => 0x300038
  | .FT_SAMPLE => 0x300040
  | .FT_MASTER => 0x300048
  | .FT_MASTER_PORT => 0x300050
  | .FT_EPOCH => 0x300058
  | .VBL_CTRL n => 0x400000 + n * 0x10000
  | .VBL_STATUS n => 0x400008 + n * 0x10000
  | .VBL_TIMERS n => 0x400010 + n * 0x10000
  | .VBL_SLOTS n => 0x400018 + n * 0x10000
  | .VBL_PATTERN0 n => 0x400020 + n * 0x10000
  | .VBL_PATTERN1 n => 0x400028 + n * 0x10000
  | .VBL_TX n => 0x400030 + n * 0x10000
  | .VBL_RX n => 0x400038 + n * 0x10000
  | .VBL_TXCOUNT n => 0x400040 + n * 0x10000
  | .VBL_RXCOUNT n => 0x400048 + n * 0x10000
  | .VBL_ERR n => 0x400050 + n * 0x10000
  | .VBL_CATCHUP n => 0x400058 + n * 0x10000
  | .VBL_LAT n => 0x400060 + n * 0x10000
  | .VBL_PHY n => 0x400068 + n * 0x10000
  | .TS_CORR n => 0x400100 + n * 0x10000
  | .TS_TXQ_META n => 0x400108 + n * 0x10000
  | .TS_TXQ_NS n => 0x400110 + n * 0x10000
  | .TS_COUNT n => 0x400118 + n * 0x10000
  | .ROUTE_DEST n => 0x800000 + n * 0x8
  | .ROUTE_MC n => 0x880000 + n * 0x8
  | .ROUTE_SELF => 0x890000
  | .ROUTE_STATUS => 0x890008
  | .ROUTE_COUNT => 0x890010
  | .ROUTE_HASH n => 0x890040 + n * 0x8
  | .RLY_CTRL => 0x8a0000
  | .RLY_AREA => 0x8a0008
  | .RLY_FEED => 0x8a0010
  | .RLY_FAMILY => 0x8a0018
  | .RLY_PROGRESS => 0x8a0020
  | .RLY_STATUS => 0x8a0028
  | .RLY_EXPECT => 0x8a0030
  | .RLY_CHILD n => 0x8a0040 + n * 0x8
  | .ADU_CTRL => 0xc00000
  | .ADU_STATUS => 0xc00008
  | .ADU_ROUND => 0xc00010
  | .ADU_TEMPLATE => 0xc00018
  | .ADU_COUNT => 0xc00020
  | .ADU_REQ_SEL => 0xc00028
  | .ADU_REQ_VIEW n => 0xc00040 + n * 0x8
  | .ACCT_CFG n => 0xc10000 + n * 0x10
  | .ACCT_BAL n => 0xc10008 + n * 0x10
  | .ADU_CANCEL n => 0xc20000 + n * 0x8
  | .KV_CFG => 0xd00000
  | .KV_POOL => 0xd00008
  | .SHARD_CFG => 0xd00010
  | .WT_EVENT => 0xd00018
  | .WS_STATE n => 0xd10000 + n * 0x8
  | .AD_STATE n => 0xd20000 + n * 0x8
  | .LP_STATE n => 0xd30000 + n * 0x8
  | .SP_STATE n => 0xd40000 + n * 0x8
  | .RING_BASE n => 0x1000000 + n * 0x40
  | .RING_SHADOW n => 0x1000008 + n * 0x40
  | .RING_IDX n => 0x1000010 + n * 0x40
  | .RING_CFG n => 0x1000018 + n * 0x40
  | .RING_STAT n => 0x1000020 + n * 0x40
  | .SEQ_STATUS n => 0x2000000 + n * 0x4000
  | .SEQ_PC n => 0x2000008 + n * 0x4000
  | .SEQ_FAULT n => 0x2000010 + n * 0x4000
  | .TALLY_LIMIT n => 0x2000018 + n * 0x4000
  | .QUEUE_FILL n => 0x2000020 + n * 0x4000
  | .SEQ_WAIT n => 0x2000028 + n * 0x4000
  | .LOOP n k => 0x2000040 + n * 0x4000 + k * 0x8
  | .TALLY n k => 0x2000100 + n * 0x4000 + k * 0x8
  | .PRED n => 0x2000300 + n * 0x4000
  | .SEAT_PRED n k => 0x2000400 + n * 0x4000 + k * 0x8
  | .BANK_OWN n k => 0x2003000 + n * 0x4000 + k * 0x8
  | .SRAM_ECC n => 0x2003300 + n * 0x4000
  | .SCAN_STATUS n => 0x2003308 + n * 0x4000
  | .BANK_EVENT n => 0x2003310 + n * 0x4000
  | .PATCH_MAP n k => 0x2003340 + n * 0x4000 + k * 0x8
  | .MXE_STATUS n => 0x2003400 + n * 0x4000
  | .MXE_WORK n => 0x2003408 + n * 0x4000
  | .MXE_ACC_ECC n => 0x2003410 + n * 0x4000
  | .VEC_STATUS n => 0x2003420 + n * 0x4000
  | .VEC_WORK n => 0x2003428 + n * 0x4000
  | .VEC_CLASS n => 0x2003430 + n * 0x4000
  | .TDMA_STATUS n k => 0x2003440 + n * 0x4000 + k * 0x20
  | .TDMA_COUNT n k => 0x2003448 + n * 0x4000 + k * 0x20
  | .TDMA_CFG n k => 0x2003450 + n * 0x4000 + k * 0x20
  | .DR_STATUS n => 0x2800000 + n * 0x10000
  | .DR_ECC n => 0x2800008 + n * 0x10000
  | .DR_UE_ADDR n => 0x2800010 + n * 0x10000
  | .DR_FORCED n => 0x2800018 + n * 0x10000
  | .DR_DEBT n k => 0x2800040 + n * 0x10000 + k * 0x8
  | .IDMA_SUM n => 0x2c00000 + n * 0x10000
  | .IDMA_EVENT n => 0x2c00008 + n * 0x10000
  | .IDMA_CTRL n k => 0x2c00100 + n * 0x10000 + k * 0x40
  | .IDMA_RINGS n k => 0x2c00108 + n * 0x10000 + k * 0x40
  | .IDMA_STATUS n k => 0x2c00110 + n * 0x10000 + k * 0x40
  | .IDMA_COUNT n k => 0x2c00118 + n * 0x10000 + k * 0x40
  | .FLT_STATUS => 0x3000000
  | .FLT_LOG_IDX => 0x3000008
  | .PART_FLT n => 0x3000040 + n * 0x10
  | .PART_CMT n => 0x3000048 + n * 0x10
  | .RESUME_ADDR => 0x3000100
  | .RESUME_C => 0x3000108
  | .RESUME_Q => 0x3000110
  | .RESUME_CTRL => 0x3000118
  | .LS_CTRL => 0x3000200
  | .LS_STATUS => 0x3000208
  | .LS_FIRST => 0x3000210
  | .FENCE_STATUS => 0x3000300
  | .FENCE_EPOCH => 0x3000308
  | .FENCE_SUBMIT => 0x3000310
  | .FLT_LOG n k => 0x3001000 + n * 0x20 + k * 0x8

/-- What a register resets to and which bits of it a write changes: plain (RW, RWO), cleared by 1 (W1C), set by 1 (W1S). Where the
spec gives a bit no reset value (TS_CORR, fused fields) it stands at 0: log entries 2 and 3. -/
structure RegInfo where
  reset : Word
  rw : Word
  w1c : Word
  w1s : Word
  deriving DecidableEq, Repr

/-- Reset values and write masks, from the field tables. -/
def Reg.info : Reg → RegInfo
  | .ID_PART => ⟨0x7708, 0, 0, 0⟩
  | .ID_SERIAL => ⟨0, 0, 0, 0⟩
  | .ID_TILES _ => ⟨0, 0, 0, 0⟩
  | .ROOT_HASH _ => ⟨0, 0, 0, 0⟩
  | .BOOT_STATE => ⟨0, 0, 0x10000, 0⟩
  | .BOOT_ADDR => ⟨0, 0xffffffffff, 0, 0⟩
  | .BOOT_CTRL => ⟨0, 0xffffffff000000f7, 0, 0⟩
  | .BOOT_RESULT => ⟨0, 0, 0, 0⟩
  | .FW_INFO => ⟨0, 0, 0, 0⟩
  | .PART_STATE _ => ⟨0, 0, 0, 0⟩
  | .DEV_KEY _ => ⟨0, 0, 0, 0⟩
  | .OWN_STATUS => ⟨0, 0, 0, 0⟩
  | .OWN_CLAIM => ⟨0, 0xffffffffffffffff, 0, 0⟩
  | .OWN_REQUEST => ⟨0, 0xffffffffffffffff, 0, 0⟩
  | .OWN_HANDOVER => ⟨0, 0, 0, 0⟩
  | .OWN_LAPSE => ⟨0x7d0, 0xffff, 0, 0⟩
  | .HP_STATUS _ => ⟨0, 0, 0xf0000, 0⟩
  | .HP_COUNT _ => ⟨0, 0, 0, 0⟩
  | .APER_WIN _ => ⟨0x14, 0xfffffff0011f, 0, 0⟩
  | .MSIX_PBA _ => ⟨0, 0, 0, 0⟩
  | .MSIX_TABLE _ => ⟨0, 0xffffffffffffffff, 0, 0⟩
  | .MB_REQ _ => ⟨0, 0xffffffffffffffff, 0, 0⟩
  | .MB_RSP _ => ⟨0, 0, 0, 0⟩
  | .MB_CTRL => ⟨0, 0x1ff01ff, 0x4000000, 0⟩
  | .TEL_CFG => ⟨0x8, 0x3fffffffffff, 0, 0⟩
  | .TEL_IDX => ⟨0, 0, 0, 0⟩
  | .STW_STATUS => ⟨0, 0, 0, 0⟩
  | .INT_SRC _ => ⟨0, 0x3ff, 0x30000, 0⟩
  | .INT_PEND _ => ⟨0, 0, 0, 0⟩
  | .INT_ACT _ => ⟨0, 0, 0, 0⟩
  | .INT_SET => ⟨0, 0, 0, 0⟩
  | .CORE_THRESH _ => ⟨0, 0xf, 0, 0⟩
  | .CORE_CLAIM _ => ⟨0x400, 0, 0, 0⟩
  | .CORE_COMPLETE _ => ⟨0, 0, 0, 0⟩
  | .CORE_LEVEL _ => ⟨0, 0, 0x100, 0⟩
  | .FWD _ => ⟨0, 0x7fff3, 0, 0⟩
  | .STG_CFG => ⟨0x402, 0, 0, 0⟩
  | .STG_COUNT => ⟨0, 0, 0, 0⟩
  | .STG_STATUS => ⟨0, 0, 0x8, 0⟩
  | .HOLD_LIMIT => ⟨0x2710, 0x3fff, 0, 0⟩
  | .XING_ALARM => ⟨0, 0, 0xfffffffff, 0⟩
  | .SKEW_TRIM _ => ⟨0, 0, 0, 0⟩
  | .XING_FILL _ => ⟨0x80808, 0, 0, 0⟩
  | .RGN_BUDGET _ => ⟨0, 0xffff, 0, 0⟩
  | .RGN_TARGET _ => ⟨0x3520258076c, 0, 0, 0⟩
  | .RGN_RATE _ => ⟨0x2ee02ee, 0, 0, 0⟩
  | .RGN_PACE _ => ⟨0x10000000, 0, 0, 0⟩
  | .RGN_POWER _ => ⟨0, 0, 0, 0⟩
  | .RGN_LATE _ => ⟨0, 0, 0, 0⟩
  | .RGN_STATUS _ => ⟨0, 0, 0x2f, 0⟩
  | .FT_CTRL => ⟨0, 0x1ffff03, 0, 0⟩
  | .FT_STATUS => ⟨0, 0, 0x3c, 0⟩
  | .FT_NOW_NS => ⟨0, 0, 0, 0⟩
  | .FT_NOW_FRAC => ⟨0, 0, 0, 0⟩
  | .FT_STEP => ⟨0, 0xffffffffffffffff, 0, 0⟩
  | .FT_RATE => ⟨0, 0xffffffffff, 0, 0⟩
  | .FT_SERVO => ⟨0x897000044b83, 0xffffffffffffffff, 0, 0⟩
  | .FT_LIMITS => ⟨0xfa001f403e8, 0xffffffffffff, 0, 0⟩
  | .FT_SAMPLE => ⟨0, 0, 0, 0⟩
  | .FT_MASTER => ⟨0, 0xffffffffffffffff, 0, 0⟩
  | .FT_MASTER_PORT => ⟨0, 0xffff, 0, 0⟩
  | .FT_EPOCH => ⟨0, 0, 0, 0⟩
  | .VBL_CTRL _ => ⟨0x2, 0x7, 0, 0⟩
  | .VBL_STATUS _ => ⟨0, 0, 0x700, 0⟩
  | .VBL_TIMERS _ => ⟨0x6082000640fa0, 0x1f1fff3fffffff, 0, 0⟩
  | .VBL_SLOTS _ => ⟨0x24001402c7, 0, 0, 0⟩
  | .VBL_PATTERN0 _ => ⟨0xaaaaaaaaa8, 0, 0, 0⟩
  | .VBL_PATTERN1 _ => ⟨0, 0, 0, 0⟩
  | .VBL_TX _ => ⟨0xffff0000, 0, 0, 0⟩
  | .VBL_RX _ => ⟨0xffffffff, 0, 0, 0⟩
  | .VBL_TXCOUNT _ => ⟨0, 0, 0, 0⟩
  | .VBL_RXCOUNT _ => ⟨0, 0, 0, 0⟩
  | .VBL_ERR _ => ⟨0, 0, 0, 0⟩
  | .VBL_CATCHUP _ => ⟨0, 0, 0, 0⟩
  | .VBL_LAT _ => ⟨0, 0, 0, 0⟩
  | .VBL_PHY _ => ⟨0, 0, 0, 0⟩
  | .TS_CORR _ => ⟨0, 0, 0, 0⟩
  | .TS_TXQ_META _ => ⟨0, 0, 0x8000000000, 0⟩
  | .TS_TXQ_NS _ => ⟨0, 0, 0, 0⟩
  | .TS_COUNT _ => ⟨0, 0, 0, 0⟩
  | .ROUTE_DEST _ => ⟨0, 0xffffff, 0, 0⟩
  | .ROUTE_MC _ => ⟨0, 0x1ffff00ffffff, 0, 0⟩
  | .ROUTE_SELF => ⟨0, 0x1ffff, 0, 0⟩
  | .ROUTE_STATUS => ⟨0, 0, 0x2, 0⟩
  | .ROUTE_COUNT => ⟨0, 0, 0, 0⟩
  | .ROUTE_HASH _ => ⟨0, 0, 0, 0⟩
  | .RLY_CTRL => ⟨0x7d00000, 0xffffffffffff0003, 0, 0⟩
  | .RLY_AREA => ⟨0, 0x3fff3fff, 0, 0⟩
  | .RLY_FEED => ⟨0, 0xffffffffffffffff, 0, 0⟩
  | .RLY_FAMILY => ⟨0, 0, 0, 0⟩
  | .RLY_PROGRESS => ⟨0, 0, 0, 0⟩
  | .RLY_STATUS => ⟨0, 0, 0x38, 0⟩
  | .RLY_EXPECT => ⟨0, 0xffffffffffff, 0, 0⟩
  | .RLY_CHILD n => ⟨0, if n < 4 then 0x1ffff else 0, 0, 0⟩
  | .ADU_CTRL => ⟨0, 0xfffff7ffff7ffff, 0, 0⟩
  | .ADU_STATUS => ⟨0, 0, 0x600, 0⟩
  | .ADU_ROUND => ⟨0, 0, 0, 0⟩
  | .ADU_TEMPLATE => ⟨0, 0, 0, 0⟩
  | .ADU_COUNT => ⟨0, 0, 0, 0⟩
  | .ADU_REQ_SEL => ⟨0, 0x3ffff, 0, 0⟩
  | .ADU_REQ_VIEW _ => ⟨0, 0, 0, 0⟩
  | .ACCT_CFG _ => ⟨0x1000000000, 0xfffff1fffffffff, 0, 0⟩
  | .ACCT_BAL _ => ⟨0, 0xfffffffffff, 0, 0⟩
  | .ADU_CANCEL _ => ⟨0, 0, 0, 0xffffffffffffffff⟩
  | .KV_CFG => ⟨0, 0, 0, 0⟩
  | .KV_POOL => ⟨0, 0, 0, 0⟩
  | .SHARD_CFG => ⟨0x1, 0, 0, 0⟩
  | .WT_EVENT => ⟨0, 0, 0x7, 0⟩
  | .WS_STATE _ => ⟨0, 0, 0, 0⟩
  | .AD_STATE _ => ⟨0, 0, 0, 0⟩
  | .LP_STATE _ => ⟨0, 0, 0, 0⟩
  | .SP_STATE _ => ⟨0, 0, 0, 0⟩
  | .RING_BASE _ => ⟨0, 0xffffffffffffffff, 0, 0⟩
  | .RING_SHADOW _ => ⟨0, 0xffffffffffffffff, 0, 0⟩
  | .RING_IDX _ => ⟨0, 0, 0, 0⟩
  | .RING_CFG _ => ⟨0, 0x7ff3fff, 0, 0⟩
  | .RING_STAT _ => ⟨0, 0, 0x1000000000000, 0⟩
  | .SEQ_STATUS _ => ⟨0, 0, 0x800, 0⟩
  | .SEQ_PC _ => ⟨0x80000000, 0, 0, 0⟩
  | .SEQ_FAULT _ => ⟨0, 0, 0x1000000000000, 0⟩
  | .TALLY_LIMIT _ => ⟨0x40, 0, 0, 0⟩
  | .QUEUE_FILL _ => ⟨0, 0, 0, 0⟩
  | .SEQ_WAIT _ => ⟨0, 0, 0, 0⟩
  | .LOOP _ _ => ⟨0, 0, 0, 0⟩
  | .TALLY _ _ => ⟨0, 0xffffffff, 0, 0⟩
  | .PRED _ => ⟨0, 0, 0, 0⟩
  | .SEAT_PRED _ _ => ⟨0, 0, 0, 0⟩
  | .BANK_OWN _ _ => ⟨0x7, 0xf, 0, 0⟩
  | .SRAM_ECC _ => ⟨0, 0, 0x100000000000000, 0⟩
  | .SCAN_STATUS _ => ⟨0x20000, 0, 0, 0⟩
  | .BANK_EVENT _ => ⟨0, 0, 0x1f, 0⟩
  | .PATCH_MAP _ _ => ⟨0, 0, 0, 0x100000000⟩
  | .MXE_STATUS _ => ⟨0, 0, 0, 0⟩
  | .MXE_WORK _ => ⟨0, 0, 0, 0⟩
  | .MXE_ACC_ECC _ => ⟨0, 0, 0x1000000000000, 0⟩
  | .VEC_STATUS _ => ⟨0, 0, 0, 0⟩
  | .VEC_WORK _ => ⟨0, 0, 0, 0⟩
  | .VEC_CLASS _ => ⟨0, 0, 0, 0⟩
  | .TDMA_STATUS _ _ => ⟨0, 0, 0, 0⟩
  | .TDMA_COUNT _ _ => ⟨0, 0, 0, 0⟩
  | .TDMA_CFG _ _ => ⟨0x40, 0, 0, 0⟩
  | .DR_STATUS _ => ⟨0, 0, 0, 0⟩
  | .DR_ECC _ => ⟨0, 0, 0x1000000000000, 0⟩
  | .DR_UE_ADDR _ => ⟨0, 0, 0, 0⟩
  | .DR_FORCED _ => ⟨0, 0, 0, 0⟩
  | .DR_DEBT _ _ => ⟨0, 0, 0, 0⟩
  | .IDMA_SUM _ => ⟨0x1000000, 0, 0, 0⟩
  | .IDMA_EVENT _ => ⟨0, 0, 0x7, 0⟩
  | .IDMA_CTRL _ _ => ⟨0, 0x1ff01, 0, 0⟩
  | .IDMA_RINGS _ _ => ⟨0, 0x3ffff0003ffff, 0, 0⟩
  | .IDMA_STATUS _ _ => ⟨0, 0, 0, 0⟩
  | .IDMA_COUNT _ _ => ⟨0, 0, 0, 0⟩
  | .FLT_STATUS => ⟨0, 0, 0, 0⟩
  | .FLT_LOG_IDX => ⟨0, 0, 0, 0⟩
  | .PART_FLT _ => ⟨0, 0, 0, 0⟩
  | .PART_CMT _ => ⟨0xffffffffffffffff, 0, 0, 0⟩
  | .RESUME_ADDR => ⟨0, 0xffffffffff, 0, 0⟩
  | .RESUME_C => ⟨0, 0xffffffffffffffff, 0, 0⟩
  | .RESUME_Q => ⟨0, 0xffffffffffffffff, 0, 0⟩
  | .RESUME_CTRL => ⟨0, 0xffffffff00000087, 0x10000, 0⟩
  | .LS_CTRL => ⟨0x20, 0xf1, 0, 0⟩
  | .LS_STATUS => ⟨0, 0, 0x4, 0⟩
  | .LS_FIRST => ⟨0, 0, 0, 0⟩
  | .FENCE_STATUS => ⟨0, 0, 0, 0⟩
  | .FENCE_EPOCH => ⟨0, 0, 0, 0⟩
  | .FENCE_SUBMIT => ⟨0, 0x8007ffffffffffff, 0, 0⟩
  | .FLT_LOG _ _ => ⟨0, 0, 0, 0⟩

/-- A row of the decoder of offsets: base, two strides with their counts, and the register at a pair of indices. -/
structure RegRow where
  base : Nat
  st1 : Nat
  n1 : Nat
  st2 : Nat
  n2 : Nat
  reg : Nat → Nat → Reg

/-- The register of a row at an offset, if the offset is one of its registers. -/
def RegRow.find (r : RegRow) (o : Nat) : Option Reg :=
  let d := o - r.base
  if r.base ≤ o && d / r.st1 < r.n1 && d % r.st1 / r.st2 < r.n2 && d % r.st1 % r.st2 = 0 then
    some (r.reg (d / r.st1) (d % r.st1 / r.st2)) else none

/-- Rows of the decoder of offsets, part 0. -/
def regRows0 : List RegRow :=
  [⟨0x0, 8, 1, 8, 1, fun _ _ => .ID_PART⟩,
   ⟨0x8, 8, 1, 8, 1, fun _ _ => .ID_SERIAL⟩,
   ⟨0x40, 0x8, 8, 8, 1, fun n _ => .ID_TILES n⟩,
   ⟨0x80, 0x8, 8, 8, 1, fun n _ => .ROOT_HASH n⟩,
   ⟨0x100, 8, 1, 8, 1, fun _ _ => .BOOT_STATE⟩,
   ⟨0x108, 8, 1, 8, 1, fun _ _ => .BOOT_ADDR⟩,
   ⟨0x110, 8, 1, 8, 1, fun _ _ => .BOOT_CTRL⟩,
   ⟨0x118, 8, 1, 8, 1, fun _ _ => .BOOT_RESULT⟩,
   ⟨0x120, 8, 1, 8, 1, fun _ _ => .FW_INFO⟩,
   ⟨0x140, 0x8, 8, 8, 1, fun n _ => .PART_STATE n⟩,
   ⟨0x200, 0x8, 17, 8, 1, fun n _ => .DEV_KEY n⟩,
   ⟨0x10000, 8, 1, 8, 1, fun _ _ => .OWN_STATUS⟩,
   ⟨0x10008, 8, 1, 8, 1, fun _ _ => .OWN_CLAIM⟩,
   ⟨0x10010, 8, 1, 8, 1, fun _ _ => .OWN_REQUEST⟩,
   ⟨0x10018, 8, 1, 8, 1, fun _ _ => .OWN_HANDOVER⟩,
   ⟨0x10020, 8, 1, 8, 1, fun _ _ => .OWN_LAPSE⟩,
   ⟨0x10100, 0x100, 2, 8, 1, fun n _ => .HP_STATUS n⟩,
   ⟨0x10108, 0x100, 2, 8, 1, fun n _ => .HP_COUNT n⟩,
   ⟨0x11000, 0x8, 256, 8, 1, fun n _ => .APER_WIN n⟩,
   ⟨0x17f00, 0x8, 32, 8, 1, fun n _ => .MSIX_PBA n⟩,
   ⟨0x18000, 0x8, 4096, 8, 1, fun n _ => .MSIX_TABLE n⟩,
   ⟨0x20000, 0x8, 32, 8, 1, fun n _ => .MB_REQ n⟩,
   ⟨0x20100, 0x8, 32, 8, 1, fun n _ => .MB_RSP n⟩,
   ⟨0x20200, 8, 1, 8, 1, fun _ _ => .MB_CTRL⟩,
   ⟨0x20400, 8, 1, 8, 1, fun _ _ => .TEL_CFG⟩,
   ⟨0x20408, 8, 1, 8, 1, fun _ _ => .TEL_IDX⟩,
   ⟨0x20410, 8, 1, 8, 1, fun _ _ => .STW_STATUS⟩,
   ⟨0x100000, 0x8, 1024, 8, 1, fun n _ => .INT_SRC n⟩,
   ⟨0x102000, 0x8, 16, 8, 1, fun n _ => .INT_PEND n⟩,
   ⟨0x102080, 0x8, 16, 8, 1, fun n _ => .INT_ACT n⟩,
   ⟨0x102100, 8, 1, 8, 1, fun _ _ => .INT_SET⟩,
   ⟨0x103000, 0x20, 4, 8, 1, fun n _ => .CORE_THRESH n⟩]
/-- Rows of the decoder of offsets, part 1. -/
def regRows1 : List RegRow :=
  [⟨0x103008, 0x20, 4, 8, 1, fun n _ => .CORE_CLAIM n⟩,
   ⟨0x103010, 0x20, 4, 8, 1, fun n _ => .CORE_COMPLETE n⟩,
   ⟨0x103018, 0x20, 4, 8, 1, fun n _ => .CORE_LEVEL n⟩,
   ⟨0x104000, 0x8, 32, 8, 1, fun n _ => .FWD n⟩,
   ⟨0x200000, 8, 1, 8, 1, fun _ _ => .STG_CFG⟩,
   ⟨0x200008, 8, 1, 8, 1, fun _ _ => .STG_COUNT⟩,
   ⟨0x200010, 8, 1, 8, 1, fun _ _ => .STG_STATUS⟩,
   ⟨0x200018, 8, 1, 8, 1, fun _ _ => .HOLD_LIMIT⟩,
   ⟨0x200020, 8, 1, 8, 1, fun _ _ => .XING_ALARM⟩,
   ⟨0x200040, 0x8, 12, 8, 1, fun n _ => .SKEW_TRIM n⟩,
   ⟨0x200100, 0x8, 36, 8, 1, fun n _ => .XING_FILL n⟩,
   ⟨0x210000, 0x100, 64, 8, 1, fun n _ => .RGN_BUDGET n⟩,
   ⟨0x210008, 0x100, 64, 8, 1, fun n _ => .RGN_TARGET n⟩,
   ⟨0x210010, 0x100, 64, 8, 1, fun n _ => .RGN_RATE n⟩,
   ⟨0x210018, 0x100, 64, 8, 1, fun n _ => .RGN_PACE n⟩,
   ⟨0x210020, 0x100, 64, 8, 1, fun n _ => .RGN_POWER n⟩,
   ⟨0x210028, 0x100, 64, 8, 1, fun n _ => .RGN_LATE n⟩,
   ⟨0x210030, 0x100, 64, 8, 1, fun n _ => .RGN_STATUS n⟩,
   ⟨0x300000, 8, 1, 8, 1, fun _ _ => .FT_CTRL⟩,
   ⟨0x300008, 8, 1, 8, 1, fun _ _ => .FT_STATUS⟩,
   ⟨0x300010, 8, 1, 8, 1, fun _ _ => .FT_NOW_NS⟩,
   ⟨0x300018, 8, 1, 8, 1, fun _ _ => .FT_NOW_FRAC⟩,
   ⟨0x300020, 8, 1, 8, 1, fun _ _ => .FT_STEP⟩,
   ⟨0x300028, 8, 1, 8, 1, fun _ _ => .FT_RATE⟩,
   ⟨0x300030, 8, 1, 8, 1, fun _ _ => .FT_SERVO⟩,
   ⟨0x300038, 8, 1, 8, 1, fun _ _ => .FT_LIMITS⟩,
   ⟨0x300040, 8, 1, 8, 1, fun _ _ => .FT_SAMPLE⟩,
   ⟨0x300048, 8, 1, 8, 1, fun _ _ => .FT_MASTER⟩,
   ⟨0x300050, 8, 1, 8, 1, fun _ _ => .FT_MASTER_PORT⟩,
   ⟨0x300058, 8, 1, 8, 1, fun _ _ => .FT_EPOCH⟩,
   ⟨0x400000, 0x10000, 16, 8, 1, fun n _ => .VBL_CTRL n⟩,
   ⟨0x400008, 0x10000, 16, 8, 1, fun n _ => .VBL_STATUS n⟩]
/-- Rows of the decoder of offsets, part 2. -/
def regRows2 : List RegRow :=
  [⟨0x400010, 0x10000, 16, 8, 1, fun n _ => .VBL_TIMERS n⟩,
   ⟨0x400018, 0x10000, 16, 8, 1, fun n _ => .VBL_SLOTS n⟩,
   ⟨0x400020, 0x10000, 16, 8, 1, fun n _ => .VBL_PATTERN0 n⟩,
   ⟨0x400028, 0x10000, 16, 8, 1, fun n _ => .VBL_PATTERN1 n⟩,
   ⟨0x400030, 0x10000, 16, 8, 1, fun n _ => .VBL_TX n⟩,
   ⟨0x400038, 0x10000, 16, 8, 1, fun n _ => .VBL_RX n⟩,
   ⟨0x400040, 0x10000, 16, 8, 1, fun n _ => .VBL_TXCOUNT n⟩,
   ⟨0x400048, 0x10000, 16, 8, 1, fun n _ => .VBL_RXCOUNT n⟩,
   ⟨0x400050, 0x10000, 16, 8, 1, fun n _ => .VBL_ERR n⟩,
   ⟨0x400058, 0x10000, 16, 8, 1, fun n _ => .VBL_CATCHUP n⟩,
   ⟨0x400060, 0x10000, 16, 8, 1, fun n _ => .VBL_LAT n⟩,
   ⟨0x400068, 0x10000, 16, 8, 1, fun n _ => .VBL_PHY n⟩,
   ⟨0x400100, 0x10000, 16, 8, 1, fun n _ => .TS_CORR n⟩,
   ⟨0x400108, 0x10000, 16, 8, 1, fun n _ => .TS_TXQ_META n⟩,
   ⟨0x400110, 0x10000, 16, 8, 1, fun n _ => .TS_TXQ_NS n⟩,
   ⟨0x400118, 0x10000, 16, 8, 1, fun n _ => .TS_COUNT n⟩,
   ⟨0x800000, 0x8, 65536, 8, 1, fun n _ => .ROUTE_DEST n⟩,
   ⟨0x880000, 0x8, 4096, 8, 1, fun n _ => .ROUTE_MC n⟩,
   ⟨0x890000, 8, 1, 8, 1, fun _ _ => .ROUTE_SELF⟩,
   ⟨0x890008, 8, 1, 8, 1, fun _ _ => .ROUTE_STATUS⟩,
   ⟨0x890010, 8, 1, 8, 1, fun _ _ => .ROUTE_COUNT⟩,
   ⟨0x890040, 0x8, 8, 8, 1, fun n _ => .ROUTE_HASH n⟩,
   ⟨0x8a0000, 8, 1, 8, 1, fun _ _ => .RLY_CTRL⟩,
   ⟨0x8a0008, 8, 1, 8, 1, fun _ _ => .RLY_AREA⟩,
   ⟨0x8a0010, 8, 1, 8, 1, fun _ _ => .RLY_FEED⟩,
   ⟨0x8a0018, 8, 1, 8, 1, fun _ _ => .RLY_FAMILY⟩,
   ⟨0x8a0020, 8, 1, 8, 1, fun _ _ => .RLY_PROGRESS⟩,
   ⟨0x8a0028, 8, 1, 8, 1, fun _ _ => .RLY_STATUS⟩,
   ⟨0x8a0030, 8, 1, 8, 1, fun _ _ => .RLY_EXPECT⟩,
   ⟨0x8a0040, 0x8, 8, 8, 1, fun n _ => .RLY_CHILD n⟩,
   ⟨0xc00000, 8, 1, 8, 1, fun _ _ => .ADU_CTRL⟩,
   ⟨0xc00008, 8, 1, 8, 1, fun _ _ => .ADU_STATUS⟩]
/-- Rows of the decoder of offsets, part 3. -/
def regRows3 : List RegRow :=
  [⟨0xc00010, 8, 1, 8, 1, fun _ _ => .ADU_ROUND⟩,
   ⟨0xc00018, 8, 1, 8, 1, fun _ _ => .ADU_TEMPLATE⟩,
   ⟨0xc00020, 8, 1, 8, 1, fun _ _ => .ADU_COUNT⟩,
   ⟨0xc00028, 8, 1, 8, 1, fun _ _ => .ADU_REQ_SEL⟩,
   ⟨0xc00040, 0x8, 16, 8, 1, fun n _ => .ADU_REQ_VIEW n⟩,
   ⟨0xc10000, 0x10, 4096, 8, 1, fun n _ => .ACCT_CFG n⟩,
   ⟨0xc10008, 0x10, 4096, 8, 1, fun n _ => .ACCT_BAL n⟩,
   ⟨0xc20000, 0x8, 4096, 8, 1, fun n _ => .ADU_CANCEL n⟩,
   ⟨0xd00000, 8, 1, 8, 1, fun _ _ => .KV_CFG⟩,
   ⟨0xd00008, 8, 1, 8, 1, fun _ _ => .KV_POOL⟩,
   ⟨0xd00010, 8, 1, 8, 1, fun _ _ => .SHARD_CFG⟩,
   ⟨0xd00018, 8, 1, 8, 1, fun _ _ => .WT_EVENT⟩,
   ⟨0xd10000, 0x8, 64, 8, 1, fun n _ => .WS_STATE n⟩,
   ⟨0xd20000, 0x8, 256, 8, 1, fun n _ => .AD_STATE n⟩,
   ⟨0xd30000, 0x8, 1024, 8, 1, fun n _ => .LP_STATE n⟩,
   ⟨0xd40000, 0x8, 65536, 8, 1, fun n _ => .SP_STATE n⟩,
   ⟨0x1000000, 0x40, 262144, 8, 1, fun n _ => .RING_BASE n⟩,
   ⟨0x1000008, 0x40, 262144, 8, 1, fun n _ => .RING_SHADOW n⟩,
   ⟨0x1000010, 0x40, 262144, 8, 1, fun n _ => .RING_IDX n⟩,
   ⟨0x1000018, 0x40, 262144, 8, 1, fun n _ => .RING_CFG n⟩,
   ⟨0x1000020, 0x40, 262144, 8, 1, fun n _ => .RING_STAT n⟩,
   ⟨0x2000000, 0x4000, 512, 8, 1, fun n _ => .SEQ_STATUS n⟩,
   ⟨0x2000008, 0x4000, 512, 8, 1, fun n _ => .SEQ_PC n⟩,
   ⟨0x2000010, 0x4000, 512, 8, 1, fun n _ => .SEQ_FAULT n⟩,
   ⟨0x2000018, 0x4000, 512, 8, 1, fun n _ => .TALLY_LIMIT n⟩,
   ⟨0x2000020, 0x4000, 512, 8, 1, fun n _ => .QUEUE_FILL n⟩,
   ⟨0x2000028, 0x4000, 512, 8, 1, fun n _ => .SEQ_WAIT n⟩,
   ⟨0x2000040, 0x4000, 512, 0x8, 4, fun n k => .LOOP n k⟩,
   ⟨0x2000100, 0x4000, 512, 0x8, 64, fun n k => .TALLY n k⟩,
   ⟨0x2000300, 0x4000, 512, 8, 1, fun n _ => .PRED n⟩,
   ⟨0x2000400, 0x4000, 512, 0x8, 128, fun n k => .SEAT_PRED n k⟩,
   ⟨0x2003000, 0x4000, 512, 0x8, 72, fun n k => .BANK_OWN n k⟩]
/-- Rows of the decoder of offsets, part 4. -/
def regRows4 : List RegRow :=
  [⟨0x2003300, 0x4000, 512, 8, 1, fun n _ => .SRAM_ECC n⟩,
   ⟨0x2003308, 0x4000, 512, 8, 1, fun n _ => .SCAN_STATUS n⟩,
   ⟨0x2003310, 0x4000, 512, 8, 1, fun n _ => .BANK_EVENT n⟩,
   ⟨0x2003340, 0x4000, 512, 0x8, 16, fun n k => .PATCH_MAP n k⟩,
   ⟨0x2003400, 0x4000, 512, 8, 1, fun n _ => .MXE_STATUS n⟩,
   ⟨0x2003408, 0x4000, 512, 8, 1, fun n _ => .MXE_WORK n⟩,
   ⟨0x2003410, 0x4000, 512, 8, 1, fun n _ => .MXE_ACC_ECC n⟩,
   ⟨0x2003420, 0x4000, 512, 8, 1, fun n _ => .VEC_STATUS n⟩,
   ⟨0x2003428, 0x4000, 512, 8, 1, fun n _ => .VEC_WORK n⟩,
   ⟨0x2003430, 0x4000, 512, 8, 1, fun n _ => .VEC_CLASS n⟩,
   ⟨0x2003440, 0x4000, 512, 0x20, 4, fun n k => .TDMA_STATUS n k⟩,
   ⟨0x2003448, 0x4000, 512, 0x20, 4, fun n k => .TDMA_COUNT n k⟩,
   ⟨0x2003450, 0x4000, 512, 0x20, 4, fun n k => .TDMA_CFG n k⟩,
   ⟨0x2800000, 0x10000, 4, 8, 1, fun n _ => .DR_STATUS n⟩,
   ⟨0x2800008, 0x10000, 4, 8, 1, fun n _ => .DR_ECC n⟩,
   ⟨0x2800010, 0x10000, 4, 8, 1, fun n _ => .DR_UE_ADDR n⟩,
   ⟨0x2800018, 0x10000, 4, 8, 1, fun n _ => .DR_FORCED n⟩,
   ⟨0x2800040, 0x10000, 4, 0x8, 16, fun n k => .DR_DEBT n k⟩,
   ⟨0x2c00000, 0x10000, 4, 8, 1, fun n _ => .IDMA_SUM n⟩,
   ⟨0x2c00008, 0x10000, 4, 8, 1, fun n _ => .IDMA_EVENT n⟩,
   ⟨0x2c00100, 0x10000, 4, 0x40, 32, fun n k => .IDMA_CTRL n k⟩,
   ⟨0x2c00108, 0x10000, 4, 0x40, 32, fun n k => .IDMA_RINGS n k⟩,
   ⟨0x2c00110, 0x10000, 4, 0x40, 32, fun n k => .IDMA_STATUS n k⟩,
   ⟨0x2c00118, 0x10000, 4, 0x40, 32, fun n k => .IDMA_COUNT n k⟩,
   ⟨0x3000000, 8, 1, 8, 1, fun _ _ => .FLT_STATUS⟩,
   ⟨0x3000008, 8, 1, 8, 1, fun _ _ => .FLT_LOG_IDX⟩,
   ⟨0x3000040, 0x10, 8, 8, 1, fun n _ => .PART_FLT n⟩,
   ⟨0x3000048, 0x10, 8, 8, 1, fun n _ => .PART_CMT n⟩,
   ⟨0x3000100, 8, 1, 8, 1, fun _ _ => .RESUME_ADDR⟩,
   ⟨0x3000108, 8, 1, 8, 1, fun _ _ => .RESUME_C⟩,
   ⟨0x3000110, 8, 1, 8, 1, fun _ _ => .RESUME_Q⟩,
   ⟨0x3000118, 8, 1, 8, 1, fun _ _ => .RESUME_CTRL⟩]
/-- Rows of the decoder of offsets, part 5. -/
def regRows5 : List RegRow :=
  [⟨0x3000200, 8, 1, 8, 1, fun _ _ => .LS_CTRL⟩,
   ⟨0x3000208, 8, 1, 8, 1, fun _ _ => .LS_STATUS⟩,
   ⟨0x3000210, 8, 1, 8, 1, fun _ _ => .LS_FIRST⟩,
   ⟨0x3000300, 8, 1, 8, 1, fun _ _ => .FENCE_STATUS⟩,
   ⟨0x3000308, 8, 1, 8, 1, fun _ _ => .FENCE_EPOCH⟩,
   ⟨0x3000310, 8, 1, 8, 1, fun _ _ => .FENCE_SUBMIT⟩,
   ⟨0x3001000, 0x20, 256, 0x8, 4, fun n k => .FLT_LOG n k⟩]
/-- The register at a BAR0 offset, or none where the offset is unassigned or reserved (R9). -/
def Reg.ofOff (o : Nat) : Option Reg := (regRows0 ++ regRows1 ++ regRows2 ++ regRows3 ++ regRows4 ++ regRows5).findSome? (·.find o)

/-! The fields, named register.field. -/

/-- ID_PART.PART -/
abbrev ID_PART.PART : Fld := ⟨0, 16⟩
/-- ID_PART.GRADE -/
abbrev ID_PART.GRADE : Fld := ⟨16, 4⟩
/-- ID_PART.SI_REV -/
abbrev ID_PART.SI_REV : Fld := ⟨20, 8⟩
/-- ID_PART.PORTS -/
abbrev ID_PART.PORTS : Fld := ⟨32, 16⟩
/-- ID_PART.TILES -/
abbrev ID_PART.TILES : Fld := ⟨48, 10⟩
/-- ID_SERIAL.SERIAL -/
abbrev ID_SERIAL.SERIAL : Fld := ⟨0, 64⟩
/-- ID_TILES.PRESENT -/
abbrev ID_TILES.PRESENT : Fld := ⟨0, 64⟩
/-- ROOT_HASH.BYTES -/
abbrev ROOT_HASH.BYTES : Fld := ⟨0, 64⟩
/-- BOOT_STATE.STATE -/
abbrev BOOT_STATE.STATE : Fld := ⟨0, 3⟩
/-- BOOT_STATE.CAUSE -/
abbrev BOOT_STATE.CAUSE : Fld := ⟨8, 8⟩
/-- BOOT_STATE.LOAD_REJ -/
abbrev BOOT_STATE.LOAD_REJ : Fld := ⟨16, 1⟩
/-- BOOT_STATE.CAL_MS -/
abbrev BOOT_STATE.CAL_MS : Fld := ⟨32, 32⟩
/-- BOOT_ADDR.OFFSET -/
abbrev BOOT_ADDR.OFFSET : Fld := ⟨0, 40⟩
/-- BOOT_CTRL.KIND -/
abbrev BOOT_CTRL.KIND : Fld := ⟨0, 3⟩
/-- BOOT_CTRL.PARTITION -/
abbrev BOOT_CTRL.PARTITION : Fld := ⟨4, 3⟩
/-- BOOT_CTRL.GO -/
abbrev BOOT_CTRL.GO : Fld := ⟨7, 1⟩
/-- BOOT_CTRL.LENGTH -/
abbrev BOOT_CTRL.LENGTH : Fld := ⟨32, 32⟩
/-- BOOT_RESULT.STATUS -/
abbrev BOOT_RESULT.STATUS : Fld := ⟨0, 8⟩
/-- BOOT_RESULT.KIND -/
abbrev BOOT_RESULT.KIND : Fld := ⟨8, 3⟩
/-- BOOT_RESULT.PARTITION -/
abbrev BOOT_RESULT.PARTITION : Fld := ⟨11, 3⟩
/-- BOOT_RESULT.SECTION -/
abbrev BOOT_RESULT.SECTION : Fld := ⟨16, 16⟩
/-- BOOT_RESULT.DETAIL -/
abbrev BOOT_RESULT.DETAIL : Fld := ⟨32, 32⟩
/-- FW_INFO.SVN -/
abbrev FW_INFO.SVN : Fld := ⟨0, 32⟩
/-- FW_INFO.MIN_SVN -/
abbrev FW_INFO.MIN_SVN : Fld := ⟨32, 32⟩
/-- PART_STATE.STATE -/
abbrev PART_STATE.STATE : Fld := ⟨0, 2⟩
/-- PART_STATE.DEFINED -/
abbrev PART_STATE.DEFINED : Fld := ⟨2, 1⟩
/-- PART_STATE.SERVING -/
abbrev PART_STATE.SERVING : Fld := ⟨3, 1⟩
/-- PART_STATE.HORIZON -/
abbrev PART_STATE.HORIZON : Fld := ⟨8, 4⟩
/-- DEV_KEY.BYTES -/
abbrev DEV_KEY.BYTES : Fld := ⟨0, 64⟩
/-- OWN_STATUS.OWNED -/
abbrev OWN_STATUS.OWNED : Fld := ⟨0, 1⟩
/-- OWN_STATUS.OWNER -/
abbrev OWN_STATUS.OWNER : Fld := ⟨1, 1⟩
/-- OWN_STATUS.SELF -/
abbrev OWN_STATUS.SELF : Fld := ⟨2, 1⟩
/-- OWN_STATUS.IS_OWNER -/
abbrev OWN_STATUS.IS_OWNER : Fld := ⟨3, 1⟩
/-- OWN_STATUS.REQ -/
abbrev OWN_STATUS.REQ : Fld := ⟨4, 1⟩
/-- OWN_STATUS.HAND_REJ -/
abbrev OWN_STATUS.HAND_REJ : Fld := ⟨5, 1⟩
/-- OWN_STATUS.LAPSE_LEFT_MS -/
abbrev OWN_STATUS.LAPSE_LEFT_MS : Fld := ⟨16, 16⟩
/-- OWN_STATUS.CHANGES -/
abbrev OWN_STATUS.CHANGES : Fld := ⟨32, 32⟩
/-- OWN_CLAIM.NONCE -/
abbrev OWN_CLAIM.NONCE : Fld := ⟨0, 64⟩
/-- OWN_REQUEST.NONCE -/
abbrev OWN_REQUEST.NONCE : Fld := ⟨0, 64⟩
/-- OWN_HANDOVER.TO -/
abbrev OWN_HANDOVER.TO : Fld := ⟨0, 1⟩
/-- OWN_LAPSE.LAPSE_MS -/
abbrev OWN_LAPSE.LAPSE_MS : Fld := ⟨0, 16⟩
/-- HP_STATUS.LINK_UP -/
abbrev HP_STATUS.LINK_UP : Fld := ⟨0, 1⟩
/-- HP_STATUS.SPEED -/
abbrev HP_STATUS.SPEED : Fld := ⟨1, 3⟩
/-- HP_STATUS.WIDTH -/
abbrev HP_STATUS.WIDTH : Fld := ⟨4, 4⟩
/-- HP_STATUS.ACTIVE -/
abbrev HP_STATUS.ACTIVE : Fld := ⟨8, 4⟩
/-- HP_STATUS.LINK_DOWN -/
abbrev HP_STATUS.LINK_DOWN : Fld := ⟨16, 1⟩
/-- HP_STATUS.DISCARD -/
abbrev HP_STATUS.DISCARD : Fld := ⟨17, 1⟩
/-- HP_STATUS.APER -/
abbrev HP_STATUS.APER : Fld := ⟨18, 1⟩
/-- HP_STATUS.LAPSED -/
abbrev HP_STATUS.LAPSED : Fld := ⟨19, 1⟩
/-- HP_COUNT.DISCARDS -/
abbrev HP_COUNT.DISCARDS : Fld := ⟨0, 32⟩
/-- HP_COUNT.APER_REJ -/
abbrev HP_COUNT.APER_REJ : Fld := ⟨32, 16⟩
/-- HP_COUNT.MSI_DROP -/
abbrev HP_COUNT.MSI_DROP : Fld := ⟨48, 16⟩
/-- APER_WIN.SIZE_LOG2 -/
abbrev APER_WIN.SIZE_LOG2 : Fld := ⟨0, 5⟩
/-- APER_WIN.ENABLE -/
abbrev APER_WIN.ENABLE : Fld := ⟨8, 1⟩
/-- APER_WIN.BASE -/
abbrev APER_WIN.BASE : Fld := ⟨20, 28⟩
/-- MSIX_PBA.PENDING -/
abbrev MSIX_PBA.PENDING : Fld := ⟨0, 64⟩
/-- MSIX_TABLE.WORD -/
abbrev MSIX_TABLE.WORD : Fld := ⟨0, 64⟩
/-- MB_REQ.BYTES -/
abbrev MB_REQ.BYTES : Fld := ⟨0, 64⟩
/-- MB_RSP.BYTES -/
abbrev MB_RSP.BYTES : Fld := ⟨0, 64⟩
/-- MB_CTRL.LEN -/
abbrev MB_CTRL.LEN : Fld := ⟨0, 9⟩
/-- MB_CTRL.TAG -/
abbrev MB_CTRL.TAG : Fld := ⟨16, 8⟩
/-- MB_CTRL.GO -/
abbrev MB_CTRL.GO : Fld := ⟨24, 1⟩
/-- MB_CTRL.BUSY -/
abbrev MB_CTRL.BUSY : Fld := ⟨25, 1⟩
/-- MB_CTRL.MB_REJ -/
abbrev MB_CTRL.MB_REJ : Fld := ⟨26, 1⟩
/-- MB_CTRL.RSP_LEN -/
abbrev MB_CTRL.RSP_LEN : Fld := ⟨32, 9⟩
/-- MB_CTRL.RSP_TAG -/
abbrev MB_CTRL.RSP_TAG : Fld := ⟨48, 8⟩
/-- TEL_CFG.TLOG2 -/
abbrev TEL_CFG.TLOG2 : Fld := ⟨0, 5⟩
/-- TEL_CFG.TEL_LOG2 -/
abbrev TEL_CFG.TEL_LOG2 : Fld := ⟨5, 5⟩
/-- TEL_CFG.TEL_BASE -/
abbrev TEL_CFG.TEL_BASE : Fld := ⟨10, 36⟩
/-- TEL_CFG.LOST -/
abbrev TEL_CFG.LOST : Fld := ⟨46, 18⟩
/-- TEL_IDX.COUNT -/
abbrev TEL_IDX.COUNT : Fld := ⟨0, 64⟩
/-- STW_STATUS.RUNNING -/
abbrev STW_STATUS.RUNNING : Fld := ⟨0, 4⟩
/-- STW_STATUS.CE_COUNT -/
abbrev STW_STATUS.CE_COUNT : Fld := ⟨32, 32⟩
/-- INT_SRC.PRIO -/
abbrev INT_SRC.PRIO : Fld := ⟨0, 4⟩
/-- INT_SRC.TARGET -/
abbrev INT_SRC.TARGET : Fld := ⟨4, 6⟩
/-- INT_SRC.PEND -/
abbrev INT_SRC.PEND : Fld := ⟨16, 1⟩
/-- INT_SRC.ACTIVE -/
abbrev INT_SRC.ACTIVE : Fld := ⟨17, 1⟩
/-- INT_SRC.LINE -/
abbrev INT_SRC.LINE : Fld := ⟨18, 1⟩
/-- INT_SRC.REENTERED -/
abbrev INT_SRC.REENTERED : Fld := ⟨19, 1⟩
/-- INT_SRC.EDGES -/
abbrev INT_SRC.EDGES : Fld := ⟨32, 32⟩
/-- INT_PEND.PEND -/
abbrev INT_PEND.PEND : Fld := ⟨0, 64⟩
/-- INT_ACT.ACT -/
abbrev INT_ACT.ACT : Fld := ⟨0, 64⟩
/-- INT_SET.SOURCE -/
abbrev INT_SET.SOURCE : Fld := ⟨0, 10⟩
/-- CORE_THRESH.THRESH -/
abbrev CORE_THRESH.THRESH : Fld := ⟨0, 4⟩
/-- CORE_CLAIM.SOURCE -/
abbrev CORE_CLAIM.SOURCE : Fld := ⟨0, 10⟩
/-- CORE_CLAIM.NONE -/
abbrev CORE_CLAIM.NONE : Fld := ⟨10, 1⟩
/-- CORE_COMPLETE.SOURCE -/
abbrev CORE_COMPLETE.SOURCE : Fld := ⟨0, 10⟩
/-- CORE_LEVEL.LEVEL -/
abbrev CORE_LEVEL.LEVEL : Fld := ⟨0, 4⟩
/-- CORE_LEVEL.DEPTH -/
abbrev CORE_LEVEL.DEPTH : Fld := ⟨4, 4⟩
/-- CORE_LEVEL.COMP_REJ -/
abbrev CORE_LEVEL.COMP_REJ : Fld := ⟨8, 1⟩
/-- FWD.ENABLE -/
abbrev FWD.ENABLE : Fld := ⟨0, 1⟩
/-- FWD.PORT -/
abbrev FWD.PORT : Fld := ⟨1, 1⟩
/-- FWD.THRESH -/
abbrev FWD.THRESH : Fld := ⟨4, 4⟩
/-- FWD.VECTOR -/
abbrev FWD.VECTOR : Fld := ⟨8, 11⟩
/-- FWD.SENT -/
abbrev FWD.SENT : Fld := ⟨32, 32⟩
/-- STG_CFG.LEN -/
abbrev STG_CFG.LEN : Fld := ⟨0, 3⟩
/-- STG_CFG.HORIZON -/
abbrev STG_CFG.HORIZON : Fld := ⟨8, 4⟩
/-- STG_CFG.PHASE_NS -/
abbrev STG_CFG.PHASE_NS : Fld := ⟨16, 32⟩
/-- STG_COUNT.COUNT -/
abbrev STG_COUNT.COUNT : Fld := ⟨0, 64⟩
/-- STG_STATUS.FREF_OK -/
abbrev STG_STATUS.FREF_OK : Fld := ⟨0, 1⟩
/-- STG_STATUS.SYNC_OK -/
abbrev STG_STATUS.SYNC_OK : Fld := ⟨1, 1⟩
/-- STG_STATUS.HOLDOVER -/
abbrev STG_STATUS.HOLDOVER : Fld := ⟨2, 1⟩
/-- STG_STATUS.REF_LOSS -/
abbrev STG_STATUS.REF_LOSS : Fld := ⟨3, 1⟩
/-- STG_STATUS.HOLD_US -/
abbrev STG_STATUS.HOLD_US : Fld := ⟨32, 24⟩
/-- HOLD_LIMIT.LIMIT_US -/
abbrev HOLD_LIMIT.LIMIT_US : Fld := ⟨0, 14⟩
/-- XING_ALARM.ALARM -/
abbrev XING_ALARM.ALARM : Fld := ⟨0, 36⟩
/-- SKEW_TRIM.TRIM_PS -/
abbrev SKEW_TRIM.TRIM_PS : Fld := ⟨0, 16⟩
/-- XING_FILL.FILL -/
abbrev XING_FILL.FILL : Fld := ⟨0, 5⟩
/-- XING_FILL.MIN -/
abbrev XING_FILL.MIN : Fld := ⟨8, 5⟩
/-- XING_FILL.MAX -/
abbrev XING_FILL.MAX : Fld := ⟨16, 5⟩
/-- XING_FILL.LAT_NS -/
abbrev XING_FILL.LAT_NS : Fld := ⟨32, 16⟩
/-- RGN_BUDGET.WATTS -/
abbrev RGN_BUDGET.WATTS : Fld := ⟨0, 16⟩
/-- RGN_TARGET.PACE -/
abbrev RGN_TARGET.PACE : Fld := ⟨0, 16⟩
/-- RGN_TARGET.VMIN -/
abbrev RGN_TARGET.VMIN : Fld := ⟨16, 16⟩
/-- RGN_TARGET.VMAX -/
abbrev RGN_TARGET.VMAX : Fld := ⟨32, 16⟩
/-- RGN_RATE.V_NOW -/
abbrev RGN_RATE.V_NOW : Fld := ⟨0, 16⟩
/-- RGN_RATE.V_GOAL -/
abbrev RGN_RATE.V_GOAL : Fld := ⟨16, 16⟩
/-- RGN_RATE.CHANGES -/
abbrev RGN_RATE.CHANGES : Fld := ⟨32, 32⟩
/-- RGN_PACE.PACE -/
abbrev RGN_PACE.PACE : Fld := ⟨0, 16⟩
/-- RGN_PACE.CAL -/
abbrev RGN_PACE.CAL : Fld := ⟨16, 16⟩
/-- RGN_PACE.CAL_COUNT -/
abbrev RGN_PACE.CAL_COUNT : Fld := ⟨32, 32⟩
/-- RGN_POWER.WATTS -/
abbrev RGN_POWER.WATTS : Fld := ⟨0, 16⟩
/-- RGN_POWER.EXCESS_RUN -/
abbrev RGN_POWER.EXCESS_RUN : Fld := ⟨16, 8⟩
/-- RGN_LATE.LATE_NS -/
abbrev RGN_LATE.LATE_NS : Fld := ⟨0, 20⟩
/-- RGN_LATE.STAGES -/
abbrev RGN_LATE.STAGES : Fld := ⟨20, 4⟩
/-- RGN_LATE.MAX_NS -/
abbrev RGN_LATE.MAX_NS : Fld := ⟨32, 20⟩
/-- RGN_STATUS.OVERSTAY -/
abbrev RGN_STATUS.OVERSTAY : Fld := ⟨0, 1⟩
/-- RGN_STATUS.POWER -/
abbrev RGN_STATUS.POWER : Fld := ⟨1, 1⟩
/-- RGN_STATUS.POWER_ABORT -/
abbrev RGN_STATUS.POWER_ABORT : Fld := ⟨2, 1⟩
/-- RGN_STATUS.RATE_DEFER -/
abbrev RGN_STATUS.RATE_DEFER : Fld := ⟨3, 1⟩
/-- RGN_STATUS.CAL_STALE -/
abbrev RGN_STATUS.CAL_STALE : Fld := ⟨4, 1⟩
/-- RGN_STATUS.BUDGET_REJ -/
abbrev RGN_STATUS.BUDGET_REJ : Fld := ⟨5, 1⟩
/-- FT_CTRL.CLIENT_EN -/
abbrev FT_CTRL.CLIENT_EN : Fld := ⟨0, 1⟩
/-- FT_CTRL.RESET_TIME -/
abbrev FT_CTRL.RESET_TIME : Fld := ⟨1, 1⟩
/-- FT_CTRL.DOMAIN -/
abbrev FT_CTRL.DOMAIN : Fld := ⟨8, 8⟩
/-- FT_CTRL.PORT -/
abbrev FT_CTRL.PORT : Fld := ⟨16, 4⟩
/-- FT_CTRL.BACKUP -/
abbrev FT_CTRL.BACKUP : Fld := ⟨20, 4⟩
/-- FT_CTRL.BACKUP_VALID -/
abbrev FT_CTRL.BACKUP_VALID : Fld := ⟨24, 1⟩
/-- FT_STATUS.TIME_SET -/
abbrev FT_STATUS.TIME_SET : Fld := ⟨0, 1⟩
/-- FT_STATUS.MODE -/
abbrev FT_STATUS.MODE : Fld := ⟨1, 1⟩
/-- FT_STATUS.TIME_JUMP -/
abbrev FT_STATUS.TIME_JUMP : Fld := ⟨2, 1⟩
/-- FT_STATUS.SERVO_TAKE -/
abbrev FT_STATUS.SERVO_TAKE : Fld := ⟨3, 1⟩
/-- FT_STATUS.STEP_REJ -/
abbrev FT_STATUS.STEP_REJ : Fld := ⟨4, 1⟩
/-- FT_STATUS.RATE_REJ -/
abbrev FT_STATUS.RATE_REJ : Fld := ⟨5, 1⟩
/-- FT_STATUS.ON_BACKUP -/
abbrev FT_STATUS.ON_BACKUP : Fld := ⟨6, 1⟩
/-- FT_STATUS.REFUSED_COUNT -/
abbrev FT_STATUS.REFUSED_COUNT : Fld := ⟨32, 32⟩
/-- FT_NOW_NS.NS -/
abbrev FT_NOW_NS.NS : Fld := ⟨0, 64⟩
/-- FT_NOW_FRAC.FRAC -/
abbrev FT_NOW_FRAC.FRAC : Fld := ⟨0, 32⟩
/-- FT_STEP.STEP_NS -/
abbrev FT_STEP.STEP_NS : Fld := ⟨0, 64⟩
/-- FT_RATE.RATE -/
abbrev FT_RATE.RATE : Fld := ⟨0, 40⟩
/-- FT_SERVO.KP -/
abbrev FT_SERVO.KP : Fld := ⟨0, 32⟩
/-- FT_SERVO.KI -/
abbrev FT_SERVO.KI : Fld := ⟨32, 32⟩
/-- FT_LIMITS.JUMP_NS -/
abbrev FT_LIMITS.JUMP_NS : Fld := ⟨0, 16⟩
/-- FT_LIMITS.WDOG_MS -/
abbrev FT_LIMITS.WDOG_MS : Fld := ⟨16, 16⟩
/-- FT_LIMITS.SYNC_TO_US -/
abbrev FT_LIMITS.SYNC_TO_US : Fld := ⟨32, 16⟩
/-- FT_SAMPLE.OFFSET_PS -/
abbrev FT_SAMPLE.OFFSET_PS : Fld := ⟨0, 32⟩
/-- FT_SAMPLE.REFUSED -/
abbrev FT_SAMPLE.REFUSED : Fld := ⟨32, 1⟩
/-- FT_SAMPLE.PATH_NS -/
abbrev FT_SAMPLE.PATH_NS : Fld := ⟨48, 16⟩
/-- FT_MASTER.CLOCK_ID -/
abbrev FT_MASTER.CLOCK_ID : Fld := ⟨0, 64⟩
/-- FT_MASTER_PORT.PORT_NUM -/
abbrev FT_MASTER_PORT.PORT_NUM : Fld := ⟨0, 16⟩
/-- FT_EPOCH.EPOCH_NS -/
abbrev FT_EPOCH.EPOCH_NS : Fld := ⟨0, 64⟩
/-- VBL_CTRL.ENABLE -/
abbrev VBL_CTRL.ENABLE : Fld := ⟨0, 1⟩
/-- VBL_CTRL.AUTO_RETRAIN -/
abbrev VBL_CTRL.AUTO_RETRAIN : Fld := ⟨1, 1⟩
/-- VBL_CTRL.LOOPBACK -/
abbrev VBL_CTRL.LOOPBACK : Fld := ⟨2, 1⟩
/-- VBL_STATUS.STATE -/
abbrev VBL_STATUS.STATE : Fld := ⟨0, 3⟩
/-- VBL_STATUS.LANE_LOCK -/
abbrev VBL_STATUS.LANE_LOCK : Fld := ⟨3, 4⟩
/-- VBL_STATUS.STALL -/
abbrev VBL_STATUS.STALL : Fld := ⟨7, 1⟩
/-- VBL_STATUS.BROKE_CREDIT -/
abbrev VBL_STATUS.BROKE_CREDIT : Fld := ⟨8, 1⟩
/-- VBL_STATUS.BROKE_REPLAY -/
abbrev VBL_STATUS.BROKE_REPLAY : Fld := ⟨9, 1⟩
/-- VBL_STATUS.LAT_DRIFT -/
abbrev VBL_STATUS.LAT_DRIFT : Fld := ⟨10, 1⟩
/-- VBL_STATUS.EPOCH -/
abbrev VBL_STATUS.EPOCH : Fld := ⟨16, 16⟩
/-- VBL_STATUS.BREAKS -/
abbrev VBL_STATUS.BREAKS : Fld := ⟨32, 32⟩
/-- VBL_TIMERS.REPLAY_NS -/
abbrev VBL_TIMERS.REPLAY_NS : Fld := ⟨0, 16⟩
/-- VBL_TIMERS.CREDIT_US -/
abbrev VBL_TIMERS.CREDIT_US : Fld := ⟨16, 14⟩
/-- VBL_TIMERS.DRIFT_NS -/
abbrev VBL_TIMERS.DRIFT_NS : Fld := ⟨32, 8⟩
/-- VBL_TIMERS.PROBE_LOG2 -/
abbrev VBL_TIMERS.PROBE_LOG2 : Fld := ⟨40, 5⟩
/-- VBL_TIMERS.CAL_LOG2 -/
abbrev VBL_TIMERS.CAL_LOG2 : Fld := ⟨48, 5⟩
/-- VBL_SLOTS.S -/
abbrev VBL_SLOTS.S : Fld := ⟨0, 12⟩
/-- VBL_SLOTS.PLEN -/
abbrev VBL_SLOTS.PLEN : Fld := ⟨16, 7⟩
/-- VBL_SLOTS.REPAIR -/
abbrev VBL_SLOTS.REPAIR : Fld := ⟨32, 12⟩
/-- VBL_SLOTS.CATCHUP -/
abbrev VBL_SLOTS.CATCHUP : Fld := ⟨44, 12⟩
/-- VBL_PATTERN0.CLASS -/
abbrev VBL_PATTERN0.CLASS : Fld := ⟨0, 64⟩
/-- VBL_PATTERN1.CLASS -/
abbrev VBL_PATTERN1.CLASS : Fld := ⟨0, 64⟩
/-- VBL_TX.NEXT -/
abbrev VBL_TX.NEXT : Fld := ⟨0, 16⟩
/-- VBL_TX.CRED -/
abbrev VBL_TX.CRED : Fld := ⟨16, 16⟩
/-- VBL_TX.OUTSTANDING -/
abbrev VBL_TX.OUTSTANDING : Fld := ⟨32, 15⟩
/-- VBL_TX.MAX_RETX -/
abbrev VBL_TX.MAX_RETX : Fld := ⟨48, 4⟩
/-- VBL_RX.CONSUMED -/
abbrev VBL_RX.CONSUMED : Fld := ⟨0, 16⟩
/-- VBL_RX.HIGH -/
abbrev VBL_RX.HIGH : Fld := ⟨16, 16⟩
/-- VBL_RX.HELD -/
abbrev VBL_RX.HELD : Fld := ⟨32, 15⟩
/-- VBL_TXCOUNT.DATA -/
abbrev VBL_TXCOUNT.DATA : Fld := ⟨0, 32⟩
/-- VBL_TXCOUNT.RETX -/
abbrev VBL_TXCOUNT.RETX : Fld := ⟨32, 32⟩
/-- VBL_RXCOUNT.GOOD -/
abbrev VBL_RXCOUNT.GOOD : Fld := ⟨0, 32⟩
/-- VBL_RXCOUNT.CRC_BAD -/
abbrev VBL_RXCOUNT.CRC_BAD : Fld := ⟨32, 32⟩
/-- VBL_ERR.DUP -/
abbrev VBL_ERR.DUP : Fld := ⟨0, 16⟩
/-- VBL_ERR.SEQ_ERR -/
abbrev VBL_ERR.SEQ_ERR : Fld := ⟨16, 16⟩
/-- VBL_ERR.CTRL_RANGE -/
abbrev VBL_ERR.CTRL_RANGE : Fld := ⟨32, 16⟩
/-- VBL_ERR.KIND_BAD -/
abbrev VBL_ERR.KIND_BAD : Fld := ⟨48, 16⟩
/-- VBL_CATCHUP.WAITING -/
abbrev VBL_CATCHUP.WAITING : Fld := ⟨0, 32⟩
/-- VBL_CATCHUP.MAX -/
abbrev VBL_CATCHUP.MAX : Fld := ⟨32, 32⟩
/-- VBL_LAT.ONE_WAY_NS -/
abbrev VBL_LAT.ONE_WAY_NS : Fld := ⟨0, 16⟩
/-- VBL_LAT.PLAN_NS -/
abbrev VBL_LAT.PLAN_NS : Fld := ⟨16, 16⟩
/-- VBL_LAT.PROBES -/
abbrev VBL_LAT.PROBES : Fld := ⟨32, 32⟩
/-- VBL_PHY.FEC_CORR -/
abbrev VBL_PHY.FEC_CORR : Fld := ⟨0, 32⟩
/-- VBL_PHY.FEC_UNCORR -/
abbrev VBL_PHY.FEC_UNCORR : Fld := ⟨32, 16⟩
/-- VBL_PHY.CAL_ERR -/
abbrev VBL_PHY.CAL_ERR : Fld := ⟨48, 16⟩
/-- TS_CORR.EGRESS_PS -/
abbrev TS_CORR.EGRESS_PS : Fld := ⟨0, 16⟩
/-- TS_CORR.INGRESS_PS -/
abbrev TS_CORR.INGRESS_PS : Fld := ⟨16, 16⟩
/-- TS_TXQ_META.ID -/
abbrev TS_TXQ_META.ID : Fld := ⟨0, 16⟩
/-- TS_TXQ_META.FRAC -/
abbrev TS_TXQ_META.FRAC : Fld := ⟨16, 16⟩
/-- TS_TXQ_META.FILL -/
abbrev TS_TXQ_META.FILL : Fld := ⟨32, 7⟩
/-- TS_TXQ_META.TXQ_OVF -/
abbrev TS_TXQ_META.TXQ_OVF : Fld := ⟨39, 1⟩
/-- TS_TXQ_NS.NS -/
abbrev TS_TXQ_NS.NS : Fld := ⟨0, 64⟩
/-- TS_COUNT.RX -/
abbrev TS_COUNT.RX : Fld := ⟨0, 32⟩
/-- TS_COUNT.TX -/
abbrev TS_COUNT.TX : Fld := ⟨32, 32⟩
/-- ROUTE_DEST.PORT -/
abbrev ROUTE_DEST.PORT : Fld := ⟨0, 4⟩
/-- ROUTE_DEST.ALT -/
abbrev ROUTE_DEST.ALT : Fld := ⟨4, 4⟩
/-- ROUTE_DEST.VALID -/
abbrev ROUTE_DEST.VALID : Fld := ⟨8, 1⟩
/-- ROUTE_DEST.ALT_VALID -/
abbrev ROUTE_DEST.ALT_VALID : Fld := ⟨9, 1⟩
/-- ROUTE_DEST.KIND -/
abbrev ROUTE_DEST.KIND : Fld := ⟨10, 2⟩
/-- ROUTE_DEST.GROUP -/
abbrev ROUTE_DEST.GROUP : Fld := ⟨12, 12⟩
/-- ROUTE_MC.PORTS -/
abbrev ROUTE_MC.PORTS : Fld := ⟨0, 16⟩
/-- ROUTE_MC.DIES -/
abbrev ROUTE_MC.DIES : Fld := ⟨16, 8⟩
/-- ROUTE_MC.COPIES -/
abbrev ROUTE_MC.COPIES : Fld := ⟨32, 16⟩
/-- ROUTE_MC.VALID -/
abbrev ROUTE_MC.VALID : Fld := ⟨48, 1⟩
/-- ROUTE_SELF.MODULE -/
abbrev ROUTE_SELF.MODULE : Fld := ⟨0, 16⟩
/-- ROUTE_SELF.SELF_VALID -/
abbrev ROUTE_SELF.SELF_VALID : Fld := ⟨16, 1⟩
/-- ROUTE_STATUS.HASH_VALID -/
abbrev ROUTE_STATUS.HASH_VALID : Fld := ⟨0, 1⟩
/-- ROUTE_STATUS.ROUTE_REJ -/
abbrev ROUTE_STATUS.ROUTE_REJ : Fld := ⟨1, 1⟩
/-- ROUTE_COUNT.FOREIGN -/
abbrev ROUTE_COUNT.FOREIGN : Fld := ⟨0, 16⟩
/-- ROUTE_COUNT.NOROUTE -/
abbrev ROUTE_COUNT.NOROUTE : Fld := ⟨16, 16⟩
/-- ROUTE_COUNT.ALT_PACKETS -/
abbrev ROUTE_COUNT.ALT_PACKETS : Fld := ⟨32, 16⟩
/-- ROUTE_COUNT.MC_SKIP -/
abbrev ROUTE_COUNT.MC_SKIP : Fld := ⟨48, 16⟩
/-- ROUTE_HASH.BYTES -/
abbrev ROUTE_HASH.BYTES : Fld := ⟨0, 64⟩
/-- RLY_CTRL.ENABLE -/
abbrev RLY_CTRL.ENABLE : Fld := ⟨0, 1⟩
/-- RLY_CTRL.ROOT -/
abbrev RLY_CTRL.ROOT : Fld := ⟨1, 1⟩
/-- RLY_CTRL.TIMEOUT_US -/
abbrev RLY_CTRL.TIMEOUT_US : Fld := ⟨16, 16⟩
/-- RLY_CTRL.LAUNCH_ID -/
abbrev RLY_CTRL.LAUNCH_ID : Fld := ⟨32, 32⟩
/-- RLY_AREA.BASE -/
abbrev RLY_AREA.BASE : Fld := ⟨0, 14⟩
/-- RLY_AREA.SIZE -/
abbrev RLY_AREA.SIZE : Fld := ⟨16, 14⟩
/-- RLY_FEED.LEN -/
abbrev RLY_FEED.LEN : Fld := ⟨0, 40⟩
/-- RLY_FEED.AVAIL -/
abbrev RLY_FEED.AVAIL : Fld := ⟨40, 24⟩
/-- RLY_FAMILY.PARENT -/
abbrev RLY_FAMILY.PARENT : Fld := ⟨0, 16⟩
/-- RLY_FAMILY.GRANDPARENT -/
abbrev RLY_FAMILY.GRANDPARENT : Fld := ⟨16, 16⟩
/-- RLY_FAMILY.HAS_PARENT -/
abbrev RLY_FAMILY.HAS_PARENT : Fld := ⟨32, 1⟩
/-- RLY_FAMILY.HAS_GP -/
abbrev RLY_FAMILY.HAS_GP : Fld := ⟨33, 1⟩
/-- RLY_FAMILY.DEPTH -/
abbrev RLY_FAMILY.DEPTH : Fld := ⟨36, 4⟩
/-- RLY_PROGRESS.HELD -/
abbrev RLY_PROGRESS.HELD : Fld := ⟨0, 40⟩
/-- RLY_STATUS.STATE -/
abbrev RLY_STATUS.STATE : Fld := ⟨0, 3⟩
/-- RLY_STATUS.RELAY -/
abbrev RLY_STATUS.RELAY : Fld := ⟨3, 1⟩
/-- RLY_STATUS.OVERRUN -/
abbrev RLY_STATUS.OVERRUN : Fld := ⟨4, 1⟩
/-- RLY_STATUS.CHILD_IGN -/
abbrev RLY_STATUS.CHILD_IGN : Fld := ⟨5, 1⟩
/-- RLY_STATUS.TOTAL -/
abbrev RLY_STATUS.TOTAL : Fld := ⟨32, 32⟩
/-- RLY_EXPECT.EXPECT -/
abbrev RLY_EXPECT.EXPECT : Fld := ⟨0, 32⟩
/-- RLY_EXPECT.DONE_MS -/
abbrev RLY_EXPECT.DONE_MS : Fld := ⟨32, 16⟩
/-- RLY_CHILD.MODULE -/
abbrev RLY_CHILD.MODULE : Fld := ⟨0, 16⟩
/-- RLY_CHILD.VALID -/
abbrev RLY_CHILD.VALID : Fld := ⟨16, 1⟩
/-- RLY_CHILD.GRAFTED -/
abbrev RLY_CHILD.GRAFTED : Fld := ⟨17, 1⟩
/-- RLY_CHILD.COUNT -/
abbrev RLY_CHILD.COUNT : Fld := ⟨32, 32⟩
/-- ADU_CTRL.CMD0 -/
abbrev ADU_CTRL.CMD0 : Fld := ⟨0, 18⟩
/-- ADU_CTRL.CMD0_EN -/
abbrev ADU_CTRL.CMD0_EN : Fld := ⟨18, 1⟩
/-- ADU_CTRL.CMD1 -/
abbrev ADU_CTRL.CMD1 : Fld := ⟨20, 18⟩
/-- ADU_CTRL.CMD1_EN -/
abbrev ADU_CTRL.CMD1_EN : Fld := ⟨38, 1⟩
/-- ADU_CTRL.EVENT -/
abbrev ADU_CTRL.EVENT : Fld := ⟨40, 18⟩
/-- ADU_CTRL.EVENT_EN -/
abbrev ADU_CTRL.EVENT_EN : Fld := ⟨58, 1⟩
/-- ADU_CTRL.FORCE_WRR -/
abbrev ADU_CTRL.FORCE_WRR : Fld := ⟨59, 1⟩
/-- ADU_STATUS.PLAN -/
abbrev ADU_STATUS.PLAN : Fld := ⟨0, 1⟩
/-- ADU_STATUS.WRR -/
abbrev ADU_STATUS.WRR : Fld := ⟨1, 1⟩
/-- ADU_STATUS.WRR_LEFT -/
abbrev ADU_STATUS.WRR_LEFT : Fld := ⟨2, 7⟩
/-- ADU_STATUS.RING -/
abbrev ADU_STATUS.RING : Fld := ⟨9, 1⟩
/-- ADU_STATUS.CMD_REJ -/
abbrev ADU_STATUS.CMD_REJ : Fld := ⟨10, 1⟩
/-- ADU_STATUS.EV_HELD -/
abbrev ADU_STATUS.EV_HELD : Fld := ⟨11, 1⟩
/-- ADU_STATUS.SUBMITS -/
abbrev ADU_STATUS.SUBMITS : Fld := ⟨32, 32⟩
/-- ADU_ROUND.ROUND -/
abbrev ADU_ROUND.ROUND : Fld := ⟨0, 64⟩
/-- ADU_TEMPLATE.SEATS -/
abbrev ADU_TEMPLATE.SEATS : Fld := ⟨0, 14⟩
/-- ADU_TEMPLATE.LEN -/
abbrev ADU_TEMPLATE.LEN : Fld := ⟨14, 9⟩
/-- ADU_TEMPLATE.RESULT -/
abbrev ADU_TEMPLATE.RESULT : Fld := ⟨23, 8⟩
/-- ADU_TEMPLATE.LEAD -/
abbrev ADU_TEMPLATE.LEAD : Fld := ⟨31, 4⟩
/-- ADU_COUNT.WAITING -/
abbrev ADU_COUNT.WAITING : Fld := ⟨0, 19⟩
/-- ADU_COUNT.PREFILL -/
abbrev ADU_COUNT.PREFILL : Fld := ⟨19, 19⟩
/-- ADU_COUNT.DECODE -/
abbrev ADU_COUNT.DECODE : Fld := ⟨38, 19⟩
/-- ADU_REQ_SEL.REQ -/
abbrev ADU_REQ_SEL.REQ : Fld := ⟨0, 18⟩
/-- ADU_REQ_VIEW.BYTES -/
abbrev ADU_REQ_VIEW.BYTES : Fld := ⟨0, 64⟩
/-- ACCT_CFG.RATE -/
abbrev ACCT_CFG.RATE : Fld := ⟨0, 24⟩
/-- ACCT_CFG.WEIGHT -/
abbrev ACCT_CFG.WEIGHT : Fld := ⟨24, 8⟩
/-- ACCT_CFG.PWEIGHT -/
abbrev ACCT_CFG.PWEIGHT : Fld := ⟨32, 5⟩
/-- ACCT_CFG.FLOOR -/
abbrev ACCT_CFG.FLOOR : Fld := ⟨40, 20⟩
/-- ACCT_BAL.BALANCE -/
abbrev ACCT_BAL.BALANCE : Fld := ⟨0, 44⟩
/-- ADU_CANCEL.CANCEL -/
abbrev ADU_CANCEL.CANCEL : Fld := ⟨0, 64⟩
/-- KV_CFG.FRAMES -/
abbrev KV_CFG.FRAMES : Fld := ⟨0, 23⟩
/-- KV_CFG.PRIV_BASE -/
abbrev KV_CFG.PRIV_BASE : Fld := ⟨23, 23⟩
/-- KV_CFG.STRETCH_PAGES -/
abbrev KV_CFG.STRETCH_PAGES : Fld := ⟨46, 14⟩
/-- KV_POOL.FREE -/
abbrev KV_POOL.FREE : Fld := ⟨0, 23⟩
/-- KV_POOL.MIN_FREE -/
abbrev KV_POOL.MIN_FREE : Fld := ⟨23, 23⟩
/-- KV_POOL.DRY_SEATS -/
abbrev KV_POOL.DRY_SEATS : Fld := ⟨46, 18⟩
/-- SHARD_CFG.SIZE -/
abbrev SHARD_CFG.SIZE : Fld := ⟨0, 7⟩
/-- SHARD_CFG.INDEX -/
abbrev SHARD_CFG.INDEX : Fld := ⟨8, 6⟩
/-- SHARD_CFG.HOME -/
abbrev SHARD_CFG.HOME : Fld := ⟨16, 16⟩
/-- SHARD_CFG.MIRROR_WAITS -/
abbrev SHARD_CFG.MIRROR_WAITS : Fld := ⟨32, 32⟩
/-- WT_EVENT.POOL_DRY -/
abbrev WT_EVENT.POOL_DRY : Fld := ⟨0, 1⟩
/-- WT_EVENT.PIN_FREED -/
abbrev WT_EVENT.PIN_FREED : Fld := ⟨1, 1⟩
/-- WT_EVENT.CAPTURE_FAIL -/
abbrev WT_EVENT.CAPTURE_FAIL : Fld := ⟨2, 1⟩
/-- WS_STATE.VALID -/
abbrev WS_STATE.VALID : Fld := ⟨0, 1⟩
/-- WS_STATE.MODE -/
abbrev WS_STATE.MODE : Fld := ⟨1, 1⟩
/-- WS_STATE.TWO -/
abbrev WS_STATE.TWO : Fld := ⟨2, 1⟩
/-- WS_STATE.HALF -/
abbrev WS_STATE.HALF : Fld := ⟨3, 1⟩
/-- WS_STATE.PENDING -/
abbrev WS_STATE.PENDING : Fld := ⟨4, 1⟩
/-- WS_STATE.GEN -/
abbrev WS_STATE.GEN : Fld := ⟨8, 8⟩
/-- AD_STATE.STATE -/
abbrev AD_STATE.STATE : Fld := ⟨0, 2⟩
/-- AD_STATE.HALF -/
abbrev AD_STATE.HALF : Fld := ⟨2, 1⟩
/-- AD_STATE.PENDING -/
abbrev AD_STATE.PENDING : Fld := ⟨3, 1⟩
/-- AD_STATE.GEN -/
abbrev AD_STATE.GEN : Fld := ⟨8, 8⟩
/-- AD_STATE.PINNED -/
abbrev AD_STATE.PINNED : Fld := ⟨16, 19⟩
/-- AD_STATE.USERS -/
abbrev AD_STATE.USERS : Fld := ⟨35, 19⟩
/-- LP_STATE.VALID -/
abbrev LP_STATE.VALID : Fld := ⟨0, 1⟩
/-- LP_STATE.RELEASED -/
abbrev LP_STATE.RELEASED : Fld := ⟨1, 1⟩
/-- LP_STATE.LEN -/
abbrev LP_STATE.LEN : Fld := ⟨2, 13⟩
/-- LP_STATE.REFS -/
abbrev LP_STATE.REFS : Fld := ⟨32, 19⟩
/-- SP_STATE.FRAME -/
abbrev SP_STATE.FRAME : Fld := ⟨0, 23⟩
/-- SP_STATE.FILL -/
abbrev SP_STATE.FILL : Fld := ⟨23, 9⟩
/-- SP_STATE.VALID -/
abbrev SP_STATE.VALID : Fld := ⟨32, 1⟩
/-- SP_STATE.RELEASED -/
abbrev SP_STATE.RELEASED : Fld := ⟨33, 1⟩
/-- SP_STATE.LP_NONE -/
abbrev SP_STATE.LP_NONE : Fld := ⟨34, 1⟩
/-- SP_STATE.LPSET -/
abbrev SP_STATE.LPSET : Fld := ⟨35, 10⟩
/-- SP_STATE.REFS -/
abbrev SP_STATE.REFS : Fld := ⟨45, 19⟩
/-- RING_BASE.ADDR -/
abbrev RING_BASE.ADDR : Fld := ⟨0, 64⟩
/-- RING_SHADOW.ADDR -/
abbrev RING_SHADOW.ADDR : Fld := ⟨0, 64⟩
/-- RING_IDX.PROD -/
abbrev RING_IDX.PROD : Fld := ⟨0, 32⟩
/-- RING_IDX.CONS -/
abbrev RING_IDX.CONS : Fld := ⟨32, 32⟩
/-- RING_CFG.TYPE -/
abbrev RING_CFG.TYPE : Fld := ⟨0, 3⟩
/-- RING_CFG.LOG2 -/
abbrev RING_CFG.LOG2 : Fld := ⟨3, 5⟩
/-- RING_CFG.ESIZE -/
abbrev RING_CFG.ESIZE : Fld := ⟨8, 2⟩
/-- RING_CFG.KIND -/
abbrev RING_CFG.KIND : Fld := ⟨10, 1⟩
/-- RING_CFG.PORT -/
abbrev RING_CFG.PORT : Fld := ⟨11, 1⟩
/-- RING_CFG.IRQ_EN -/
abbrev RING_CFG.IRQ_EN : Fld := ⟨12, 1⟩
/-- RING_CFG.ENABLE -/
abbrev RING_CFG.ENABLE : Fld := ⟨13, 1⟩
/-- RING_CFG.VECTOR -/
abbrev RING_CFG.VECTOR : Fld := ⟨16, 11⟩
/-- RING_CFG.REQ -/
abbrev RING_CFG.REQ : Fld := ⟨32, 18⟩
/-- RING_CFG.BOUND -/
abbrev RING_CFG.BOUND : Fld := ⟨50, 1⟩
/-- RING_STAT.ENTRIES -/
abbrev RING_STAT.ENTRIES : Fld := ⟨0, 32⟩
/-- RING_STAT.IDX_REJ -/
abbrev RING_STAT.IDX_REJ : Fld := ⟨32, 16⟩
/-- RING_STAT.CFG_REJ -/
abbrev RING_STAT.CFG_REJ : Fld := ⟨48, 1⟩
/-- SEQ_STATUS.STATE -/
abbrev SEQ_STATUS.STATE : Fld := ⟨0, 2⟩
/-- SEQ_STATUS.LOOP_DEPTH -/
abbrev SEQ_STATUS.LOOP_DEPTH : Fld := ⟨2, 3⟩
/-- SEQ_STATUS.AHEAD -/
abbrev SEQ_STATUS.AHEAD : Fld := ⟨5, 3⟩
/-- SEQ_STATUS.WAIT_CAUSE -/
abbrev SEQ_STATUS.WAIT_CAUSE : Fld := ⟨8, 3⟩
/-- SEQ_STATUS.TALLY_REJ -/
abbrev SEQ_STATUS.TALLY_REJ : Fld := ⟨11, 1⟩
/-- SEQ_STATUS.WORK_STAGE -/
abbrev SEQ_STATUS.WORK_STAGE : Fld := ⟨16, 32⟩
/-- SEQ_PC.PC -/
abbrev SEQ_PC.PC : Fld := ⟨0, 32⟩
/-- SEQ_FAULT.CODE -/
abbrev SEQ_FAULT.CODE : Fld := ⟨0, 8⟩
/-- SEQ_FAULT.AGENT -/
abbrev SEQ_FAULT.AGENT : Fld := ⟨8, 4⟩
/-- SEQ_FAULT.STAGE -/
abbrev SEQ_FAULT.STAGE : Fld := ⟨16, 32⟩
/-- SEQ_FAULT.VALID -/
abbrev SEQ_FAULT.VALID : Fld := ⟨48, 1⟩
/-- SEQ_FAULT.MORE -/
abbrev SEQ_FAULT.MORE : Fld := ⟨49, 1⟩
/-- TALLY_LIMIT.LIMIT -/
abbrev TALLY_LIMIT.LIMIT : Fld := ⟨0, 8⟩
/-- QUEUE_FILL.MXE -/
abbrev QUEUE_FILL.MXE : Fld := ⟨0, 10⟩
/-- QUEUE_FILL.VEC -/
abbrev QUEUE_FILL.VEC : Fld := ⟨10, 10⟩
/-- QUEUE_FILL.DMA0 -/
abbrev QUEUE_FILL.DMA0 : Fld := ⟨20, 9⟩
/-- QUEUE_FILL.DMA1 -/
abbrev QUEUE_FILL.DMA1 : Fld := ⟨29, 9⟩
/-- QUEUE_FILL.DMA2 -/
abbrev QUEUE_FILL.DMA2 : Fld := ⟨38, 9⟩
/-- QUEUE_FILL.DMA3 -/
abbrev QUEUE_FILL.DMA3 : Fld := ⟨47, 9⟩
/-- SEQ_WAIT.FULL_STEPS -/
abbrev SEQ_WAIT.FULL_STEPS : Fld := ⟨0, 32⟩
/-- SEQ_WAIT.TALLY_STEPS -/
abbrev SEQ_WAIT.TALLY_STEPS : Fld := ⟨32, 32⟩
/-- LOOP.REMAIN -/
abbrev LOOP.REMAIN : Fld := ⟨0, 24⟩
/-- LOOP.ACTIVE -/
abbrev LOOP.ACTIVE : Fld := ⟨24, 1⟩
/-- LOOP.FOREVER -/
abbrev LOOP.FOREVER : Fld := ⟨25, 1⟩
/-- LOOP.LC_COUNT -/
abbrev LOOP.LC_COUNT : Fld := ⟨32, 24⟩
/-- LOOP.LC_FOREVER -/
abbrev LOOP.LC_FOREVER : Fld := ⟨56, 1⟩
/-- TALLY.VALUE -/
abbrev TALLY.VALUE : Fld := ⟨0, 32⟩
/-- PRED.PRED -/
abbrev PRED.PRED : Fld := ⟨0, 64⟩
/-- SEAT_PRED.SEATS -/
abbrev SEAT_PRED.SEATS : Fld := ⟨0, 64⟩
/-- BANK_OWN.OWNER -/
abbrev BANK_OWN.OWNER : Fld := ⟨0, 4⟩
/-- BANK_OWN.PEND_TO -/
abbrev BANK_OWN.PEND_TO : Fld := ⟨4, 4⟩
/-- BANK_OWN.PEND -/
abbrev BANK_OWN.PEND : Fld := ⟨8, 1⟩
/-- BANK_OWN.RCOUNT -/
abbrev BANK_OWN.RCOUNT : Fld := ⟨32, 32⟩
/-- SRAM_ECC.CE_COUNT -/
abbrev SRAM_ECC.CE_COUNT : Fld := ⟨0, 32⟩
/-- SRAM_ECC.CE_BANK -/
abbrev SRAM_ECC.CE_BANK : Fld := ⟨32, 7⟩
/-- SRAM_ECC.CE_WORD -/
abbrev SRAM_ECC.CE_WORD : Fld := ⟨39, 17⟩
/-- SRAM_ECC.UE -/
abbrev SRAM_ECC.UE : Fld := ⟨56, 1⟩
/-- SCAN_STATUS.LAST_BANK -/
abbrev SCAN_STATUS.LAST_BANK : Fld := ⟨0, 7⟩
/-- SCAN_STATUS.LAST_PATCH -/
abbrev SCAN_STATUS.LAST_PATCH : Fld := ⟨7, 8⟩
/-- SCAN_STATUS.SPARES_FREE -/
abbrev SCAN_STATUS.SPARES_FREE : Fld := ⟨15, 3⟩
/-- SCAN_STATUS.DRY -/
abbrev SCAN_STATUS.DRY : Fld := ⟨18, 1⟩
/-- SCAN_STATUS.ACTIVE -/
abbrev SCAN_STATUS.ACTIVE : Fld := ⟨19, 1⟩
/-- SCAN_STATUS.SCANS -/
abbrev SCAN_STATUS.SCANS : Fld := ⟨32, 32⟩
/-- BANK_EVENT.OWN_REJ -/
abbrev BANK_EVENT.OWN_REJ : Fld := ⟨0, 1⟩
/-- BANK_EVENT.RETIRE -/
abbrev BANK_EVENT.RETIRE : Fld := ⟨1, 1⟩
/-- BANK_EVENT.DRY -/
abbrev BANK_EVENT.DRY : Fld := ⟨2, 1⟩
/-- BANK_EVENT.OWNER -/
abbrev BANK_EVENT.OWNER : Fld := ⟨3, 1⟩
/-- BANK_EVENT.BOUNDS -/
abbrev BANK_EVENT.BOUNDS : Fld := ⟨4, 1⟩
/-- PATCH_MAP.VALID -/
abbrev PATCH_MAP.VALID : Fld := ⟨0, 1⟩
/-- PATCH_MAP.RETIRED -/
abbrev PATCH_MAP.RETIRED : Fld := ⟨1, 1⟩
/-- PATCH_MAP.SPARE -/
abbrev PATCH_MAP.SPARE : Fld := ⟨2, 2⟩
/-- PATCH_MAP.BANK -/
abbrev PATCH_MAP.BANK : Fld := ⟨4, 7⟩
/-- PATCH_MAP.PATCH -/
abbrev PATCH_MAP.PATCH : Fld := ⟨11, 8⟩
/-- PATCH_MAP.RELEASE -/
abbrev PATCH_MAP.RELEASE : Fld := ⟨32, 1⟩
/-- MXE_STATUS.BUSY -/
abbrev MXE_STATUS.BUSY : Fld := ⟨0, 1⟩
/-- MXE_STATUS.ACC0_HOLDER -/
abbrev MXE_STATUS.ACC0_HOLDER : Fld := ⟨1, 2⟩
/-- MXE_STATUS.ACC1_HOLDER -/
abbrev MXE_STATUS.ACC1_HOLDER : Fld := ⟨3, 2⟩
/-- MXE_STATUS.LAST_FAULT -/
abbrev MXE_STATUS.LAST_FAULT : Fld := ⟨8, 8⟩
/-- MXE_WORK.PASSES -/
abbrev MXE_WORK.PASSES : Fld := ⟨0, 32⟩
/-- MXE_WORK.LOAD_WAIT -/
abbrev MXE_WORK.LOAD_WAIT : Fld := ⟨32, 32⟩
/-- MXE_ACC_ECC.CE_COUNT -/
abbrev MXE_ACC_ECC.CE_COUNT : Fld := ⟨0, 32⟩
/-- MXE_ACC_ECC.CE_BUF -/
abbrev MXE_ACC_ECC.CE_BUF : Fld := ⟨32, 1⟩
/-- MXE_ACC_ECC.CE_ROW -/
abbrev MXE_ACC_ECC.CE_ROW : Fld := ⟨33, 9⟩
/-- MXE_ACC_ECC.CE_PAIR -/
abbrev MXE_ACC_ECC.CE_PAIR : Fld := ⟨42, 6⟩
/-- MXE_ACC_ECC.UE -/
abbrev MXE_ACC_ECC.UE : Fld := ⟨48, 1⟩
/-- VEC_STATUS.BUSY -/
abbrev VEC_STATUS.BUSY : Fld := ⟨0, 1⟩
/-- VEC_STATUS.LAST_FAULT -/
abbrev VEC_STATUS.LAST_FAULT : Fld := ⟨8, 8⟩
/-- VEC_STATUS.ROW -/
abbrev VEC_STATUS.ROW : Fld := ⟨16, 12⟩
/-- VEC_WORK.COMMANDS -/
abbrev VEC_WORK.COMMANDS : Fld := ⟨0, 32⟩
/-- VEC_WORK.BUSY_STEPS -/
abbrev VEC_WORK.BUSY_STEPS : Fld := ⟨32, 32⟩
/-- VEC_CLASS.TRANS_STEPS -/
abbrev VEC_CLASS.TRANS_STEPS : Fld := ⟨0, 32⟩
/-- VEC_CLASS.REDUCE_STEPS -/
abbrev VEC_CLASS.REDUCE_STEPS : Fld := ⟨32, 32⟩
/-- TDMA_STATUS.BUSY -/
abbrev TDMA_STATUS.BUSY : Fld := ⟨0, 1⟩
/-- TDMA_STATUS.RING_WAIT -/
abbrev TDMA_STATUS.RING_WAIT : Fld := ⟨1, 1⟩
/-- TDMA_STATUS.LAST_FAULT -/
abbrev TDMA_STATUS.LAST_FAULT : Fld := ⟨8, 8⟩
/-- TDMA_COUNT.BYTES -/
abbrev TDMA_COUNT.BYTES : Fld := ⟨0, 40⟩
/-- TDMA_COUNT.DESCS -/
abbrev TDMA_COUNT.DESCS : Fld := ⟨40, 24⟩
/-- TDMA_CFG.SHARE -/
abbrev TDMA_CFG.SHARE : Fld := ⟨0, 9⟩
/-- TDMA_CFG.CRING -/
abbrev TDMA_CFG.CRING : Fld := ⟨16, 18⟩
/-- TDMA_CFG.CR_VALID -/
abbrev TDMA_CFG.CR_VALID : Fld := ⟨34, 1⟩
/-- DR_STATUS.TRAINED -/
abbrev DR_STATUS.TRAINED : Fld := ⟨0, 1⟩
/-- DR_STATUS.ZEROED -/
abbrev DR_STATUS.ZEROED : Fld := ⟨1, 1⟩
/-- DR_STATUS.RATE -/
abbrev DR_STATUS.RATE : Fld := ⟨2, 2⟩
/-- DR_STATUS.WORST_PKG -/
abbrev DR_STATUS.WORST_PKG : Fld := ⟨4, 4⟩
/-- DR_ECC.CE_COUNT -/
abbrev DR_ECC.CE_COUNT : Fld := ⟨0, 32⟩
/-- DR_ECC.LINK_CE -/
abbrev DR_ECC.LINK_CE : Fld := ⟨32, 16⟩
/-- DR_ECC.UE -/
abbrev DR_ECC.UE : Fld := ⟨48, 1⟩
/-- DR_UE_ADDR.OFFSET -/
abbrev DR_UE_ADDR.OFFSET : Fld := ⟨0, 40⟩
/-- DR_FORCED.COUNT -/
abbrev DR_FORCED.COUNT : Fld := ⟨0, 32⟩
/-- DR_FORCED.LAST_K -/
abbrev DR_FORCED.LAST_K : Fld := ⟨32, 4⟩
/-- DR_DEBT.DEBT -/
abbrev DR_DEBT.DEBT : Fld := ⟨0, 5⟩
/-- DR_DEBT.WINDOWS -/
abbrev DR_DEBT.WINDOWS : Fld := ⟨32, 32⟩
/-- IDMA_SUM.TOTAL -/
abbrev IDMA_SUM.TOTAL : Fld := ⟨0, 9⟩
/-- IDMA_SUM.LIMIT -/
abbrev IDMA_SUM.LIMIT : Fld := ⟨16, 9⟩
/-- IDMA_EVENT.SHARE_REJ -/
abbrev IDMA_EVENT.SHARE_REJ : Fld := ⟨0, 1⟩
/-- IDMA_EVENT.BIND_REJ -/
abbrev IDMA_EVENT.BIND_REJ : Fld := ⟨1, 1⟩
/-- IDMA_EVENT.HOST_DOWN -/
abbrev IDMA_EVENT.HOST_DOWN : Fld := ⟨2, 1⟩
/-- IDMA_CTRL.RUN -/
abbrev IDMA_CTRL.RUN : Fld := ⟨0, 1⟩
/-- IDMA_CTRL.SHARE -/
abbrev IDMA_CTRL.SHARE : Fld := ⟨8, 9⟩
/-- IDMA_RINGS.DRING -/
abbrev IDMA_RINGS.DRING : Fld := ⟨0, 18⟩
/-- IDMA_RINGS.CRING -/
abbrev IDMA_RINGS.CRING : Fld := ⟨32, 18⟩
/-- IDMA_STATUS.STATE -/
abbrev IDMA_STATUS.STATE : Fld := ⟨0, 2⟩
/-- IDMA_STATUS.RING_WAIT -/
abbrev IDMA_STATUS.RING_WAIT : Fld := ⟨2, 1⟩
/-- IDMA_STATUS.LAST_FAULT -/
abbrev IDMA_STATUS.LAST_FAULT : Fld := ⟨8, 8⟩
/-- IDMA_COUNT.BYTES -/
abbrev IDMA_COUNT.BYTES : Fld := ⟨0, 40⟩
/-- IDMA_COUNT.DESCS -/
abbrev IDMA_COUNT.DESCS : Fld := ⟨40, 24⟩
/-- FLT_STATUS.STOPPED -/
abbrev FLT_STATUS.STOPPED : Fld := ⟨0, 1⟩
/-- FLT_STATUS.FAULT_N -/
abbrev FLT_STATUS.FAULT_N : Fld := ⟨1, 1⟩
/-- FLT_STATUS.STEWARD_UE -/
abbrev FLT_STATUS.STEWARD_UE : Fld := ⟨2, 1⟩
/-- FLT_STATUS.STOP_CODE -/
abbrev FLT_STATUS.STOP_CODE : Fld := ⟨8, 8⟩
/-- FLT_STATUS.MGMT_BAD -/
abbrev FLT_STATUS.MGMT_BAD : Fld := ⟨32, 16⟩
/-- FLT_LOG_IDX.COUNT -/
abbrev FLT_LOG_IDX.COUNT : Fld := ⟨0, 64⟩
/-- PART_FLT.CODE -/
abbrev PART_FLT.CODE : Fld := ⟨0, 8⟩
/-- PART_FLT.CLASS -/
abbrev PART_FLT.CLASS : Fld := ⟨8, 2⟩
/-- PART_FLT.VALID -/
abbrev PART_FLT.VALID : Fld := ⟨10, 1⟩
/-- PART_FLT.ENTRY -/
abbrev PART_FLT.ENTRY : Fld := ⟨16, 8⟩
/-- PART_FLT.FSTAGE -/
abbrev PART_FLT.FSTAGE : Fld := ⟨32, 32⟩
/-- PART_CMT.COMMITTED -/
abbrev PART_CMT.COMMITTED : Fld := ⟨0, 64⟩
/-- RESUME_ADDR.OFFSET -/
abbrev RESUME_ADDR.OFFSET : Fld := ⟨0, 40⟩
/-- RESUME_C.STAGE -/
abbrev RESUME_C.STAGE : Fld := ⟨0, 64⟩
/-- RESUME_Q.STAGE -/
abbrev RESUME_Q.STAGE : Fld := ⟨0, 64⟩
/-- RESUME_CTRL.PARTITION -/
abbrev RESUME_CTRL.PARTITION : Fld := ⟨0, 3⟩
/-- RESUME_CTRL.GO -/
abbrev RESUME_CTRL.GO : Fld := ⟨7, 1⟩
/-- RESUME_CTRL.STATUS -/
abbrev RESUME_CTRL.STATUS : Fld := ⟨8, 8⟩
/-- RESUME_CTRL.RESUME_REJ -/
abbrev RESUME_CTRL.RESUME_REJ : Fld := ⟨16, 1⟩
/-- RESUME_CTRL.LENGTH -/
abbrev RESUME_CTRL.LENGTH : Fld := ⟨32, 32⟩
/-- LS_CTRL.ENABLE -/
abbrev LS_CTRL.ENABLE : Fld := ⟨0, 1⟩
/-- LS_CTRL.WINDOW -/
abbrev LS_CTRL.WINDOW : Fld := ⟨4, 4⟩
/-- LS_STATUS.STATE -/
abbrev LS_STATUS.STATE : Fld := ⟨0, 2⟩
/-- LS_STATUS.LOCKSTEP -/
abbrev LS_STATUS.LOCKSTEP : Fld := ⟨2, 1⟩
/-- LS_STATUS.STAGE -/
abbrev LS_STATUS.STAGE : Fld := ⟨32, 32⟩
/-- LS_FIRST.LT -/
abbrev LS_FIRST.LT : Fld := ⟨0, 10⟩
/-- LS_FIRST.AGENT -/
abbrev LS_FIRST.AGENT : Fld := ⟨12, 4⟩
/-- LS_FIRST.MATCHED -/
abbrev LS_FIRST.MATCHED : Fld := ⟨32, 32⟩
/-- FENCE_STATUS.FENCED -/
abbrev FENCE_STATUS.FENCED : Fld := ⟨0, 1⟩
/-- FENCE_STATUS.LAST_REASON -/
abbrev FENCE_STATUS.LAST_REASON : Fld := ⟨8, 8⟩
/-- FENCE_STATUS.REFUSED -/
abbrev FENCE_STATUS.REFUSED : Fld := ⟨16, 32⟩
/-- FENCE_EPOCH.EPOCH -/
abbrev FENCE_EPOCH.EPOCH : Fld := ⟨0, 64⟩
/-- FENCE_SUBMIT.OFFSET -/
abbrev FENCE_SUBMIT.OFFSET : Fld := ⟨0, 40⟩
/-- FENCE_SUBMIT.LENGTH -/
abbrev FENCE_SUBMIT.LENGTH : Fld := ⟨40, 11⟩
/-- FENCE_SUBMIT.GO -/
abbrev FENCE_SUBMIT.GO : Fld := ⟨63, 1⟩
/-- FLT_LOG.CODE -/
abbrev FLT_LOG.CODE : Fld := ⟨0, 8⟩
/-- FLT_LOG.CLASS -/
abbrev FLT_LOG.CLASS : Fld := ⟨8, 2⟩
/-- FLT_LOG.ORIGIN -/
abbrev FLT_LOG.ORIGIN : Fld := ⟨12, 4⟩
/-- FLT_LOG.ID -/
abbrev FLT_LOG.ID : Fld := ⟨16, 10⟩
/-- FLT_LOG.PARTITION -/
abbrev FLT_LOG.PARTITION : Fld := ⟨26, 3⟩
/-- FLT_LOG.PART_VALID -/
abbrev FLT_LOG.PART_VALID : Fld := ⟨29, 1⟩
/-- FLT_LOG.AGENT -/
abbrev FLT_LOG.AGENT : Fld := ⟨32, 4⟩
/-- FLT_LOG.FSTAGE -/
abbrev FLT_LOG.FSTAGE : Fld := ⟨0, 64⟩
/-- FLT_LOG.ADDR -/
abbrev FLT_LOG.ADDR : Fld := ⟨0, 64⟩
/-- FLT_LOG.TIME_NS -/
abbrev FLT_LOG.TIME_NS : Fld := ⟨0, 64⟩

end Sys2Proof.Machine
end

