-- ==== Sys2Proof/Machine/State.lean ====
section
/-! DEFINITION. The state of the block as plain data: every register in one sparse map, the memories, and what the spec gives
the units beside their registers. Each structure names the rules of spec/ that give it its fields. Sparse tables are lists of
(key, value) pairs with keys rising and no entry at its default. -/

namespace Sys2Proof.Machine

/-- Why a command stops the model. No rule of the spec stops the block: the module's own faults (R515) are effects on `State`.
So nothing raises one, and the type has no constructor. Safe. -/
inductive Fault where
  deriving DecidableEq, Repr

/-- Why a command has no meaning. -/
inductive Refusal where
  /-- Raised by the arms of `exec` that have no meaning yet, with the row's mnemonic; safe. -/
  | notModelled (mnemonic : String)
  deriving DecidableEq, Repr

/-- An interrupt source: its register INT_SRC, whether a core has claimed it, its level condition, and whether an edge arrived while it was active (R502 to R507). -/
structure IrqSrc where
  prio : BitVec 4 := 0
  target : BitVec 6 := 0
  pend : Bool := false
  active : Bool := false
  line : Bool := false
  reentered : Bool := false
  edges : BitVec 32 := 0
  deriving DecidableEq, Repr

/-- Where the supply stands (R567, R569, R570, R571, R580): off, charging the input, converting, rails good with reset held, up (PWRGD high), tripped by THERMTRIP, or locked out by overvoltage. -/
inductive PwrPhase where
  | off
  | charging
  | converting
  | released
  | up
  | tripped
  | lockout
  deriving DecidableEq, Repr

/-- The power controller (R567 to R585). `convOff` names the first-stage converters that failed (R572); `page`, `cml`, `vinUv` are its PMBus state (R585). -/
structure Pwr where
  phase : PwrPhase := .up
  thermtrip : Bool := false
  hot : Bool := false
  page : Byte := 0
  cml : Bool := false
  vinUv : Bool := true
  convOff : BitVec 5 := 0
  deriving DecidableEq, Repr

/-- What the module carries from manufacture (R1, R24, R476, R485, R486, R499): grade, working ports, working tiles by die, identities, the minimum firmware version and the key material. -/
structure Fuses where
  grade : BitVec 4
  ports : BitVec 16
  tiles : List Word
  serial : Word
  minSvn : BitVec 32
  siRev : Byte
  rootHash : Bytes
  keySeed : Bytes
  deriving DecidableEq, Repr

/-- What the module gives to the outside in one command: read values, PCIe writes and reads, MSI-X messages, frames on the link, SMBus and SPDM answers. -/
inductive Out where
  | read (p : HostPort) (v : Word)
  | readBytes (p : HostPort) (b : Bytes)
  | msix (p : HostPort) (v : Nat)
  | hostWrite (p : HostPort) (addr : Word) (b : Bytes)
  | hostRead (p : HostPort) (addr : Word) (len : Nat)
  | frame (p : Port) (f : Frame)
  | pmbus (b : Bytes)
  | nack
  | version (b : SpdmBinding)
  | capabilities (b : SpdmBinding)
  | algorithms (b : SpdmBinding)
  | digests (b : SpdmBinding) (d : Option Bytes)
  | certificate (b : SpdmBinding) (part : Bytes) (left : Nat)
  | challengeAuth (b : SpdmBinding) (certHash nonce sig : Bytes)
  | measurements (b : SpdmBinding) (vals : List (Nat × Bytes)) (sig : Option Bytes)
  | spdmBusy (b : SpdmBinding)
  | spdmInvalid (b : SpdmBinding)
  | spdmUnexpected (b : SpdmBinding)
  | mctp (b : SpdmBinding) (cmd : Byte)
  | readData (by_ : Agent) (b : Bytes)
  | claim (c : Core) (src : Option Nat)
  | dropped (p : Packet)
  deriving DecidableEq, Repr

/-- A host port beside its registers: MSI-X table and pending bits (R463, R464) and the fraction behind FT_NOW_NS (R386, R474). -/
structure HostSt where
  msixEn : Bool := false
  fmask : Bool := false
  msix : List (Nat × Word) := []
  pba : List Nat := []
  frac : BitVec 32 := 0
  deriving DecidableEq, Repr

/-- What a rate region gathers within a telemetry interval; `finishAt` and `landAt` are stages (R512, R513). -/
structure Tel where
  stages : Nat := 0
  flags : Byte := 0
  late : Nat := 0
  minFinish : Option Int := none
  finishAt : Nat := 0
  minLand : Option Int := none
  landAt : Nat := 0
  waits : WaitSums := ⟨0, 0, 0, 0, 0, 0, 0⟩
  pace : Nat := 0
  watts : Nat := 0
  deriving DecidableEq, Repr

/-- A rate region beside its registers (R43 to R65): the budget in force, the stage whose work starts next and whether the one before it has finished, the calibration age and what the stage has already raised. -/
structure RgnSt where
  budget : BitVec 16 := 0
  next : Nat := 0
  finished : Bool := true
  s0 : Option Nat := none
  quiesce : Bool := false
  calAge : Nat := 0
  zeroRun : Nat := 0
  powerCut : Bool := false
  flagRaised : Bool := false
  abortRaised : Bool := false
  overRaised : Bool := false
  mirrorHeld : Bool := false
  tel : Tel := {}
  deriving DecidableEq, Repr

/-- The sampling key a seat holds: the request, its seed and its start (R402). -/
structure SeatKey where
  req : Option (BitVec 32) := none
  seed : Word := 0
  start : BitVec 32 := 0
  deriving DecidableEq, Repr

/-- A write of a round at a tile, in force at its stage boundary: predicate bits and keys (R235, R401, R402). -/
structure RoundWrite where
  stage : Nat
  preds : List Nat
  keys : List (Nat × SeatKey)
  deriving DecidableEq, Repr

/-- What a row's generator draws use (R159, R160, R185). -/
structure RowKey where
  seed : Word
  pos : Nat
  seated : Bool
  deriving DecidableEq, Repr

/-- What an entry of an agent's queue does (R229, R251, R253, R254, R256). -/
inductive QBody where
  | eng (h : CmdHdr) (c : EngCmd)
  | handover (bank : Nat)
  | scan (bank : Nat)
  | signal (tally : TallyIx) (amount : BitVec 16)
  | fence (tally : TallyIx)
  deriving DecidableEq, Repr

/-- Whether an entry has begun (R231). -/
inductive QPhase where
  | queued
  | running
  deriving DecidableEq, Repr

/-- An entry of an agent's queue: its stage tag, the tile predicate at admission, its body, and what has happened to it; `pastWait` says that point 2 of R231 is behind it, `begun` that points 3 and 4 are too; then `ixs` holds the index tensors that were
read once (R248), `keys` the rows' seats as they were then (R185, R218), and `rows` is 0 while its checks are not made, and 1 more than the
rows of its accesses that are made afterwards (R84, R87, R233) (R224, R225, R231 to R236, R240, R256). -/
structure QItem where
  stage : Nat
  pred : Bool
  body : QBody
  phase : QPhase := .queued
  waiting : Bool := false
  pastWait : Bool := false
  waitB : Nat := 0
  fault : Byte := 0
  skipped : Bool := false
  captured : BitVec 32 := 0
  begun : Bool := false
  ixs : List (List (BitVec 32)) := []
  keys : List RowKey := []
  rows : Nat := 0
  deriving DecidableEq, Repr

/-- What the sequencer waits for (R255, R256, R301). -/
inductive SeqWaitFor where
  | tally (t : TallyIx) (v : BitVec 32)
  | fence (t : TallyIx) (captured : Option (List (BitVec 32)))
  deriving DecidableEq, Repr

/-- The sequencer's wait and the boundaries it has lasted (R240). -/
structure SeqWait where
  what : SeqWaitFor
  waitB : Nat := 0
  deriving DecidableEq, Repr

/-- A handover or scan whose owner is pending at a bank (R84 to R89, R101, R102). -/
structure PendHo where
  bank : Nat
  frm : Agent
  towards : Agent
  tally : TallyIx
  e : BitVec 32
  scan : Bool
  stage : Nat
  waiting : Bool := false
  waitB : Nat := 0
  deriving DecidableEq, Repr

/-- The march in progress, with the issue stage of its SCAN (R34, R101, R103, R105). -/
structure ScanSt where
  stage : Nat
  bank : Nat
  patch : Nat
  old : Agent
  tally : TallyIx
  spare : Nat
  deriving DecidableEq, Repr

/-- A remote operation in the landing buffer of a tile (R88, R291, R295), or an access that waits as REMOTE: of the aperture of a port
(R459), of a data mover's channel (R268; `second` for the second output of a PARITY), or, with neither, of a `BANK_ACCESS`. -/
structure LandItem where
  bank : Nat
  off : Nat
  view : BitVec 2
  data : Bytes
  readLen : Nat
  land_ : Option Nat
  ack : Option PktHdr
  aper : Option HostPort := none
  chan : Option ChanId := none
  second : Bool := false
  counts : Bool
  waitB : Nat := 0
  deriving DecidableEq, Repr

/-- Landings that count at a later boundary (R295, R298). -/
structure Deferred where
  bank : Nat
  stage : Nat
  count : Nat
  deriving DecidableEq, Repr

/-- One unit of a descriptor: its offset in the transfer, where it reads (each shard for PARITY) and writes (each output), and its
length; `reqs` are the extents that its writes are part of (R114, R267), and `ready` says that what it writes stands in `got` (R268, R274,
R288, R296). -/
structure XUnit where
  at_ : Nat
  srcs : List Nat
  dsts : List Nat
  len : Nat
  reqs : List (Nat × Nat)
  ready : Bool := false
  deriving DecidableEq, Repr

/-- The descriptor a channel runs (R262 to R276): `bursts` are the bursts that it has not carried, `todo` the units whose accesses are still
to be made, `got` what the reads of the first of them have delivered, `asked` that its next read waits in a landing buffer, `landing` the
writes of the descriptor that wait in landing buffers, `inq` the GET data in the inbound path with the bursts that it still needs (R273),
`host` the bytes that reads of host memory return, `overlap` that source and destination share a byte (R268, R274), `slot` the planned
slot of its next packet (R308), and `bytes2` what a second output of PARITY has received (R275). -/
structure Xfer where
  op : DescOp
  d : Desc
  stage : Nat
  bursts : Nat
  bytes : Nat
  fault : Byte
  split : Bool
  gets : List (BitVec 32 × Nat)
  short : Bool := false
  todo : List XUnit := []
  got : List Bytes := []
  asked : Bool := false
  landing : Nat := 0
  inq : List (BitVec 32 × Bytes × Nat) := []
  host : Bytes := []
  overlap : Bool := false
  slot : Option (Nat × Nat) := none
  bytes2 : Nat := 0
  deriving DecidableEq, Repr

/-- A late transfer that waits for the catch-up capacity of the die-to-die crossings on its path (R67 to R69): its channel, the crossings
as R40 numbers them, and the stage and slot that it was planned for. -/
structure LateXfer where
  chan : ChanId
  links : List Nat
  planned : Nat × Nat
  deriving DecidableEq, Repr

/-- A channel of a data mover (R272, R275 to R283, R290, R300). `open_` holds the packets of an I/O-die channel's PUT, SET and CLEAR
descriptors that have not completed, with the answers each still expects (R304, R305). -/
structure Chan where
  seq : BitVec 32 := 0
  issued : BitVec 32 := 0
  done : BitVec 32 := 0
  nacks : List (BitVec 32 × Byte) := []
  open_ : List (BitVec 32 × Nat) := []
  cur : Option Xfer := none
  held : Option Bytes := none
  due : List (Nat × Bytes) := []
  share : Nat := 0
  deriving DecidableEq, Repr

/-- An open loop level (R241). -/
structure LoopSt where
  start : BitVec 32
  bodyEnd : BitVec 32
  deriving DecidableEq, Repr

/-- A tile beside its registers: sequencer, queues, seats, banks' tables, landing buffer, accesses of pending owners that wait at their
banks (`held`, R87), accumulators and channels. -/
structure Tile where
  x : List (Nat × BitVec 32) := []
  imem : List Host.Cell := []
  dmem : List Host.Cell := []
  imemBad : List (Nat × BitVec 2) := []
  dmemBad : List (Nat × BitVec 2) := []
  issue : Nat := 0
  loops : List LoopSt := []
  keys : List (Nat × SeatKey) := []
  rounds : List RoundWrite := []
  clears : List SeatList := []
  queues : List (Nat × List QItem) := []
  seqWait : Option SeqWait := none
  pend : List PendHo := []
  scan : Option ScanSt := none
  ptr : List (Nat × Nat) := []
  badSpares : BitVec 4 := 0
  landing : List LandItem := []
  held : List BankAcc := []
  deferred : List Deferred := []
  acc : List (Nat × BitVec 32) := []
  accBad : List (Nat × BitVec 2) := []
  chans : List (Nat × Chan) := []
  deriving DecidableEq, Repr

/-- A parcel (R321). -/
structure Parcel where
  data : Bytes
  first : Bool
  last : Bool
  deriving DecidableEq, Repr

/-- A parcel that waits to be sent, with its planned slot (R67, R320), and for a Delay_Req its sequenceId (R372). -/
structure TxParcel where
  parcel : Parcel
  planned : Option (Nat × Nat)
  part : Option Nat
  time : Option (BitVec 16) := none
  deriving DecidableEq, Repr

/-- A frame in the replay buffer (R327, R329). -/
structure Replay where
  seq : BitVec 16
  parcel : Parcel
  retx : Nat
  acked : Bool
  queued : Bool
  order : Nat
  deriving DecidableEq, Repr

/-- A fabric port beside its registers (R310 to R346, R372). `ctrl` and `timers` are the values in force, which VBL_CTRL and VBL_TIMERS give at
a stage boundary; `loop` says that the last bring-up took LOOPBACK, and `loopq` holds the frames on the loop; `probeAge` and `calAge`
count the stages since the last PROBE and CAL became due (R337, R338). -/
structure PortSt where
  partner : Option (BitVec 16) := none
  cause : Byte := 0
  replay : List Replay := []
  order : Nat := 0
  recv : List (Nat × Parcel) := []
  asm : List Bytes := []
  ctlDue : Bool := false
  probeDue : Bool := false
  calDue : Bool := false
  unreported : Nat := 0
  sackFrom : Option (BitVec 16) := none
  txPlan : List TxParcel := []
  txLate : List TxParcel := []
  txService : List TxParcel := []
  txAnswer : List TxParcel := []
  probeTag : BitVec 16 := 0
  probeSent : Option (BitVec 16 × Nat) := none
  probeRx : Option (BitVec 16 × Nat) := none
  prbs : BitVec 31 := 0x7FFFFFFF
  usable : Bool := false
  tsq : List (BitVec 16 × Ts) := []
  ctrl : Word := 2
  timers : Word := 0x0006082000640FA0
  patFrom : Option Nat := none
  loop : Bool := false
  loopq : List Frame := []
  probeAge : Nat := 0
  calAge : Nat := 0
  deriving DecidableEq, Repr

/-- The launch relay beside its registers (R353 to R366); `graft` says that a GRAFT_REQ waits for its answer. -/
structure RelaySt where
  fwd : Nat := 0
  spans : List (Nat × Nat) := []
  len : Option Nat := none
  heard : Bool := false
  sent : Nat := 0
  doneSent : Option Nat := none
  timerOn : Bool := false
  graft : Bool := false
  deriving DecidableEq, Repr

/-- The two-way exchange of the time client (R373): its four times in units of 2^-16 ps, and whether the timestamp of its Delay_Req was
dropped (R372). -/
structure Exchange where
  syncSeq : Option (BitVec 16) := none
  t1 : Option Ts := none
  t2 : Option Ts := none
  reqSeq : Option (BitVec 16) := none
  t4 : Option Ts := none
  syncCorr : Ts := 0
  dropped : Bool := false
  deriving DecidableEq, Repr

/-- Fabric time and its steering (R367 to R386): integer part, fraction and what stands below the fraction, in units of 2^-80 ns; the time
base in units of 2^-32 ns (R368); the moments on the time base of the last accepted sample, of the last event that counts as one for
R382, of the last restart of the steering watchdog (R377) and of the start of the holdover in progress. -/
structure TimeSt where
  ns : Word := 0
  frac : BitVec 32 := 0
  sub : Nat := 0
  base : Nat := 0
  iTerm : Int := 0
  ex : Exchange := {}
  sampleAt : Option Nat := none
  countAt : Option Nat := none
  wdFrom : Nat := 0
  epochSet : Bool := false
  arrived : Bool := false
  holdFrom : Option Nat := none
  refLost : Bool := false
  deriving DecidableEq, Repr

/-- A token record (R413). -/
structure TokRec where
  seq : BitVec 32
  token : BitVec 32
  logprob : BitVec 16
  flags : BitVec 16
  stage : BitVec 32
  deriving DecidableEq, Repr

/-- A request record of the admission unit (R397) with its spill area (R415), the shared-prefix handles it names (R444), whether its
last chunk has committed (R404), whether its final record is written and whether its seat is free (R405). -/
structure ReqRec where
  state : Nat := 0
  pin : Bool := false
  held : Bool := false
  account : BitVec 16 := 0
  ring : BitVec 32 := 0
  promptLen : BitVec 32 := 0
  nextFill : BitVec 32 := 0
  commit : BitVec 32 := 0
  known : BitVec 32 := 0
  seq : BitVec 32 := 0
  relSeq : BitVec 32 := 0
  maxNew : BitVec 32 := 0
  stopId : BitVec 32 := 0
  seat : BitVec 16 := 0xFFFF
  adapter : BitVec 16 := 0
  adapterGen : Byte := 0
  lpset : BitVec 16 := 0
  reason : Nat := 0
  seed : Word := 0
  prompt : Word := 0
  admitted : Word := 0
  prefixLen : BitVec 32 := 0
  prefixList : Word := 0
  lastId : BitVec 32 := 0
  spill : List TokRec := []
  handles : List Nat := []
  filled : Bool := false
  finalOut : Bool := false
  seatFreed : Bool := true
  deriving DecidableEq, Repr

/-- A seat's binding in a round (R401), with what its chunk was charged (R532). -/
structure Binding where
  seat : Nat
  req : Nat
  prefill : Bool
  active : Bool
  start : Nat
  count : Nat
  seed : Word
  charge : Int
  deriving DecidableEq, Repr

/-- A round that is bound (R401): its bindings, whether its results are processed (R412), and whether its round write is issued (R449). -/
structure RoundSt where
  round : Nat
  bindings : List Binding
  done : Bool
  issued : Bool
  deriving DecidableEq, Repr

/-- A weight set or adapter slot whose switch is pending (R426, R430). -/
inductive Switch where
  | ws (n : Nat)
  | ad (n : Nat)
  deriving DecidableEq, Repr

/-- The admission unit beside its registers (R394 to R449): requests and their view of the last boundary, records not yet released with
the stage they were produced in, event records held, the accounts' values in force, written balances, remainders and current values,
bound rounds, pending switches, frames of learned-prefix sets, captures, owners of private frames, registered frames in use, requests
that a member has a page table for, the command ring taken last (none before the first command), the seating points left in WRR mode, and
the least round whose bindings still hold. -/
structure Adu where
  reqs : List (Nat × ReqRec) := []
  view : List (Nat × ReqRec) := []
  recs : List (Nat × Nat × TokRec) := []
  held : List Bytes := []
  admitNext : Word := 0
  curAdmit : List (Nat × Int) := []
  curFill : List (Nat × Int) := []
  rem : List (Nat × Nat) := []
  balWrites : List (Nat × Nat) := []
  cfgLive : List (Nat × Word) := []
  rounds : List RoundSt := []
  switches : List Switch := []
  lpFrames : List (Nat × List Nat) := []
  captures : List (Nat × Nat) := []
  privUsed : List (Nat × Nat) := []
  regUsed : List Nat := []
  tables : List Nat := []
  lastRing : Option Bool := none
  wrrLeft : Nat := 0
  cur : Nat := 0
  deriving DecidableEq, Repr

/-- A slot pattern entry of a plan (R316, R492). -/
structure SlotPat where
  plen : Nat
  planNs : Nat
  p0 : Word
  p1 : Word
  deriving DecidableEq, Repr

/-- A seat of a round template (R400, R492). -/
structure SeatT where
  prefill : Bool
  ncand : Nat
  chunk : Nat
  deriving DecidableEq, Repr

/-- The round template of a plan (R400, R492). -/
structure RoundT where
  len : Nat
  lead : Nat
  result : Nat
  seats : List SeatT
  deriving DecidableEq, Repr

/-- A weight set of a plan (R421, R492). -/
structure WSet where
  set_ : Nat
  stream : Bool
  halves : Nat
  startHalf : Nat
  extents : List (List (Nat × Nat))
  deriving DecidableEq, Repr

/-- A rate region's plan (R51, R492). -/
structure RgnPlan where
  pace : Nat
  gap : Nat
  phase : Nat
  offNs : Nat
  deriving DecidableEq, Repr

/-- A refresh window of a plan (R122, R492). -/
structure RefPlan where
  t : Nat
  iod : Nat
  k : Nat
  offNs : Nat
  deriving DecidableEq, Repr

/-- A tile stream of a plan (R223, R492). -/
structure Stream where
  lt : Nat
  encRev : Nat
  imem : Bytes
  dmem : Bytes
  deriving DecidableEq, Repr

/-- What a loaded plan gives (R492). -/
structure Plan where
  partition : Nat := 0
  serving : Bool := false
  lenCode : Nat := 2
  horizon : Nat := 0
  tallyLimit : Nat := 0
  landingLag : Nat := 0
  ltBase : Nat := 0
  ltCount : Nat := 0
  phaseNs : Nat := 0
  epochNs : Nat := 0
  seed : Word := 0
  selBase : Nat := 0
  ptBase : Nat := 0
  frames : Nat := 0
  privBase : Nat := 0
  stretch : Nat := 0
  posLimit : Nat := 0
  mirrorNs : Nat := 0
  serviceShare : List Nat := []
  regions : List RgnPlan := []
  power : List (List Nat) := []
  slots : List SlotPat := []
  chans : List (Nat × BitVec 32) := []
  round : Option RoundT := none
  weights : List WSet := []
  kv : List (Nat × Nat) := []
  adapters : List (Nat × Nat) := []
  shard : Option (Nat × Nat × Nat × List Nat) := none
  refPeriod : Nat := 0
  refresh : List RefPlan := []
  streams : List Stream := []
  deriving DecidableEq, Repr

/-- A partition: its plan, measurement and clock of stages (R385, R411, R494, R521, R522, R529). -/
structure PartSt where
  plan : Option Plan := none
  meas : Bytes := []
  offset : Nat := 0
  shift : Int := 0
  start : Nat := 0
  haltAt : Option Nat := none
  unloading : Bool := false
  fstage : Option Nat := none
  commitC : Nat := 0
  deriving DecidableEq, Repr

/-- What the structure image reserves for a partition's ports and regions (R489, WINDOWS). -/
structure WindowsRec where
  repair : Nat
  catchup : Nat
  gap : Nat
  deriving DecidableEq, Repr

/-- What the structure image gives (R489 to R491). -/
structure Image where
  masks : List Word := []
  tileMap : List Nat := []
  banks : List Nat := []
  router : List Word := []
  limits : List (Nat × Nat) := []
  roles : List Nat := []
  rings : List (Nat × Word × Word × Word) := []
  windows : List WindowsRec := []
  aduOff : Nat := 0
  reserved : List (Nat × Nat) := []
  routeSelf : Word := 0
  routeDest : List (Nat × Word) := []
  routeMc : List (Nat × Word) := []
  routeBytes : Bytes := []
  quorum : Nat := 0
  epochMin : Word := 0
  keys : List Bytes := []
  deriving DecidableEq, Repr

/-- What a load in progress will do at its end (R480, R485 to R497); a refusal may name the section and the offset of its failure. -/
inductive LoadOutcome where
  | refused (status : Nat) (at_ : Option (Nat × Nat))
  | firmware (svn entry : BitVec 32) (meas payload : Bytes)
  | structure_ (i : Image) (meas : Bytes)
  | plan (p : Plan) (meas : Bytes)
  | cert (chain : Bytes)
  | unload
  deriving DecidableEq, Repr

/-- The load in progress (R480). -/
structure Load where
  kind : Nat
  part : Nat
  outcome : LoadOutcome
  deriving DecidableEq, Repr

/-- A Steward core (R500): the registers of RV64GC, which the firmware's instructions change; no row of the table runs one of them
(log entry 104). -/
structure StwCore where
  pc : Word := 0
  x : List (Nat × Word) := []
  f : List (Nat × Word) := []
  csr : List (Nat × Word) := []
  deriving DecidableEq, Repr

/-- The Steward beside its registers (R500, R501): its 2 MiB of memory from its first byte on, the words of it that do not read right
(2: uncorrectable), and its four cores. -/
structure StwSt where
  mem : List Host.Cell := []
  bad : List (Nat × BitVec 2) := []
  cores : List (Nat × StwCore) := []
  deriving DecidableEq, Repr

/-- Boot: the load in progress, the measurements and the certificate chain (R480, R482, R485, R497), PAYLOAD_LEN of the firmware (R485, log entry 105);
`sealed` once the boundary of a device stop has passed (R526). -/
structure BootSt where
  load : Option Load := none
  measFw : Bytes := []
  measImg : Bytes := []
  chain : Option Bytes := none
  fwLen : Nat := 0
  sealed : Bool := false
  deriving DecidableEq, Repr

/-- A resume check in progress (R528). -/
structure ResumeSt where
  part : Nat
  addr : Nat
  len : Nat
  c : Nat
  q : Nat
  early : Bool
  deriving DecidableEq, Repr

/-- Lock-step: signatures and what the partner sent, by stage, and the first signature of the failed stage that is known to differ (R535 to R538). -/
structure LockSt where
  sigs : List (Nat × List (Nat × Word)) := []
  own : List (Nat × Word) := []
  partner : List (Nat × Word) := []
  matched : List Nat := []
  failed : Option Nat := none
  first : Option Nat := none
  deriving DecidableEq, Repr

/-- An SPDM session's negotiation (R496). -/
structure SpdmSt where
  version : Bool := false
  caps : Bool := false
  algs : Bool := false
  deriving DecidableEq, Repr

/-- Telemetry (R513): the records of the interval that ended, the buffer's base in force, and the stage that the last interval ended at. -/
structure TelSt where
  latched : List Bytes := []
  base : Word := 0
  last : Option Nat := none
  deriving DecidableEq, Repr

/-- The whole block. `pending` is the queue of commands; `out` is what the last command gave to the outside; `free` counts the
free values taken (Config). `late` holds the late transfers of die-to-die links by planned slot, and `lateUsed` the bytes that each
crossing has carried of them in the stage (R69). `fence` holds the fence orders that wait for their check, and whether `FENCE_SUBMIT` brought them. `regs` holds every register that is not at its reset value, by its BAR0 offset (R7). -/
structure State where
  pending : List Instr
  out : List Out
  free : Nat
  regs : List (Nat × Word)
  irq : List (Nat × IrqSrc)
  cores : List (Nat × List (Nat × BitVec 4))
  pwr : Pwr
  fuses : Fuses
  hosts : List (Nat × HostSt)
  lapseMs : BitVec 16
  lapseFrom : Option Nat
  sram : List Host.Cell
  sramBad : List (Nat × BitVec 2)
  dram : List Host.Cell
  dramBad : List (Nat × BitVec 2)
  rows : List (Nat × Nat)
  rgns : List (Nat × RgnSt)
  late : List LateXfer
  lateUsed : List (Nat × Nat)
  tiles : List (Nat × Tile)
  idma : List (Nat × Chan)
  ports : List (Nat × PortSt)
  inbound : List (Port × Bytes)
  relay : RelaySt
  time : TimeSt
  ringIrq : List (Nat × Bool)
  adu : Adu
  parts : List (Nat × PartSt)
  img : Image
  boot : BootSt
  stw : StwSt
  resume : Option ResumeSt
  lock : LockSt
  fence : List (Bool × Bytes)
  spdm : List (Nat × SpdmSt)
  tel : TelSt
  deriving DecidableEq, Repr

/-- Present tiles of each rate region of a grade (R24): A512, B448 and C384. -/
def gradeTiles (grade : BitVec 4) : Option Nat := [8, 7, 6][grade.toNat]?
/-- The fabric ports of a grade (R24): C384 has P0 to P11. -/
def gradePorts (grade : BitVec 4) : BitVec 16 := if grade = 2 then 0x0FFF else 0xFFFF
/-- Whether the fuses of tiles and ports are those of the grade (R24): every rate region keeps the grade's number of tiles. -/
def Fuses.gradeOk (f : Fuses) : Bool :=
  f.ports = gradePorts f.grade && f.tiles.length = 8
    && (List.range 64).all (fun n =>
      some ((List.range 8).filter (fun t => ((f.tiles.getD (n / 8) 0).toNat.testBit (n % 8 * 8 + t)))).length = gradeTiles f.grade)

/-- The fuses the model names: an A512 module with every port and tile and all-zero identities. DESIGN CHOICE (log entry 2). -/
def Fuses.named : Fuses :=
  { grade := 0, ports := 0xFFFF, tiles := List.replicate 8 0xFFFFFFFFFFFFFFFF, serial := 0, minSvn := 0, siRev := 0
    rootHash := List.replicate 64 0, keySeed := List.replicate 64 0 }

/-- The module right after reset, when PWRGD rises and calibration begins (R478, R570; log entry 1): every register at its
reset value, every memory and queue empty. -/
def State.reset : State :=
  { pending := [], out := [], free := 0, regs := [], irq := [], cores := [], pwr := {}, fuses := Fuses.named, hosts := []
    lapseMs := 2000, lapseFrom := none, sram := [], sramBad := [], dram := [], dramBad := [], rows := [], rgns := [], late := [], lateUsed := [], tiles := [], idma := []
    ports := [], inbound := [], relay := {}, time := {}, ringIrq := [], adu := {}, parts := [], img := {}, boot := {}, stw := {}
    resume := none, lock := {}, fence := [], spdm := [], tel := {} }

end Sys2Proof.Machine
end

