-- ==== Sys2Proof/Machine/Ops.lean ====
section
/-! DEFINITION. The named operations over State that every family shares: registers and their interrupt lines, ownership of writes,
outputs, free values, partitions, and the raising of faults. -/

namespace Sys2Proof.Machine

/-- The answer of a command. -/
abbrev Res := Host.Outcome State Fault Refusal

/-! Registers (R5 to R9). -/

/-- The value of a register. -/
def State.reg (s : State) (r : Reg) : Word := tget r.info.reset s.regs r.off
/-- The value of a field. -/
def State.fget (s : State) (r : Reg) (f : Fld) : Nat := f.get (s.reg r)
/-- Whether a one-bit field is 1. -/
def State.flag (s : State) (r : Reg) (f : Fld) : Bool := s.fget r f = 1

/-- An interrupt source (R502). -/
def State.src (s : State) (n : Nat) : IrqSrc := tget {} s.irq n
/-- A state with one interrupt source replaced. -/
def State.putSrc (s : State) (n : Nat) (q : IrqSrc) : State := { s with irq := tput {} s.irq n q }

/-- A rising edge on a source's line (R503, R507): PEND is set, and the edge is counted. -/
def IrqSrc.edge (q : IrqSrc) : IrqSrc := { q with pend := true, edges := q.edges + 1 }
/-- A level-OR line takes a level; only a passage from 0 to 1 is an edge (R503). -/
def IrqSrc.level (q : IrqSrc) (v : Bool) : IrqSrc := if v && !q.line then { q.edge with line := v } else { q with line := v }

/-- Whether a tile is present (R24, ID_TILES). -/
def State.tilePresent (s : State) (g : Nat) : Bool := g < 512 && ((s.fuses.tiles.getD (g / 64) 0).toNat.testBit (g % 64))
/-- Whether a fabric port is present (ID_PART.PORTS). -/
def State.portPresent (s : State) (p : Nat) : Bool := p < 16 && s.fuses.ports.toNat.testBit p

/-- The level-OR source that a register feeds (R502). -/
def lineSrc : Reg → Option Nat
  | .RGN_STATUS n => some n
  | .SEQ_FAULT g => some (64 + g)
  | .SEQ_STATUS g => some (64 + g)
  | .BANK_EVENT g => some (64 + g)
  | .SRAM_ECC g => some (64 + g)
  | .MXE_ACC_ECC g => some (64 + g)
  | .VBL_STATUS p => some (576 + p)
  | .TS_TXQ_META p => some (576 + p)
  | .IDMA_EVENT i => some (592 + i)
  | .DR_ECC i => some (596 + i)
  | .DR_STATUS i => some (596 + i)
  | .STG_STATUS => some 600
  | .XING_ALARM => some 601
  | .FT_STATUS => some 602
  | .ROUTE_STATUS => some 603
  | .RLY_STATUS => some 603
  | .ADU_STATUS => some 604
  | .WT_EVENT => some 605
  | .OWN_REQUEST => some 606
  | .HP_STATUS p => some (607 + p)
  | .BOOT_STATE => some 610
  | _ => none

/-- The level of a level-OR source (R502). The line of a fused tile or an absent port never rises. -/
def State.lineLevel (s : State) (n : Nat) : Bool :=
  if n < 64 then (s.reg (.RGN_STATUS n)).toNat &&& 0x2F != 0
  else if n < 576 then
    let g := n - 64
    s.tilePresent g && (s.flag (.SEQ_FAULT g) SEQ_FAULT.VALID || s.flag (.SEQ_STATUS g) SEQ_STATUS.TALLY_REJ
      || s.reg (.BANK_EVENT g) != 0 || s.flag (.SRAM_ECC g) SRAM_ECC.UE || s.flag (.MXE_ACC_ECC g) MXE_ACC_ECC.UE)
  else if n < 592 then
    let p := n - 576
    s.portPresent p && (s.flag (.VBL_STATUS p) VBL_STATUS.BROKE_CREDIT || s.flag (.VBL_STATUS p) VBL_STATUS.BROKE_REPLAY
      || s.flag (.VBL_STATUS p) VBL_STATUS.LAT_DRIFT || s.flag (.TS_TXQ_META p) TS_TXQ_META.TXQ_OVF)
  else if n < 596 then s.reg (.IDMA_EVENT (n - 592)) != 0
  else if n < 600 then s.flag (.DR_ECC (n - 596)) DR_ECC.UE || s.fget (.DR_STATUS (n - 596)) DR_STATUS.RATE = 3
  else if n = 600 then s.flag .STG_STATUS STG_STATUS.HOLDOVER || s.flag .STG_STATUS STG_STATUS.REF_LOSS
  else if n = 601 then s.reg .XING_ALARM != 0
  else if n = 602 then (s.reg .FT_STATUS).toNat &&& 0x3C != 0
  else if n = 603 then s.flag .ROUTE_STATUS ROUTE_STATUS.ROUTE_REJ || (s.reg .RLY_STATUS).toNat &&& 0x38 != 0
  else if n = 604 then s.flag .ADU_STATUS ADU_STATUS.RING || s.flag .ADU_STATUS ADU_STATUS.CMD_REJ
  else if n = 605 then s.reg .WT_EVENT != 0
  else if n = 606 then s.reg .OWN_REQUEST != 0
  else if n = 607 || n = 608 then (s.reg (.HP_STATUS (n - 607))).toNat &&& 0xF0000 != 0
  else if n = 610 then s.flag .BOOT_STATE BOOT_STATE.LOAD_REJ
  else false

/-- A register with its stored value replaced, lines untouched. -/
def State.putReg (s : State) (r : Reg) (v : Word) : State := { s with regs := tput r.info.reset s.regs r.off v }
/-- The line of a source takes the level that the registers give it. -/
def State.refreshLine (s : State) (n : Nat) : State := s.putSrc n ((s.src n).level (s.lineLevel n))
/-- A register takes a value, and the line it feeds follows (R502, R503). -/
def State.setReg (s : State) (r : Reg) (v : Word) : State :=
  match lineSrc r with
  | none => s.putReg r v
  | some n => (s.putReg r v).refreshLine n
/-- A field takes a value; it wraps to the field's width. -/
def State.fset (s : State) (r : Reg) (f : Fld) (v : Nat) : State := s.setReg r (f.set (s.reg r) v)
/-- A field counts up, wrapping at its width. -/
def State.fadd (s : State) (r : Reg) (f : Fld) (n : Nat) : State := s.fset r f (s.fget r f + n)
/-- A field counts up and stays at its greatest value. -/
def State.fsat (s : State) (r : Reg) (f : Fld) (n : Nat) : State := s.fset r f (min (s.fget r f + n) (2 ^ f.len - 1))
/-- Several registers take values in turn. -/
def State.setRegs (s : State) (l : List (Reg × Word)) : State := l.foldl (fun s e => s.setReg e.1 e.2) s
/-- A register returns to its reset value. -/
def State.resetReg (s : State) (r : Reg) : State := s.setReg r r.info.reset

/-- A pulse source has one event (R502, R503). -/
def State.pulse (s : State) (n : Nat) : State := s.putSrc n (s.src n).edge

/-! Writes and who may make them (R7, R465). -/

/-- The value of a write in place: a half access stands in its own half (R7). -/
def accWide (a : Acc) : Word :=
  match a.size with
  | .full => a.val
  | .lo => a.val &&& 0xFFFFFFFF
  | .hi => a.val <<< 32
/-- The bits a write addresses (R7). -/
def accMask (a : Acc) : Word :=
  match a.size with
  | .full => 0xFFFFFFFFFFFFFFFF
  | .lo => 0xFFFFFFFF
  | .hi => 0xFFFFFFFF00000000
/-- What the addressed part of a register would hold: the written half over the old other half (R7). -/
def accOver (a : Acc) (old : Word) : Word := (old &&& ~~~(accMask a)) ||| (accWide a &&& accMask a)

/-- A write applied to a register value by its field kinds (R6, R7 and the access codes). -/
def RegInfo.write (i : RegInfo) (old : Word) (a : Acc) : Word :=
  let v := accWide a &&& accMask a
  ((((old &&& ~~~(i.rw &&& accMask a)) ||| (v &&& i.rw)) &&& ~~~(v &&& i.w1c)) ||| (v &&& i.w1s))
/-- A write that changes only the W1C fields. -/
def RegInfo.clears (i : RegInfo) (old : Word) (a : Acc) : Word := old &&& ~~~(accWide a &&& accMask a &&& i.w1c)
/-- A plain register write. -/
def State.plainWrite (s : State) (r : Reg) (a : Acc) : State := s.setReg r (r.info.write (s.reg r) a)

/-- A field keeps its old value where a write would put it out of range (log entry 49). -/
def keepField (f : Fld) (old v : Word) (lo hi : Nat) : Word := if f.get v < lo || hi < f.get v then f.set v (f.get old) else v

/-- The port that owns the module (R465). -/
def State.owner (s : State) : Option Nat :=
  if s.flag .OWN_STATUS OWN_STATUS.OWNED then some (s.fget .OWN_STATUS OWN_STATUS.OWNER) else none
/-- Whether a writer's writes to owner-only registers apply. Steward cores reach every register (R500). -/
def State.mayWrite (s : State) : Writer → Bool
  | .steward => true
  | .host p => s.owner = some p.val
/-- A write discarded under the ownership rules, counted (R465, HP_STATUS.DISCARD). -/
def State.discard (s : State) : Writer → State
  | .steward => s
  | .host p => (s.fadd (.HP_COUNT p) HP_COUNT.DISCARDS 1).fset (.HP_STATUS p) HP_STATUS.DISCARD 1
/-- An owner-only write: it applies for the owner and the Steward, and is discarded and counted otherwise. -/
def State.owned (s : State) (w : Writer) (f : State → State) : State := if s.mayWrite w then f s else s.discard w

/-! Outputs and free values. -/

/-- One more output of the command. -/
def State.emit (s : State) (o : Out) : State := { s with out := s.out ++ [o] }
/-- A free number below `n`; the counter advances. -/
def State.freeBelow (s : State) (n : Nat) : Nat × State := (Config.freeNat s.free % max n 1, { s with free := s.free + 1 })
/-- `n` free bytes; the counter advances past them. -/
def State.freeBytes (s : State) (n : Nat) : Bytes × State :=
  ((List.range n).map (fun i => Config.freeByte (s.free + i)), { s with free := s.free + n })

/-! Sparse parts of State. -/

/-- A tile beside its registers. -/
def State.tile (s : State) (g : Nat) : Tile := tget {} s.tiles g
/-- A state with one tile replaced. -/
def State.putTile (s : State) (g : Nat) (t : Tile) : State := { s with tiles := tput {} s.tiles g t }
/-- A tile changed by a function. -/
def State.modTile (s : State) (g : Nat) (f : Tile → Tile) : State := s.putTile g (f (s.tile g))
/-- A rate region beside its registers. -/
def State.rgn (s : State) (n : Nat) : RgnSt := tget {} s.rgns n
/-- A rate region changed by a function. -/
def State.modRgn (s : State) (n : Nat) (f : RgnSt → RgnSt) : State := { s with rgns := tmod {} s.rgns n f }
/-- A fabric port beside its registers. -/
def State.port (s : State) (p : Nat) : PortSt := tget {} s.ports p
/-- A fabric port changed by a function. -/
def State.modPort (s : State) (p : Nat) (f : PortSt → PortSt) : State := { s with ports := tmod {} s.ports p f }
/-- A host port beside its registers. -/
def State.host (s : State) (p : Nat) : HostSt := tget {} s.hosts p
/-- A host port changed by a function. -/
def State.modHost (s : State) (p : Nat) (f : HostSt → HostSt) : State := { s with hosts := tmod {} s.hosts p f }
/-- A partition beside its registers. -/
def State.part (s : State) (p : Nat) : PartSt := tget {} s.parts p
/-- A partition changed by a function. -/
def State.modPart (s : State) (p : Nat) (f : PartSt → PartSt) : State := { s with parts := tmod {} s.parts p f }

/-! Stages, partitions and identities. -/

/-- The stage counter (R32). -/
def State.stage (s : State) : Nat := (s.reg .STG_COUNT).toNat
/-- The stage length in ns that a length code gives (STG_CFG.LEN). -/
def lenNs (code : Nat) : Nat := 512 * 2 ^ code
/-- The stage length in force. While no module epoch is set this is the idle grid's 2,048 ns (R588). -/
def State.stageNs (s : State) : Nat := lenNs (s.fget .STG_CFG STG_CFG.LEN)
/-- The states of a partition (PART_STATE). -/
def pNONE : Nat := 0
/-- LOADED -/
def pLOADED : Nat := 1
/-- RUNNING -/
def pRUNNING : Nat := 2
/-- HALTED -/
def pHALTED : Nat := 3
/-- The state of a partition. -/
def State.pstate (s : State) (p : Nat) : Nat := s.fget (.PART_STATE p) PART_STATE.STATE
/-- A partition changes state, which pulses its source (R502, 615 to 622). -/
def State.setPstate (s : State) (p v : Nat) : State :=
  if s.pstate p = v then s else (s.fset (.PART_STATE p) PART_STATE.STATE v).pulse (615 + p)
/-- The partition that holds a rate region (R489, PARTITIONS). -/
def State.partOfRgn (s : State) (n : Nat) : Option Nat :=
  (List.range 8).find? (fun p => ((s.img.masks.getD p 0).toNat.testBit n))
/-- The partition that holds a tile. -/
def State.partOfTile (s : State) (g : Nat) : Option Nat := s.partOfRgn (g / 8)
/-- The plan of a tile's partition, while one is loaded. -/
def State.planOfTile (s : State) (g : Nat) : Option Plan := (s.partOfTile g).bind (fun p => (s.part p).plan)
/-- A partition's plan stage at a stage counter value (R529); negative before its plan stage 0. -/
def State.planStage (s : State) (p stage : Nat) : Int := (stage : Int) - (s.part p).shift
/-- The physical tile of a logical tile (R489, TILE_MAP). -/
def State.gtOfLt (s : State) (lt : Nat) : Option Nat := s.img.tileMap[lt]?
/-- The logical tile of a physical tile. -/
def State.ltOfGt (s : State) (g : Nat) : Option Nat := s.img.tileMap.findIdx? (· == g)
/-- The partitions that have a plan loaded. -/
def State.loadedParts (s : State) : List Nat := (List.range 8).filter (fun p => s.pstate p != pNONE)
/-- The serving partition, while one has a plan loaded (PART_STATE.SERVING). -/
def State.servingPart (s : State) : Option Nat :=
  s.loadedParts.find? (fun p => s.flag (.PART_STATE p) PART_STATE.SERVING)
/-- The logical tiles a plan gives tile streams, as physical tiles. -/
def State.planTiles (s : State) (pl : Plan) : List Nat := ((List.range pl.ltCount).map (· + pl.ltBase)).filterMap s.gtOfLt
/-- The tiles of a partition (R489). -/
def State.partTiles (s : State) (p : Nat) : List Nat := (List.range 512).filter (fun g => s.partOfTile g = some p)

/-! Boot and power. -/

/-- The boot state (BOOT_STATE.STATE). -/
def State.boot_ (s : State) : Nat := s.fget .BOOT_STATE BOOT_STATE.STATE
/-- Whether the Steward firmware's services exist: RUNNING or READY (R485), with its cores running (R501). -/
def State.stewardUp (s : State) : Bool := (s.boot_ = 3 || s.boot_ = 4) && s.fget .STW_STATUS STW_STATUS.RUNNING != 0
/-- A calibration phase has failed (R478); after firmware that is not ready in time the causes of R485 stand in CAUSE instead. -/
def State.calFailed (s : State) : Bool :=
  s.boot_ = 7 && 1 ≤ s.fget .BOOT_STATE BOOT_STATE.CAUSE && s.fget .BOOT_STATE BOOT_STATE.CAUSE ≤ 5
/-- Whether the dies act: PWRGD is high (R570), and no calibration phase has failed (R478). -/
def State.alive (s : State) : Bool :=
  s.pwr.phase = .up && !s.calFailed
/-- What the dies leave of `s` when they pass to `t`: the waiting commands, the fuses (R476) and the power controller (R567) are
outside the dies, and no work of the dies changes them. -/
def State.keepOuter (s t : State) : State := { t with pending := s.pending, fuses := s.fuses, pwr := s.pwr }
/-- A device command: it acts while the dies act, and otherwise changes nothing. -/
def live (s : State) (f : State → State) : Res :=
  .next (if s.alive then s.keepOuter (f { s with out := [] }) else { s with out := [] })
/-- A device stop is in force (R526). -/
def State.stopped (s : State) : Bool := s.flag .FLT_STATUS FLT_STATUS.STOPPED

/-! Raising faults (R515 to R522). -/

/-- FLAG, a fault class (R515). -/
def cFLAG : Nat := 0
/-- STAGE_ABORT -/
def cABORT : Nat := 1
/-- DEVICE_STOP -/
def cSTOP : Nat := 2

/-- A fault to raise: code and class (R516, R518), origin and its number, agent and address (FLT_LOG), faulting stage where a rule
names one (R519), and the partitions it affects. -/
structure Raise where
  code : Nat
  cls : Nat := 1
  origin : Nat := 4
  id : Nat := 0
  agent : Nat := 0
  addr : Nat := 0
  fstage : Option Nat := none
  parts : List Nat := []
  deriving DecidableEq, Repr

/-- `FAULT_N` follows the conditions of R527. -/
def State.refreshFaultN (s : State) : State :=
  let on := s.stopped || s.calFailed || s.flag .FLT_STATUS FLT_STATUS.STEWARD_UE
    || (List.range 8).any (fun p => s.pstate p = pHALTED && s.flag (.PART_FLT p) PART_FLT.VALID)
  s.fset .FLT_STATUS FLT_STATUS.FAULT_N (b2n on)

/-- A halting fault reaches one partition: its halt boundary and faulting stage are set, and the first such fault is recorded
(R521, R522). Only a RUNNING partition halts. -/
def State.abortPart (s : State) (code cls entry fstage p : Nat) : State :=
  if s.pstate p != pRUNNING then s
  else
    let at_ := max fstage s.stage + 1
    let q := s.part p
    let least := match q.fstage with | none => fstage | some f => min f fstage
    let s := if q.fstage = none then
        s.setReg (.PART_FLT p) (BitVec.ofNat 64 (code + cls <<< 8 + (entry % 256) <<< 16)) else s
    let s := s.fset (.PART_FLT p) PART_FLT.FSTAGE least
    s.modPart p (fun q => { q with haltAt := some (match q.haltAt with | none => at_ | some a => min a at_), fstage := some least })

/-- Whether a code stands in the fault table; the others are never raised (R516). -/
def knownCode (c : Nat) : Bool := 1 ≤ c && c ≤ 0x17
/-- A fault is raised: one log entry, one pulse of source 614, and the halt of each affected RUNNING partition (R520 to R522).
Against partitions of which every loaded one is HALTED the class is FLAG (R525). A code that is not in the fault table, which a packet or
an INIT frame from outside may carry, raises nothing (R516, log entry 85). -/
def State.raise (s : State) (r : Raise) : State :=
  if !knownCode r.code then s else
  let hit := r.parts.filter (fun p => s.pstate p != pNONE)
  let cls := if r.cls = cABORT && !hit.isEmpty && hit.all (fun p => s.pstate p = pHALTED) then cFLAG else r.cls
  let entry := (s.reg .FLT_LOG_IDX).toNat
  let i := entry % 256
  let f := r.fstage.getD s.stage
  let pv := match r.parts with | [p] => (p <<< 26) + (1 <<< 29) | _ => 0
  let w0 := r.code + cls <<< 8 + r.origin <<< 12 + (r.id % 1024) <<< 16 + pv + (r.agent % 16) <<< 32
  let s := s.setRegs [(.FLT_LOG i 0, BitVec.ofNat 64 w0), (.FLT_LOG i 1, BitVec.ofNat 64 f),
    (.FLT_LOG i 2, BitVec.ofNat 64 r.addr), (.FLT_LOG i 3, s.time.ns), (.FLT_LOG_IDX, BitVec.ofNat 64 (entry + 1))]
  let s := s.pulse 614
  if cls = cABORT then r.parts.foldl (fun s p => s.abortPart r.code cABORT i f p) s else s

/-- A fault with a tile as its origin: the tile's SEQ_FAULT takes it, and the tile's partition is affected (R516, R546; SEQ_FAULT
keeps the first fault and MORE the fact of a later one). -/
def State.raiseTile (s : State) (g agent code : Nat) (fstage : Option Nat := none) (addr : Nat := 0) : State :=
  if !knownCode code then s else
  let f := fstage.getD s.stage
  let s := if s.flag (.SEQ_FAULT g) SEQ_FAULT.VALID then s.fset (.SEQ_FAULT g) SEQ_FAULT.MORE 1
    else s.setReg (.SEQ_FAULT g) (BitVec.ofNat 64 (code + (agent % 16) <<< 8 + (f % 2 ^ 32) <<< 16 + 1 <<< 48))
  s.raise { code := code, origin := 0, id := g, agent := agent, addr := addr, fstage := some f, parts := (s.partOfTile g).toList }

/-! Fault codes (R516). -/

/-- OWNER -/
def fOWNER : Nat := 0x01
/-- BOUNDS -/
def fBOUNDS : Nat := 0x02
/-- ABSENT -/
def fABSENT : Nat := 0x03
/-- DECODE -/
def fDECODE : Nat := 0x04
/-- INDEX -/
def fINDEX : Nat := 0x05
/-- TALLY_WAIT -/
def fTALLY_WAIT : Nat := 0x06
/-- OVERSTAY -/
def fOVERSTAY : Nat := 0x07
/-- SRAM_UE -/
def fSRAM_UE : Nat := 0x08
/-- DRAM_UE -/
def fDRAM_UE : Nat := 0x09
/-- LINK_CREDIT -/
def fLINK_CREDIT : Nat := 0x0A
/-- LINK_REPLAY -/
def fLINK_REPLAY : Nat := 0x0B
/-- REF_LOSS -/
def fREF_LOSS : Nat := 0x0C
/-- TIME_JUMP -/
def fTIME_JUMP : Nat := 0x0D
/-- POWER -/
def fPOWER : Nat := 0x0E
/-- THERMAL -/
def fTHERMAL : Nat := 0x0F
/-- LOCKSTEP -/
def fLOCKSTEP : Nat := 0x10
/-- FENCED -/
def fFENCED : Nat := 0x11
/-- IMAGE -/
def fIMAGE : Nat := 0x12
/-- RING -/
def fRING : Nat := 0x13
/-- HOST_DOWN -/
def fHOST_DOWN : Nat := 0x14
/-- D2D -/
def fD2D : Nat := 0x15
/-- RELAY -/
def fRELAY : Nat := 0x16
/-- FORMAT -/
def fFORMAT : Nat := 0x17
/-- Every partition (R516). -/
def allParts : List Nat := List.range 8

/-! Fabric time and the time base (R367, R368, R384, R588). -/

/-- The rate adjustment in force (R367, FT_RATE). -/
def State.rate (s : State) : Int := toInt 40 (s.fget .FT_RATE FT_RATE.RATE)
/-- What fabric time gains in 2^-80 ns while the time base gains 2^-32 ns (R367). -/
def State.gain (s : State) : Nat := (2 ^ 48 + s.rate).toNat
/-- Fabric time in units of 2^-80 ns. Nothing of the rate's product is lost below the 32-bit fraction (DESIGN CHOICE, log entry 86). -/
def State.fabric (s : State) : Nat := (s.time.ns.toNat * 2 ^ 32 + s.time.frac.toNat) * 2 ^ 48 + s.time.sub
/-- Fabric time takes a value in units of 2^-80 ns. -/
def State.setFabric (s : State) (t : Nat) : State :=
  { s with time := { s.time with ns := BitVec.ofNat 64 (t / 2 ^ 80), frac := BitVec.ofNat 32 (t / 2 ^ 48), sub := t % 2 ^ 48 } }
/-- HOLD_US follows the holdover in progress, whose length is at most the limit (R71, R73); after REF_LOSS it stays (log entry 96). -/
def State.holdUs (s : State) : State :=
  match s.time.holdFrom with
  | none => s
  | some b =>
    if s.time.refLost then s
    else s.fset .STG_STATUS STG_STATUS.HOLD_US (min (s.fget .HOLD_LIMIT HOLD_LIMIT.LIMIT_US) ((s.time.base - b) / (1000 * 2 ^ 32)))
/-- LAPSE_LEFT_MS follows the count of the owner's link, in ms of the time base (R472). -/
def State.lapseLeft (s : State) : State :=
  match s.lapseFrom with
  | none => s
  | some b => s.fset .OWN_STATUS OWN_STATUS.LAPSE_LEFT_MS (s.lapseMs.toNat - (s.time.base - b) / (1000000 * 2 ^ 32))
/-- The time base gains `d` units of 2^-32 ns, and fabric time follows at its rate (R367). -/
def State.pass (s : State) (d : Nat) : State :=
  let s := s.setFabric (s.fabric + d * s.gain)
  ({ s with time := { s.time with base := s.time.base + d } }).holdUs.lapseLeft
/-- The distance of boundaries: 2,048 ns on the idle grid, the stage length once a module epoch is set (R588). -/
def State.gridNs (s : State) : Nat := if s.time.epochSet then s.stageNs else 2048
/-- The fabric time of the next stage boundary: the idle grid while no module epoch is set, else the epoch's grid (R384, R588). -/
def State.nextBoundary (s : State) : Nat :=
  let now := s.time.ns.toNat
  let l := s.gridNs
  let e := (s.reg .FT_EPOCH).toNat
  if !s.time.epochSet then (now / l + 1) * l
  else if s.time.arrived then e + (s.stage + 1) * l
  else if now < e then e - ((e - now - 1) / l) * l
  else e + ((now - e) / l + 1) * l
/-- The fabric time of the last boundary, at which the stage in progress began (R315). -/
def State.stageStart (s : State) : Nat := s.nextBoundary - s.gridNs
/-- What has passed on the time base, in units of 2^-32 ns. -/
def timeUnits (t : TimeIn) : Nat := t.ns * 2 ^ 32 + t.frac.toNat
/-- Time passes, but never to the next boundary, which is a command of its own. -/
def State.advance (s : State) (t : TimeIn) : Option State :=
  if s.nextBoundary * 2 ^ 80 ≤ s.fabric + timeUnits t * s.gain then none else some (s.pass (timeUnits t))
/-- A command at a moment of its own; one that names a moment at or past the next boundary is none. -/
def State.atTime (s : State) (t : TimeIn) (f : State → State) : State := match s.advance t with | none => s | some r => f r
/-- Time passes by a free amount within the stage in progress (log entry 31). -/
def State.passSome (s : State) : State :=
  let r := s.freeBelow ((s.nextBoundary * 2 ^ 80 - s.fabric - 1) / max s.gain 1 + 1)
  r.2.pass r.1
/-- Time passes to the next boundary. -/
def State.passStage (s : State) : State :=
  let t := s.nextBoundary * 2 ^ 80
  let d := divUp (t - s.fabric) (max s.gain 1)
  let s := s.setFabric t
  ({ s with time := { s.time with base := s.time.base + d } }).holdUs.lapseLeft
/-- A quotient rounded to a whole number; which way is open where it is not whole. -/
def State.roundOpen (s : State) (a : Int) (d : Nat) : Int × State :=
  if a % d = 0 then (a / d, s) else let r := s.freeBelow 2; (a / d + r.1, r.2)
/-- Fabric time in ps; the spec does not say how it is rounded. -/
def State.nowPs (s : State) : Int × State := s.roundOpen (s.fabric * 1000) (2 ^ 80)
/-- The timestamp of this moment, resolved to 2^-16 ns (R371); the spec does not say how it is rounded. -/
def State.nowTs (s : State) : Ts × State := s.roundOpen s.fabric (2 ^ 64)

/-! Reads (R7). -/

/-- The part of a register's value that a read addresses (R7). -/
def readPart (z : Sz) (v : Word) : Word := match z with | .full => v | .lo => v &&& 0xFFFFFFFF | .hi => v >>> 32

/-! MSI-X (R463, R464). -/

/-- Whether a vector may be sent now: Enable set, Function Mask and its own Mask clear. Mask is bit 32 of the entry's second word. -/
def State.msixOpen (s : State) (p v : Nat) : Bool :=
  let h := s.host p
  h.msixEn && !h.fmask && !((tget 0x100000000 h.msix (2 * v + 1)).toNat.testBit 32)
/-- The module sends a vector on a port: dropped and counted while the link is down, pending while masked (R464). -/
def State.sendMsix (s : State) (p v : Nat) : State :=
  if !s.flag (.HP_STATUS p) HP_STATUS.LINK_UP then s.fadd (.HP_COUNT p) HP_COUNT.MSI_DROP 1
  else if s.msixOpen p v then s.emit (.msix (if p = 0 then 0 else 1) v)
  else s.modHost p (fun h => { h with pba := if h.pba.contains v then h.pba else h.pba ++ [v] })

end Sys2Proof.Machine
end

