-- ==== Sys2Proof/Machine/Link.lean ====
section
/-! DEFINITION. The Volbago Link (spec/10_volbago_link.md R310 to R339): frames, slots, parcels, the replay and receive buffers,
credit returns, breaks and epochs, probes and calibration frames. -/

namespace Sys2Proof.Machine

/-! Frames (R312, R313). -/

/-- One bit of the reflected CRC-32C. -/
def crcBit (c : BitVec 32) : BitVec 32 := if c.getLsbD 0 then (c >>> 1) ^^^ 0x82F63B78 else c >>> 1
/-- One byte of the CRC. -/
def crcByte (c : BitVec 32) (b : Byte) : BitVec 32 :=
  crcBit (crcBit (crcBit (crcBit (crcBit (crcBit (crcBit (crcBit (c ^^^ b.setWidth 32))))))))
/-- CRC-32C (R313). -/
def crc32c (b : Bytes) : BitVec 32 := (b.foldl crcByte 0xFFFFFFFF) ^^^ 0xFFFFFFFF
/-- Bytes 0 to 283 of a frame (R312). -/
def frameBytes (f : Frame) : Bytes :=
  toLe 2 f.seq.toNat ++ [f.kind, f.flags] ++ toLe 2 f.valid.toNat ++ toLe 2 f.epoch.toNat ++ toLe 4 f.stage.toNat
    ++ toLe 2 f.slot.toNat ++ List.replicate 14 0 ++ padTo 256 f.body
/-- Whether a frame passes its CRC (R314). -/
def frameCrcOk (f : Frame) : Bool := f.crc = crc32c (frameBytes f)
/-- A frame with the CRC of its bytes. -/
def withCrc (f : Frame) : Frame := { f with crc := crc32c (frameBytes f) }

/-- The frame kinds. -/
def kIDLE : Nat := 0
/-- DATA -/
def kDATA : Nat := 1
/-- CONTROL -/
def kCONTROL : Nat := 2
/-- PROBE -/
def kPROBE : Nat := 3
/-- CAL -/
def kCAL : Nat := 4
/-- INIT -/
def kINIT : Nat := 5

/-- The link states (VBL_STATUS.STATE). -/
def lDISABLED : Nat := 0
/-- Training -/
def lTRAINING : Nat := 1
/-- INIT -/
def lINIT : Nat := 2
/-- UP -/
def lUP : Nat := 3
/-- DOWN -/
def lDOWN : Nat := 4
/-- The state of a port's link. -/
def State.lstate (s : State) (p : Nat) : Nat := s.fget (.VBL_STATUS p) VBL_STATUS.STATE
/-- The port that the time client uses: the time port, or the backup port while the time port is not UP (R373, FT_CTRL). -/
def State.timePort (s : State) : Nat :=
  let p := s.fget .FT_CTRL FT_CTRL.PORT
  if s.lstate p != lUP && s.flag .FT_CTRL FT_CTRL.BACKUP_VALID then s.fget .FT_CTRL FT_CTRL.BACKUP else p
/-- ON_BACKUP follows the port in use (FT_STATUS). -/
def State.refreshBackup (s : State) : State :=
  s.fset .FT_STATUS FT_STATUS.ON_BACKUP (b2n (s.flag .FT_CTRL FT_CTRL.CLIENT_EN && s.timePort != s.fget .FT_CTRL FT_CTRL.PORT))
/-- The link of a port passes to a state; the time client's port follows. -/
def State.setLstate (s : State) (p v : Nat) : State := (s.fset (.VBL_STATUS p) VBL_STATUS.STATE v).refreshBackup
/-- Whether a port carries frames (R311). -/
def State.locked (s : State) (p : Nat) : Bool := s.fget (.VBL_STATUS p) VBL_STATUS.LANE_LOCK = 15

/-! Slots (R315 to R320). -/

/-- The start of a slot of the stage in progress, in ps of fabric time (R315). -/
def State.slotPs (s : State) (t : Nat) : Nat := s.stageStart * 1000 + t * 2880

/-- The slots of a stage by length code (R315). -/
def slotsOf (code : Nat) : Nat := [177, 355, 711, 1422, 2844].getD code 711
/-- The least REPAIR and CATCHUP slots of a stage by length code (R315). -/
def minRepair (code : Nat) : Nat := [9, 18, 36, 72, 143].getD code 36
/-- The least CATCHUP slots (R315). -/
def minCatchup (code : Nat) : Nat := [5, 9, 18, 36, 72].getD code 18
/-- Slot `i` of a pattern held in two words (R316). -/
def patClass (p0 p1 : Word) (i : Nat) : Nat := if i < 32 then bits p0.toNat (2 * i + 1) (2 * i) else bits p1.toNat (2 * (i - 32) + 1) (2 * (i - 32))
/-- The slots of a class in a stage of `n` slots under a pattern. -/
def patCount (plen : Nat) (p0 p1 : Word) (n cls : Nat) : Nat :=
  ((List.range plen).map (fun i => if patClass p0 p1 i = cls then (n + plen - 1 - i) / plen else 0)).sum
/-- The default pattern (R318): PLEN 20, slot 0 REPAIR, the others SERVICE. -/
def defPat : Nat × Word × Word := (20, 0x000000AAAAAAAAA8, 0)
/-- A port runs a pattern from now on (VBL_SLOTS, VBL_PATTERN0, VBL_PATTERN1). -/
def State.setPattern (s : State) (p plen : Nat) (p0 p1 : Word) : State :=
  let n := slotsOf (s.fget .STG_CFG STG_CFG.LEN)
  let s := s.setRegs [(.VBL_PATTERN0 p, p0), (.VBL_PATTERN1 p, p1)]
  let s := (s.fset (.VBL_SLOTS p) VBL_SLOTS.S n).fset (.VBL_SLOTS p) VBL_SLOTS.PLEN plen
  (s.fset (.VBL_SLOTS p) VBL_SLOTS.REPAIR (patCount plen p0 p1 n 0)).fset (.VBL_SLOTS p) VBL_SLOTS.CATCHUP (patCount plen p0 p1 n 1)
/-- The class of a slot (R316). -/
def State.slotClass (s : State) (p t : Nat) : Nat :=
  patClass (s.reg (.VBL_PATTERN0 p)) (s.reg (.VBL_PATTERN1 p)) (t % max 1 (s.fget (.VBL_SLOTS p) VBL_SLOTS.PLEN))

/-! Parcels and packets (R321). -/

/-- The parcels of a packet (R321). -/
def parcelsOf (b : Bytes) : List Parcel :=
  let c := chunksOf 256 (b.length / 256 + 1) b
  c.zipIdx.map (fun e => { data := e.1, first := e.2 = 0, last := e.2 + 1 = c.length })
/-- The bytes of a packet as its header gives them, or none for a reserved OPC (R289): only PUT, SET, CLEAR, GET data and management
packets carry payload. -/
def pktTotal (b : Bytes) : Option Nat :=
  let o := leAt b 18 1
  if o = 1 || o = 6 || o = 7 then some 32
  else if o = 2 || o = 3 || o = 4 || o = 5 || o = 8 then some (32 + leAt b 20 2) else none
/-- Whether a parcel continues an open packet: the last one ends it, and any other is full and leaves a remainder. -/
def fitsPkt (b : Bytes) (q : Parcel) : Bool :=
  match pktTotal b with
  | none => true
  | some n => if q.last then n = b.length + q.data.length else q.data.length = 256 && b.length + 256 < n
/-- A consumed parcel joins its packet (R324); parcels of several packets may alternate, and a parcel joins the first open packet that
it fits (log entry 9). A packet that is complete waits in `inbound`. -/
def State.assemble (s : State) (p : Port) (q : Parcel) : State :=
  let o := (s.port p).asm
  if q.first then
    if q.last then { s with inbound := s.inbound ++ [(p, q.data)] } else s.modPort p (fun t => { t with asm := t.asm ++ [q.data] })
  else match o.findIdx? (fun b => fitsPkt b q) with
    | none => s
    | some i =>
      let b := o.getD i [] ++ q.data
      if q.last then { (s.modPort p (fun t => { t with asm := t.asm.eraseIdx i })) with inbound := s.inbound ++ [(p, b)] }
      else s.modPort p (fun t => { t with asm := t.asm.set i b })
/-- A delivered packet leaves `inbound`. -/
def State.takeInbound (s : State) (p : Port) (b : Bytes) : State := { s with inbound := s.inbound.erase (p, b) }

/-! The sender (R327 to R331). -/

/-- (NEXT − CRED − 1) mod 2^16 (R327). -/
def State.outstanding (s : State) (p : Nat) : Nat :=
  (s.fget (.VBL_TX p) VBL_TX.NEXT + 2 ^ 17 - s.fget (.VBL_TX p) VBL_TX.CRED - 1) % 2 ^ 16
/-- OUTSTANDING, STALL and MAX_RETX follow the sender's state. -/
def State.refreshTx (s : State) (p : Nat) : State :=
  let n := s.outstanding p
  let s := s.fset (.VBL_TX p) VBL_TX.OUTSTANDING n
  let s := s.fset (.VBL_TX p) VBL_TX.MAX_RETX ((s.port p).replay.foldl (fun a r => max a r.retx) 0)
  s.fset (.VBL_STATUS p) VBL_STATUS.STALL (b2n (16384 ≤ n))
/-- WAITING and MAX follow the late parcels (R68, VBL_CATCHUP). -/
def State.refreshCatchup (s : State) (p : Nat) : State :=
  let n := ((s.port p).txLate.map (fun q => q.parcel.data.length)).sum
  let s := s.fset (.VBL_CATCHUP p) VBL_CATCHUP.WAITING n
  s.fset (.VBL_CATCHUP p) VBL_CATCHUP.MAX (max n (s.fget (.VBL_CATCHUP p) VBL_CATCHUP.MAX))
/-- Whether a planned slot comes before another one, by stage and then slot. -/
def slotLt (a b : Nat × Nat) : Bool := a.1 < b.1 || (a.1 = b.1 && a.2 < b.2)
/-- A late parcel takes its place among the late parcels, by planned slot (R67). -/
def insertLate (q : TxParcel) : List TxParcel → List TxParcel
  | [] => [q]
  | r :: t => if slotLt (q.planned.getD (0, 0)) (r.planned.getD (0, 0)) then q :: r :: t else r :: insertLate q t
/-- Parcels become late on a port (R67, R320, R346). -/
def State.makeLate (s : State) (p : Nat) (l : List TxParcel) : State :=
  if l.isEmpty then s else (s.modPort p (fun t => { t with txLate := l.foldl (fun a q => insertLate q a) t.txLate })).refreshCatchup p
/-- The parcels whose planned slot has passed become late (R320). -/
def State.lateNow (s : State) (p stage slot : Nat) : State :=
  let passed (q : TxParcel) : Bool := match q.planned with | none => false | some e => slotLt e (stage, slot)
  let l := (s.port p).txPlan.filter passed
  (s.modPort p (fun t => { t with txPlan := t.txPlan.filter (fun q => !passed q) })).makeLate p l
/-- A frame that a port sends (R312). -/
def State.frameOf (s : State) (p kind cls retx slot : Nat) (seq valid : Nat) (fl : Nat) (body : Bytes) : Frame :=
  withCrc { seq := BitVec.ofNat 16 seq, kind := BitVec.ofNat 8 kind, flags := BitVec.ofNat 8 (fl + cls * 4 + retx * 16)
            valid := BitVec.ofNat 16 valid, epoch := BitVec.ofNat 16 (s.fget (.VBL_STATUS p) VBL_STATUS.EPOCH)
            stage := BitVec.ofNat 32 s.stage, slot := BitVec.ofNat 16 slot, body := padTo 256 body, crc := 0 }
/-- A frame leaves the port, or stays on the near-end loop while LOOPBACK is in force (VBL_CTRL). -/
def State.putFrame (s : State) (p : Port) (f : Frame) : State :=
  if (s.port p).loop then s.modPort p (fun t => { t with loopq := t.loopq ++ [f] }) else s.emit (.frame p f)
/-- A port sends a frame that carries no parcel. -/
def State.sendPlain (s : State) (p : Port) (kind cls slot : Nat) (body : Bytes) : State :=
  s.putFrame p (s.frameOf p kind cls 0 slot 0 0 0 body)
/-- A port sends a parcel as DATA. -/
def State.sendData (s : State) (p : Port) (cls slot seq retx : Nat) (q : Parcel) : State :=
  s.putFrame p (s.frameOf p kDATA cls retx slot seq q.data.length (b2n q.first + 2 * b2n q.last) q.data)
/-- A new parcel goes out for the first time (R322, R327). -/
def State.sendNew (s : State) (p : Port) (cls slot : Nat) (q : Parcel) : State :=
  let n := s.fget (.VBL_TX p) VBL_TX.NEXT
  let s := s.sendData p cls slot n 0 q
  let s := s.modPort p (fun t => { t with
    replay := t.replay ++ [{ seq := BitVec.ofNat 16 n, parcel := q, retx := 0, acked := false, queued := false, order := t.order }]
    order := t.order + 1 })
  ((s.fset (.VBL_TX p) VBL_TX.NEXT (n + 1)).fadd (.VBL_TXCOUNT p) VBL_TXCOUNT.DATA 1).refreshTx p
/-- The queued retransmission with the lowest SEQ, counted from CRED (R330). -/
def State.nextRetx (s : State) (p : Nat) : Option Replay :=
  let cred := s.fget (.VBL_TX p) VBL_TX.CRED
  let dist (r : Replay) : Nat := (r.seq.toNat + 2 ^ 16 - cred) % 2 ^ 16
  ((s.port p).replay.filter (·.queued)).foldl (fun (a : Option Replay) r =>
    match a with | none => some r | some b => if dist r < dist b then some r else some b) none
/-- A retransmission goes out (R329). -/
def State.sendRetx (s : State) (p : Port) (slot : Nat) (r : Replay) : State :=
  let s := s.sendData p 0 slot r.seq.toNat (r.retx + 1) r.parcel
  let s := s.modPort p (fun t => { t with
    replay := t.replay.map (fun e => if e.seq = r.seq then { e with retx := e.retx + 1, queued := false, order := t.order } else e)
    order := t.order + 1 })
  (s.fadd (.VBL_TXCOUNT p) VBL_TXCOUNT.RETX 1).refreshTx p

/-- The body of a CONTROL frame (R325), with the bitmap from a base. -/
def State.controlBody (s : State) (p : Nat) (base startPs : Nat) : Bytes :=
  let t := s.port p
  let c := s.fget (.VBL_RX p) VBL_RX.CONSUMED
  let h := s.fget (.VBL_RX p) VBL_RX.HIGH
  let held (i : Nat) : Bool := t.recv.any (fun e => e.1 = (base + i) % 2 ^ 16)
  let byte (b : Nat) : Byte := BitVec.ofNat 8 (((List.range 8).map (fun j => if held (b * 8 + j) then 2 ^ j else 0)).sum)
  let (tag, ok, turn) := match t.probeRx with | none => (0, 0, 0) | some (g, a) => (g.toNat, 1, startPs - a)
  toLe 2 c ++ toLe 2 h ++ toLe 2 base ++ toLe 2 tag ++ toLe 1 ok ++ [0, 0, 0] ++ toLe 4 turn ++ List.replicate 112 0 ++ (List.range 128).map byte
/-- A due control frame goes out (R326); ranges beyond its bitmap follow in later frames. -/
def State.sendControl (s : State) (p : Port) (slot startPs : Nat) : State :=
  let c := s.fget (.VBL_RX p) VBL_RX.CONSUMED
  let h := s.fget (.VBL_RX p) VBL_RX.HIGH
  let base := match (s.port p).sackFrom with | none => (c + 1) % 2 ^ 16 | some b => b.toNat
  let s := s.sendPlain p kCONTROL 0 slot (s.controlBody p base startPs)
  let more := 1024 ≤ (h + 2 ^ 16 - base) % 2 ^ 16 && (h + 2 ^ 16 - base) % 2 ^ 16 < 2 ^ 15
  s.modPort p (fun t => { t with ctlDue := false, unreported := 0, sackFrom := if more then some (BitVec.ofNat 16 (base + 1024)) else none })
/-- The next 256 bytes of the PRBS31 sequence, x^31 + x^28 + 1 (R338; the polynomial is PRESUMED, log entry 10). -/
def prbsByte (x : BitVec 31) : Byte × BitVec 31 :=
  (List.range 8).foldl (fun (a : Byte × BitVec 31) i =>
    let b := a.2.getLsbD 30 ^^ a.2.getLsbD 27
    (if b then a.1 ||| BitVec.ofNat 8 (2 ^ i) else a.1, (a.2 <<< 1) ||| (if b then 1 else 0))) (0, x)
/-- `n` bytes of the PRBS31 sequence and the state after them. -/
def prbsBytes : Nat → BitVec 31 → Bytes × BitVec 31
  | 0, x => ([], x)
  | n + 1, x => let r := prbsByte x; let t := prbsBytes n r.2; (r.1 :: t.1, t.2)

/-- What a REPAIR slot carries (R330). -/
def State.repairSlot (s : State) (p : Port) (slot : Nat) : State :=
  let t := s.port p
  let startPs := s.slotPs slot
  if t.ctlDue || t.sackFrom.isSome then s.sendControl p slot startPs
  else match s.nextRetx p with
    | some r => s.sendRetx p slot r
    | none =>
      if t.probeDue then
        let tag := t.probeTag + 1
        let s := s.sendPlain p kPROBE 0 slot (toLe 2 tag.toNat)
        s.modPort p (fun t => { t with probeDue := false, probeTag := tag, probeSent := some (tag, startPs) })
      else if t.calDue then
        let r := prbsBytes 256 t.prbs
        (s.sendPlain p kCAL 0 slot r.1).modPort p (fun t => { t with calDue := false, prbs := r.2 })
      else s.sendPlain p kIDLE 0 slot []
/-- What a PLAN slot carries (R320, R327): the parcel planned for it, or IDLE where that parcel is not ready; and in a slot that the plan
assigns to no parcel, the oldest plan parcel without a planned slot (log entry 11), else answer traffic. A full window makes the plan
parcel late. -/
def State.planSlot (s : State) (p : Port) (slot : Nat) (assigned : Bool) : State :=
  let t := s.port p
  let full := 16384 ≤ s.outstanding p
  let pick := match t.txPlan.find? (fun q => q.planned = some (s.stage, slot)) with
    | some q => some q | none => if assigned then none else t.txPlan.find? (fun q => q.planned = none)
  match pick with
  | some q =>
    let s := s.modPort p (fun t => { t with txPlan := t.txPlan.erase q })
    if full then (s.makeLate p [{ q with planned := some (s.stage, slot) }]).sendPlain p kIDLE 3 slot []
    else s.sendNew p 3 slot q.parcel
  | none =>
    if assigned then s.sendPlain p kIDLE 3 slot []
    else match t.txAnswer with
    | q :: r => if full then s.sendPlain p kIDLE 3 slot [] else (s.modPort p (fun t => { t with txAnswer := r })).sendNew p 3 slot q.parcel
    | [] => s.sendPlain p kIDLE 3 slot []
/-- What a CATCHUP slot carries (R67, R317). -/
def State.catchupSlot (s : State) (p : Port) (slot : Nat) : State :=
  match (s.port p).txLate with
  | q :: r => if 16384 ≤ s.outstanding p then s.sendPlain p kIDLE 1 slot [] else
      ((s.modPort p (fun t => { t with txLate := r })).refreshCatchup p).sendNew p 1 slot q.parcel
  | [] => s.sendPlain p kIDLE 1 slot []
/-- The registers of a timestamp queue show its head and fill (TS_TXQ_META, TS_TXQ_NS). -/
def State.refreshTsq (s : State) (p : Nat) : State :=
  let q := (s.port p).tsq
  let h := q.headD (0, 0)
  let t := ofInt 80 h.2
  let m := (h.1.toNat + (t % 65536) <<< 16 + q.length <<< 32) + ((s.fget (.TS_TXQ_META p) TS_TXQ_META.TXQ_OVF) <<< 39)
  (s.setReg (.TS_TXQ_META p) (BitVec.ofNat 64 m)).setReg (.TS_TXQ_NS p) (BitVec.ofNat 64 (t / 65536))
/-- A Delay_Req leaves in a slot (R371, R372): its timestamp is that of the slot's start and joins the queue; at a full queue it is
dropped, and the exchange of that Delay_Req yields no sample. -/
def State.stampTx (s : State) (p : Port) (slot : Nat) (id : BitVec 16) : State :=
  let s := s.fadd (.TS_COUNT p) TS_COUNT.TX 1
  if 64 ≤ (s.port p).tsq.length then
    let x := s.time.ex
    ({ s with time := { s.time with ex := { x with dropped := x.dropped || x.reqSeq = some id } } }).fset (.TS_TXQ_META p) TS_TXQ_META.TXQ_OVF 1
  else
    let r := s.roundOpen (s.slotPs slot * 65536) 1000
    (r.2.modPort p (fun t => { t with tsq := t.tsq ++ [(id, r.1)] })).refreshTsq p
/-- What a SERVICE slot carries (R317): parcels of management packets, of time packets (R370) and of other service traffic, in order of
arrival. -/
def State.serviceSlot (s : State) (p : Port) (slot : Nat) : State :=
  match (s.port p).txService with
  | q :: r => if 16384 ≤ s.outstanding p then s.sendPlain p kIDLE 2 slot [] else
      let s := (s.modPort p (fun t => { t with txService := r })).sendNew p 2 slot q.parcel
      match q.time with | none => s | some id => s.stampTx p slot id
  | [] => s.sendPlain p kIDLE 2 slot []
/-- SLOT_SEND (R315, R317, R320, R330, R334): every slot of the stage carries one frame, INIT while the epoch opens. -/
def State.slotSend (s : State) (p : Port) (t : SlotIn) : State :=
  let n := t.slot.toNat
  if !s.portPresent p || !s.locked p || s.fget (.VBL_SLOTS p) VBL_SLOTS.S ≤ n then s
  else if s.lstate p = lINIT then
    s.sendPlain p kINIT (s.slotClass p n) n (toLe 2 1 ++ [(s.port p).cause])
  else if s.lstate p != lUP then s
  else
    let s := s.lateNow p s.stage n
    let c := s.slotClass p n
    if c = 0 then s.repairSlot p n
    else if c = 1 then s.catchupSlot p n
    else if c = 2 then s.serviceSlot p n
    else s.planSlot p n t.assigned

/-! Breaking a link (R332 to R336). -/

/-- The partitions whose loaded plan gives a port a pattern with PLEN above 0 (R319, R516). -/
def State.portParts (s : State) (p : Nat) : List Nat :=
  s.loadedParts.filter (fun q => match (s.part q).plan with | none => false | some pl => match pl.slots[p]? with | none => false | some t => 0 < t.plen)
/-- The link of a port starts afresh: buffers, queues and sequence state (R334 step 5, R335; log entry 12). -/
def State.clearLink (s : State) (p : Nat) : State :=
  let s := s.modPort p (fun t => { t with
    partner := none, replay := [], recv := [], asm := [], ctlDue := false, probeDue := false, calDue := false, unreported := 0
    sackFrom := none, txPlan := [], txLate := [], txService := [], txAnswer := [], probeSent := none, probeRx := none, usable := false
    loopq := [], probeAge := 0, calAge := 0 })
  let s := (s.fset (.VBL_TX p) VBL_TX.NEXT 0).fset (.VBL_TX p) VBL_TX.CRED 0xFFFF
  let s := (s.fset (.VBL_RX p) VBL_RX.CONSUMED 0xFFFF).fset (.VBL_RX p) VBL_RX.HIGH 0xFFFF
  ((s.fset (.VBL_RX p) VBL_RX.HELD 0).refreshTx p).refreshCatchup p
/-- A link breaks with a cause (R335): buffers are discarded, and it retrains or stays DOWN. -/
def State.breakLink (s : State) (p cause : Nat) : State :=
  let auto := VBL_CTRL.AUTO_RETRAIN.get (s.port p).ctrl = 1
  let s := (s.clearLink p).modPort p (fun t => { t with cause := BitVec.ofNat 8 cause })
  let s := s.fadd (.VBL_STATUS p) VBL_STATUS.BREAKS 1
  let s := if cause = fLINK_CREDIT then s.fset (.VBL_STATUS p) VBL_STATUS.BROKE_CREDIT 1
    else if cause = fLINK_REPLAY then s.fset (.VBL_STATUS p) VBL_STATUS.BROKE_REPLAY 1 else s
  s.setLstate p (if auto && !s.stopped then lTRAINING else lDOWN)
/-- A link breaks and raises its fault (R332, R333, R336). -/
def State.breakRaise (s : State) (p code : Nat) : State :=
  (s.breakLink p code).raise { code := code, origin := 2, id := p, parts := s.portParts p }
/-- A parcel becomes due for retransmission; a ninth one breaks the link (R329, R332). -/
def State.dueRetx (s : State) (p : Nat) (r : Replay) : State :=
  if r.acked || r.queued then s
  else if 8 ≤ r.retx then s.breakRaise p fLINK_REPLAY
  else s.modPort p (fun t => { t with replay := t.replay.map (fun e => if e.seq = r.seq then { e with queued := true } else e) })

/-! Receiving (R314, R323 to R326). -/

/-- A frame that arrives: it must pass its CRC and carry the partner's epoch (R311, R314). On the near-end loop only the frame that this end
sent next arrives. -/
def State.frameIn (s : State) (p : Port) (f : Frame) (kind : Nat → Bool) (act : State → State) : State :=
  if !s.portPresent p || !s.locked p || s.lstate p = lDISABLED || s.lstate p = lDOWN then s
  else if (s.port p).loop && (s.port p).loopq.head? != some f then s
  else
  let s := if (s.port p).loop then s.modPort p (fun t => { t with loopq := t.loopq.drop 1 }) else s
  if !frameCrcOk f then s.fadd (.VBL_RXCOUNT p) VBL_RXCOUNT.CRC_BAD 1
  else if !kind (f.kind.toNat % 16) then s
  else if f.kind.toNat % 16 != kINIT && (s.port p).partner != some f.epoch then s
  else act (s.fadd (.VBL_RXCOUNT p) VBL_RXCOUNT.GOOD 1)
/-- A control frame becomes due. -/
def State.ctlIsDue (s : State) (p : Nat) : State := s.modPort p (fun t => { t with ctlDue := true })
/-- DATA_FRAME (R323, R326). -/
def State.dataFrame (s : State) (p : Port) (f : Frame) : State :=
  let c := s.fget (.VBL_RX p) VBL_RX.CONSUMED
  let q := f.seq.toNat
  let d := (q + 2 ^ 17 - c - 1) % 2 ^ 16
  let held (k : Nat) : Bool := (s.port p).recv.any (fun e => e.1 = k % 2 ^ 16)
  if 49152 ≤ d then (s.fadd (.VBL_ERR p) VBL_ERR.DUP 1).ctlIsDue p
  else if 16384 ≤ d then s.fadd (.VBL_ERR p) VBL_ERR.SEQ_ERR 1
  else
    let s := s.modPort p (fun t => { t with unreported := t.unreported + 1, ctlDue := t.ctlDue || 64 ≤ t.unreported + 1 })
    if held q then s.fadd (.VBL_ERR p) VBL_ERR.DUP 1
    else
      let pc : Parcel := { data := f.body.take f.valid.toNat, first := f.flags.getLsbD 0, last := f.flags.getLsbD 1 }
      let below := d = 0 || held (q + 2 ^ 16 - 1)
      let s := s.modPort p (fun t => { t with recv := t.recv ++ [(q, pc)], ctlDue := t.ctlDue || !below || held (q + 1) })
      let h := s.fget (.VBL_RX p) VBL_RX.HIGH
      let s := if (h + 2 ^ 16 - c) % 2 ^ 16 < d + 1 then s.fset (.VBL_RX p) VBL_RX.HIGH q else s
      s.fadd (.VBL_RX p) VBL_RX.HELD 1
/-- PARCEL_CONSUME (R324). -/
def State.parcelConsume (s : State) (p : Port) : State :=
  let n := (s.fget (.VBL_RX p) VBL_RX.CONSUMED + 1) % 2 ^ 16
  match (s.port p).recv.find? (fun e => e.1 = n) with
  | none => s
  | some e =>
    let s := s.modPort p (fun t => { t with recv := t.recv.filter (fun e => e.1 != n) })
    let s := s.fset (.VBL_RX p) VBL_RX.CONSUMED n
    let s := s.fset (.VBL_RX p) VBL_RX.HELD (s.fget (.VBL_RX p) VBL_RX.HELD - 1)
    s.assemble p e.2
/-- CONTROL_FRAME_TIMER (R326). -/
def State.controlTimer (s : State) (p : Port) : State :=
  if s.portPresent p && s.lstate p = lUP then s.ctlIsDue p else s

/-! Credit returns (R325, R328, R329, R337). -/

/-- A probe arrives (R326, R337): its echo becomes due in a control frame. -/
def State.probeFrame (s : State) (p : Port) (f : Frame) : State :=
  let a := s.nowPs
  (a.2.modPort p (fun t => { t with probeRx := some (BitVec.ofNat 16 (leAt f.body 0 2), a.1.toNat) })).ctlIsDue p
/-- The echo of a probe (R337): ONE_WAY_NS to the nearest ns, either one on a tie, and the drift check. -/
def State.echo (s : State) (p : Nat) (tag turn arrival : Nat) : State :=
  match (s.port p).probeSent with
  | none => s
  | some (g, sent) =>
    if g.toNat != tag then s
    else
      let x := arrival - sent - turn
      let r := if x % 2000 = 1000 then s.freeBelow 2 else (if 1000 < x % 2000 then 1 else 0, s)
      let ns := x / 2000 + r.1
      let s := (r.2.modPort p (fun t => { t with probeSent := none })).fset (.VBL_LAT p) VBL_LAT.ONE_WAY_NS ns
      let s := s.fadd (.VBL_LAT p) VBL_LAT.PROBES 1
      let w := s.fget (.VBL_LAT p) VBL_LAT.ONE_WAY_NS
      let plan := s.fget (.VBL_LAT p) VBL_LAT.PLAN_NS
      let drift := VBL_TIMERS.DRIFT_NS.get (s.port p).timers
      if 0 < plan && 0 < drift && (plan + drift < w || w + drift < plan) then s.fset (.VBL_STATUS p) VBL_STATUS.LAT_DRIFT 1 else s
/-- CONTROL_FRAME (R325, R328, R329, R331). -/
def State.controlFrame (s : State) (p : Port) (f : Frame) : State :=
  let c := leAt f.body 0 2
  let base := leAt f.body 4 2
  let cred := s.fget (.VBL_TX p) VBL_TX.CRED
  let next := s.fget (.VBL_TX p) VBL_TX.NEXT
  let dist (x : Nat) : Nat := (x + 2 ^ 16 - cred) % 2 ^ 16
  let ok := dist c ≤ (next + 2 ^ 17 - 1 - cred) % 2 ^ 16
  let s := if ok then
      (s.fset (.VBL_TX p) VBL_TX.CRED c).modPort p (fun t => { t with replay := t.replay.filter (fun r => dist c < dist r.seq.toNat) })
    else s.fadd (.VBL_ERR p) VBL_ERR.CTRL_RANGE 1
  let shown (x : Nat) : Bool :=
    let i := (x + 2 ^ 16 - base) % 2 ^ 16
    i < 1024 && bit (leAt f.body (128 + i / 8) 1) (i % 8)
  let covered (x : Nat) : Bool := (x + 2 ^ 16 - base) % 2 ^ 16 < 1024
  let s := s.modPort p (fun t => { t with
    replay := t.replay.map (fun r => if shown r.seq.toNat then { r with acked := true, queued := false } else r) })
  let newest := ((s.port p).replay.filter (fun r => shown r.seq.toNat)).foldl (fun a r => max a (r.order + 1)) 0
  let lost := (s.port p).replay.filter (fun r => covered r.seq.toNat && !r.acked && !r.queued && r.order + 1 < newest)
  let s := if lost.any (fun r => 8 ≤ r.retx) then s.breakRaise p fLINK_REPLAY
    else (lost.foldl (fun s r => s.dueRetx p r) s).refreshTx p
  if leAt f.body 8 1 % 2 = 1 then let a := s.nowPs; a.2.echo p (leAt f.body 6 2) (leAt f.body 12 4) a.1.toNat else s
/-- REPLAY_TIMER_EXPIRE (R329, R331, R332). -/
def State.replayExpire (s : State) (p : Port) (seq : BitVec 16) : State :=
  match (s.port p).replay.find? (fun r => r.seq = seq) with
  | none => s
  | some r => s.dueRetx p r
/-- CREDIT_TIMEOUT (R333): only while credits are owed. -/
def State.creditTimeout (s : State) (p : Port) : State :=
  if s.lstate p = lUP && 0 < s.outstanding p then s.breakRaise p fLINK_CREDIT else s

/-! Probes, calibration, training and epochs (R334, R336 to R338). -/

/-- INIT_FRAME (R314, R334, R336). -/
def State.initFrame (s : State) (p : Port) (f : Frame) : State :=
  if (s.port p).partner = some f.epoch then s
  else if s.lstate p = lUP then
    let c := leAt f.body 2 1
    s.breakRaise p (if c = 0 then fLINK_CREDIT else c)
  else if leAt f.body 0 2 = 1 then s.modPort p (fun t => { t with partner := some f.epoch })
  else s
/-- TRAINING_COMPLETE (R334): the lanes are up, EPOCH rises, INIT frames go out, and LOOPBACK takes effect (VBL_CTRL). -/
def State.trainingComplete (s : State) (p : Port) : State :=
  if s.portPresent p && s.lstate p = lTRAINING then
    let s := (s.fset (.VBL_STATUS p) VBL_STATUS.LANE_LOCK 15).fadd (.VBL_STATUS p) VBL_STATUS.EPOCH 1
    let s := s.modPort p (fun t => { t with loop := s.flag (.VBL_CTRL p) VBL_CTRL.LOOPBACK })
    s.setLstate p lINIT
  else s
/-- At a stage boundary a link whose two ends have taken each other's epoch is UP (R334), and a port that was UP is usable (R343). The
other end of a loop is this end. -/
def State.linkBoundary (s : State) (p : Port) (peers : List Port) : State :=
  if s.lstate p = lINIT && (s.port p).partner.isSome && ((s.port p).loop || peers.contains p) then
    (s.setLstate p lUP).modPort p (fun t => { t with usable := true })
  else if s.lstate p = lUP then s.modPort p (fun t => { t with usable := true })
  else s
/-- A lane loses or regains lock (R311). -/
def State.setLane (s : State) (p : Port) (l : Lane) (on : Bool) : State :=
  if !s.portPresent p then s
  else
    let v := s.fget (.VBL_STATUS p) VBL_STATUS.LANE_LOCK
    let keep := v - (if bit v l then 2 ^ l.val else 0)
    s.fset (.VBL_STATUS p) VBL_STATUS.LANE_LOCK (keep + if on then 2 ^ l.val else 0)
/-- One more stage has passed since the last probe and the last calibration frame of a port became due (R337, R338). -/
def State.ageProbes (s : State) (p : Nat) : State :=
  if s.lstate p = lUP then s.modPort p (fun t => { t with probeAge := t.probeAge + 1, calAge := t.calAge + 1 }) else s
/-- PROBE_INTERVAL (R337): a probe becomes due every 2^PROBE_LOG2 stages, the first of them so long after the link is UP (log entry 87). -/
def State.probeDue (s : State) (p : Port) : State :=
  let t := s.port p
  if s.lstate p = lUP && 2 ^ VBL_TIMERS.PROBE_LOG2.get t.timers ≤ t.probeAge then
    s.modPort p (fun t => { t with probeDue := true, probeAge := 0 }) else s
/-- CAL_INTERVAL (R338): a calibration frame becomes due every 2^CAL_LOG2 stages (log entry 87). -/
def State.calDue (s : State) (p : Port) : State :=
  let t := s.port p
  if s.lstate p = lUP && 2 ^ VBL_TIMERS.CAL_LOG2.get t.timers ≤ t.calAge then
    s.modPort p (fun t => { t with calDue := true, calAge := 0 }) else s
/-- What the FEC counted (VBL_PHY). -/
def State.fecCount (s : State) (f : FecIn) : State :=
  if !s.portPresent f.port then s
  else (s.fadd (.VBL_PHY f.port) VBL_PHY.FEC_CORR f.corr.toNat).fadd (.VBL_PHY f.port) VBL_PHY.FEC_UNCORR f.uncorr.toNat

/-! Control of a port (R334, R335, R339). -/

/-- A write of `VBL_CTRL`: ENABLE takes effect at once, and is ignored on a port without a role. A link that ENABLE 0 ends is a break. The
registers of an absent port ignore writes (R2). -/
def State.vblCtrlWrite (s : State) (p : Port) (a : Acc) : State :=
  s.owned a.by_ (fun s =>
    if !s.portPresent p then s else
    let v := (Reg.VBL_CTRL p).info.write (s.reg (.VBL_CTRL p)) a
    let en := VBL_CTRL.ENABLE.get v = 1
    let role := s.img.roles.getD p 0 != 0
    let v := if role then v else VBL_CTRL.ENABLE.set v 0
    let s := s.setReg (.VBL_CTRL p) v
    if !role then s
    else if en then
      if s.lstate p = lDISABLED then s.setLstate p (if s.stopped then lDOWN else lTRAINING) else s
    else
      let s := if s.lstate p = lUP then s.breakLink p 0 else s.clearLink p
      s.setLstate p (if s.stopped then lDOWN else lDISABLED))
/-- A write of `VBL_TIMERS`: a field out of its range keeps its old value (R339). -/
def State.vblTimersWrite (s : State) (p : Port) (a : Acc) : State :=
  s.owned a.by_ (fun s =>
    let old := s.reg (.VBL_TIMERS p)
    let v := keepField VBL_TIMERS.REPLAY_NS old ((Reg.VBL_TIMERS p).info.write old a) 500 65535
    let v := keepField VBL_TIMERS.CREDIT_US old v 40 10000
    let v := keepField VBL_TIMERS.PROBE_LOG2 old v 0 16
    let v := keepField VBL_TIMERS.CAL_LOG2 old v 0 16
    if s.portPresent p then s.setReg (.VBL_TIMERS p) v else s)
/-- A read of `VBL_CATCHUP` by the owner resets MAX to WAITING (R68, R474). The registers of an absent port read 0 (R2). -/
def State.catchupRead (s : State) (h : HostPort) (p : Port) (z : Sz) : State :=
  if !s.portPresent p then s.emit (.read h 0) else
  let s := s.emit (.read h (readPart z (s.reg (.VBL_CATCHUP p))))
  if s.owner = some h.val then s.fset (.VBL_CATCHUP p) VBL_CATCHUP.MAX (s.fget (.VBL_CATCHUP p) VBL_CATCHUP.WAITING) else s

/-- SLOT_SEND -/
def execSlotSend (p : Port) (t : SlotIn) (s : State) : Res := live s (·.slotSend p t)
/-- IDLE_FRAME -/
def execIdleFrame (p : Port) (f : Frame) (s : State) : Res := live s (·.frameIn p f (· = kIDLE) id)
/-- DATA_FRAME -/
def execDataFrame (p : Port) (f : Frame) (s : State) : Res := live s (·.frameIn p f (· = kDATA) (·.dataFrame p f))
/-- CONTROL_FRAME -/
def execControlFrame (p : Port) (f : Frame) (t : TimeIn) (s : State) : Res :=
  live s (·.atTime t (·.frameIn p f (· = kCONTROL) (·.controlFrame p f)))
/-- PROBE_FRAME -/
def execProbeFrame (p : Port) (f : Frame) (t : TimeIn) (s : State) : Res :=
  live s (·.atTime t (·.frameIn p f (· = kPROBE) (·.probeFrame p f)))
/-- CAL_FRAME (R338). -/
def execCalFrame (p : Port) (f : Frame) (bitErrors : Nat) (s : State) : Res :=
  live s (·.frameIn p f (· = kCAL) (·.fadd (.VBL_PHY p) VBL_PHY.CAL_ERR bitErrors))
/-- INIT_FRAME -/
def execInitFrame (p : Port) (f : Frame) (s : State) : Res := live s (·.frameIn p f (· = kINIT) (·.initFrame p f))
/-- RESERVED_KIND_FRAME (R312). -/
def execReservedKindFrame (p : Port) (f : Frame) (s : State) : Res :=
  live s (·.frameIn p f (5 < ·) (·.fadd (.VBL_ERR p) VBL_ERR.KIND_BAD 1))
/-- PARCEL_CONSUME -/
def execParcelConsume (p : Port) (s : State) : Res := live s (·.parcelConsume p)
/-- CONTROL_FRAME_TIMER -/
def execControlFrameTimer (p : Port) (s : State) : Res := live s (·.controlTimer p)
/-- REPLAY_TIMER_EXPIRE -/
def execReplayTimerExpire (p : Port) (seq : BitVec 16) (s : State) : Res := live s (·.replayExpire p seq)
/-- CREDIT_TIMEOUT -/
def execCreditTimeout (p : Port) (s : State) : Res := live s (·.creditTimeout p)
/-- LANE_LOCK_LOSS -/
def execLaneLockLoss (p : Port) (lane : Lane) (s : State) : Res := live s (·.setLane p lane false)
/-- LANE_LOCK_REGAIN -/
def execLaneLockRegain (p : Port) (lane : Lane) (s : State) : Res := live s (·.setLane p lane true)
/-- TRAINING_COMPLETE -/
def execTrainingComplete (p : Port) (s : State) : Res := live s (·.trainingComplete p)
/-- PROBE_INTERVAL -/
def execProbeInterval (p : Port) (s : State) : Res := live s (·.probeDue p)
/-- CAL_INTERVAL -/
def execCalInterval (p : Port) (s : State) : Res := live s (·.calDue p)
/-- VBL_ENABLE -/
def execVblEnable (p : Port) (a : Acc) (s : State) : Res := live s (·.vblCtrlWrite p a)
/-- VBL_DISABLE -/
def execVblDisable (p : Port) (a : Acc) (s : State) : Res := live s (·.vblCtrlWrite p a)
/-- VBL_CATCHUP_READ -/
def execVblCatchupRead (h : HostPort) (p : Port) (z : Sz) (s : State) : Res := live s (·.catchupRead h p z)

end Sys2Proof.Machine
end

