-- ==== Sys2Proof/Machine/Banks.lean ====
section
/-! DEFINITION. The tile banks (spec/03_memory.md R74 to R109): addresses and views, bounds and ownership, words with errors, the
handover of banks, the lichen scan, and the remote write count with its deferred entries (spec/09_global_space.md R295 to R298). -/

namespace Sys2Proof.Machine

/-! Agents (R82). -/

/-- SEQ -/
def aSEQ : Nat := 0
/-- MXE -/
def aMXE : Nat := 1
/-- VEC -/
def aVEC : Nat := 2
/-- DMA channel `ch` -/
def aDMA (ch : Nat) : Nat := 3 + ch
/-- REMOTE -/
def aREMOTE : Nat := 7
/-- SCANNER -/
def aSCANNER : Nat := 8

/-! Addresses (R74, R76). -/

/-- Bytes of a bank (R74). -/
def bankSize (k : Nat) : Nat := if k < 8 then 0x20000 else 0x100000
/-- 4 KiB patches of a bank (R74). -/
def bankPatches (k : Nat) : Nat := bankSize k / 4096
/-- Where the SRAM memory holds a byte of a bank. -/
def sramKey (g k off : Nat) : Nat := g * 0x8000000 + k * 0x100000 + off
/-- The byte offset of a local address. -/
def laOff (a : Nat) : Nat := bits a 19 0
/-- The bank of a local address. -/
def laBank (a : Nat) : Nat := bits a 26 20
/-- The view of a local address: 0 plain, 1 set, 2 clear. -/
def laView (a : Nat) : Nat := bits a 28 27
/-- The local address of a byte of a bank. -/
def laOf (k off : Nat) : Nat := k * 0x100000 + off

/-- The outcome of the checks on an access: it proceeds, it is refused with a fault code, or it waits as the pending owner's. -/
inductive Chk where
  | ok
  | refused (code : Nat)
  | wait
  deriving DecidableEq, Repr

/-- The first of two outcomes that is not `ok`. -/
def Chk.andThen (a b : Chk) : Chk := match a with | .ok => b | c => c

/-- Whether an extent of a bank touches a released retired patch (R108). -/
def State.touchesRetired (s : State) (g k off n : Nat) : Bool :=
  (List.range 16).any (fun e =>
    let r := Reg.PATCH_MAP g e
    s.flag r PATCH_MAP.VALID && s.flag r PATCH_MAP.RETIRED && s.fget r PATCH_MAP.BANK = k
      && off / 4096 ≤ s.fget r PATCH_MAP.PATCH && s.fget r PATCH_MAP.PATCH ≤ (off + n - 1) / 4096)
/-- The bounds of R77 for `n` bytes, `n` above 0, of a bank. -/
def State.bankBounds (s : State) (g k off n : Nat) : Chk :=
  if 72 ≤ k || bankSize k < off + n || s.touchesRetired g k off n then .refused fBOUNDS else .ok
/-- Whether an agent may access a bank now (R84, R87). A remote access to a bank under scan from REMOTE waits (R102). -/
def State.ownCheck (s : State) (g k agent : Nat) : Chk :=
  let r := Reg.BANK_OWN g k
  if s.fget r BANK_OWN.OWNER = agent then .ok
  else if s.flag r BANK_OWN.PEND && s.fget r BANK_OWN.PEND_TO = agent then .wait
  else match (s.tile g).scan with
    | some c => if agent = aREMOTE && c.bank = k && c.old = 7 then .wait else .refused fOWNER
    | none => .refused fOWNER
/-- The view and bounds of a local address for `n` bytes (R77 to R79): view 0b11 is DECODE even for 0 bytes. -/
def State.laCheck (s : State) (g a n : Nat) : Chk :=
  if laView a = 3 then .refused fDECODE
  else if n = 0 then .ok
  else if 2 ^ 29 ≤ a then .refused fBOUNDS
  else s.bankBounds g (laBank a) (laOff a) n
/-- All checks of an access to a local address (R77 to R79, R84). -/
def State.accCheck (s : State) (g agent a n : Nat) : Chk :=
  (s.laCheck g a n).andThen (if n = 0 then .ok else s.ownCheck g (laBank a) agent)

/-- A refused access is marked in the tile's BANK_EVENT (R124). -/
def State.bankEvent (s : State) (g code : Nat) : State :=
  if code = fOWNER then s.fset (.BANK_EVENT g) BANK_EVENT.OWNER 1
  else if code = fBOUNDS then s.fset (.BANK_EVENT g) BANK_EVENT.BOUNDS 1 else s

/-! Words with errors (R97). A word's state is 0 good, 1 a single-bit error, 2 uncorrectable. -/

/-- The words of a range of SRAM that hold an error. -/
def badIn (t : List (Nat × BitVec 2)) (key n : Nat) : List (Nat × BitVec 2) :=
  if n = 0 then [] else t.filter (fun e => key / 8 ≤ e.1 && e.1 ≤ (key + n - 1) / 8)
/-- Who an access belongs to: the agent, and the issue stage of its command where it has one (R519). -/
structure Who where
  agent : Nat
  stage : Option Nat := none
  deriving DecidableEq, Repr
/-- A corrected word is counted (R97, SRAM_ECC). -/
def State.countCe (s : State) (g w : Nat) : State :=
  let key := w * 8 - g * 0x8000000
  let s := s.fadd (.SRAM_ECC g) SRAM_ECC.CE_COUNT 1
  (s.fset (.SRAM_ECC g) SRAM_ECC.CE_BANK (key / 0x100000)).fset (.SRAM_ECC g) SRAM_ECC.CE_WORD (key % 0x100000 / 8)
/-- SRAM_UE is raised for a word (R97, R98). A fault of a tile's own command or sequencer is recorded in SEQ_FAULT (R258). -/
def State.sramUe (s : State) (g w : Nat) (who : Who) : State :=
  let s := s.fset (.SRAM_ECC g) SRAM_ECC.UE 1
  let la := w * 8 - g * 0x8000000
  if who.agent = aREMOTE then
    s.raise { code := fSRAM_UE, origin := 0, id := g, agent := aREMOTE, addr := la, parts := (s.partOfTile g).toList }
  else s.raiseTile g who.agent fSRAM_UE who.stage la
/-- The errors met by a read: corrected words counted, uncorrectable ones raised (R97). -/
def State.eccRead (s : State) (g key n : Nat) (who : Who) : State :=
  (badIn s.sramBad key n).foldl (fun s e => if e.2 = 2 then s.sramUe g e.1 who else s.countCe g e.1) s

/-- A word takes errors from outside: a single-bit error, or an uncorrectable one whose data bits read inverted. -/
def State.upset (s : State) (g k : Nat) (u : Upset) : State :=
  let w := sramKey g k 0 / 8 + u.word
  if 72 ≤ k || bankSize k ≤ u.word * 8 then s
  else if u.ue then
    { s with sram := memWrite s.sram (w * 8) (toLe 8 ((memNat s.sram (w * 8) 8) ^^^ u.flip.toNat)), sramBad := tput 0 s.sramBad w 2 }
  else if tget 0 s.sramBad w = 2 then s else { s with sramBad := tput 0 s.sramBad w 1 }

/-! Lock-step signatures (R534, R535). -/

/-- Whether lock-step mode runs (R534). -/
def State.lockOn (s : State) : Bool :=
  s.flag .LS_CTRL LS_CTRL.ENABLE && s.img.roles.getD 15 0 = 2 && s.fget (.VBL_STATUS 15) VBL_STATUS.STATE = 3
/-- A write that an agent of a tile issues enters its signature of the issue stage (R535, log entry 28). -/
def State.sign (s : State) (g agent : Nat) (stage : Option Nat) (addr : Nat) (b : Bytes) : State :=
  match s.lockOn, stage, s.ltOfGt g with
  | true, some st, some lt =>
    let key := lt * 16 + agent
    let t := tget [] s.lock.sigs st
    let v := crc64 (tget 0 t key) (toLe 8 addr ++ toLe 4 b.length ++ b)
    { s with lock := { s.lock with sigs := tput [] s.lock.sigs st (tput 0 t key v) } }
  | _, _, _ => s

/-- The bytes of a bank, without any check. -/
def State.sramRead (s : State) (g k off n : Nat) : Bytes := memRead s.sram (sramKey g k off) n
/-- A read of a bank by an agent that has passed its checks. -/
def State.bankRead (s : State) (g k off n : Nat) (who : Who) : Bytes × State :=
  (s.sramRead g k off n, s.eccRead g (sramKey g k off) n who)
/-- What a byte becomes under a view: plain takes the data, set ORs it, clear removes it (R93). -/
def viewByte (view : Nat) (old new : Byte) : Byte := if view = 1 then old ||| new else if view = 2 then old &&& ~~~new else new
/-- A write of a bank by an agent that has passed its checks (R80, R93, R94, R97): a word that a merge finds uncorrectable is raised
and not written; one with a single-bit error is merged corrected and counted; every other word written is good. -/
def State.bankWrite (s : State) (g k off view : Nat) (data : Bytes) (who : Who) : State :=
  let key := sramKey g k off
  let n := data.length
  let old := memRead s.sram key n
  let mem := memWrite s.sram key (List.zipWith (viewByte view) old data)
  let bad := badIn s.sramBad key n
  let merged (w : Nat) : Bool := view != 0 || w * 8 < key || key + n < w * 8 + 8
  let kept := bad.filter (fun e => e.2 = 2 && merged e.1)
  let mem := kept.foldl (fun m e => memWrite m (e.1 * 8) (memRead s.sram (e.1 * 8) 8)) mem
  let marks := bad.foldl (fun t e => if e.2 = 2 && merged e.1 then t else tput 0 t e.1 0) s.sramBad
  let s := { s with sram := mem, sramBad := marks }
  let s := if who.agent ≤ 6 then s.sign g who.agent who.stage (laOf k off + view * 0x8000000) data else s
  (bad.filter (fun e => merged e.1)).foldl (fun s e => if e.2 = 2 then s.sramUe g e.1 who else s.countCe g e.1) s

/-! Tallies (R237, R238). -/

/-- Whether a 32-bit count has reached a value (R237). -/
def reached (t v : Nat) : Bool := (t + 2 ^ 32 - v % 2 ^ 32) % 2 ^ 32 < 2 ^ 31
/-- A tally rises (R237, R238). -/
def State.raiseTally (s : State) (g t n : Nat) : State := s.fadd (.TALLY g t) TALLY.VALUE n
/-- Whether a tally has reached a value. -/
def State.tallyReached (s : State) (g t v : Nat) : Bool := reached (s.fget (.TALLY g t) TALLY.VALUE) v

/-! The lichen scan (R99 to R109). -/

/-- Whether a spare patch is good and in no use (R99). -/
def State.spareFree (s : State) (g i : Nat) : Bool :=
  !((s.tile g).badSpares.toNat.testBit i) && !((List.range 16).any (fun e =>
    s.flag (.PATCH_MAP g e) PATCH_MAP.VALID && !s.flag (.PATCH_MAP g e) PATCH_MAP.RETIRED && s.fget (.PATCH_MAP g e) PATCH_MAP.SPARE = i))
/-- The lowest free spare patch. -/
def State.freeSpare (s : State) (g : Nat) : Option Nat := (List.range 4).find? (fun i => s.spareFree g i)
/-- The lowest free PATCH_MAP entry. -/
def State.freeEntry (s : State) (g : Nat) : Option Nat := (List.range 16).find? (fun e => !s.flag (.PATCH_MAP g e) PATCH_MAP.VALID)
/-- Whether a patch is retired (R108). -/
def State.patchRetired (s : State) (g k p : Nat) : Bool := s.touchesRetired g k (p * 4096) 1
/-- The first patch from a number on, around the bank, that is not retired (R100). -/
def State.nextPatch (s : State) (g k p : Nat) : Nat :=
  let n := bankPatches k
  (((List.range n).map (fun i => (p + i) % n)).find? (fun q => !s.patchRetired g k q)).getD (p % n)
/-- SPARES_FREE and DRY follow the spares and entries (R99, R106). -/
def State.refreshSpares (s : State) (g : Nat) : State :=
  let n := ((List.range 4).filter (fun i => s.spareFree g i)).length
  let dry := n = 0 || s.freeEntry g = none
  let was := s.flag (.SCAN_STATUS g) SCAN_STATUS.DRY
  let s := (s.fset (.SCAN_STATUS g) SCAN_STATUS.SPARES_FREE n).fset (.SCAN_STATUS g) SCAN_STATUS.DRY (b2n dry)
  if dry && !was then s.fset (.BANK_EVENT g) BANK_EVENT.DRY 1 else s
/-- A bank comes back from the scanner: its owner before the scan, and the SCAN's tally rises (R101). -/
def State.scanReturn (s : State) (g k old tally : Nat) : State :=
  ((s.modTile g (fun t => { t with scan := none })).fset (.BANK_OWN g k) BANK_OWN.OWNER old).raiseTally g tally 1
/-- A SCAN's effect point: the bank is the scanner's and the save of its patch runs; when scanning is suspended the SCAN is only a
handover and return, and an uncorrectable word abandons it (R97, R101, R106). Two points are the model's choice (DESIGN CHOICE, log
entry 81): a corrected word of the save is counted in SRAM_ECC, which the row of R97 for it does not say, and an abandoned scan raises
its tally and leaves the patch pointer, SCANS and LAST_* as they were. -/
def State.scanEffect (s : State) (g : Nat) (h : PendHo) : State :=
  let k := h.bank
  let s := s.modTile g (fun t => { t with pend := t.pend.filter (·.bank != k) })
  let s := (s.fset (.BANK_OWN g k) BANK_OWN.OWNER aSCANNER).fset (.BANK_OWN g k) BANK_OWN.PEND 0
  let s := s.fset (.BANK_OWN g k) BANK_OWN.PEND_TO 0
  if s.flag (.SCAN_STATUS g) SCAN_STATUS.DRY then s.scanReturn g k h.frm.toNat h.tally
  else match s.freeSpare g with
    | none => s.scanReturn g k h.frm.toNat h.tally
    | some sp =>
      let p := s.nextPatch g k (tget 0 (s.tile g).ptr k)
      let key := sramKey g k (p * 4096)
      let bad := badIn s.sramBad key 4096
      let s := bad.foldl (fun s e => if e.2 = 2 then s.sramUe g e.1 { agent := aSCANNER, stage := some h.stage } else s.countCe g e.1) s
      if bad.any (·.2 = 2) then s.scanReturn g k h.frm.toNat h.tally
      else
        let c : ScanSt := { stage := h.stage, bank := k, patch := p, old := h.frm, tally := h.tally, spare := sp }
        (s.modTile g (fun t => { t with scan := some c })).fset (.SCAN_STATUS g) SCAN_STATUS.ACTIVE 1

/-! Accesses of one agent at a bank (R76 to R80, R84, R87, R97). -/

/-- A pending access waits at its bank (R87, R240). -/
def State.markWait (s : State) (g k : Nat) : State :=
  s.modTile g (fun t => { t with pend := t.pend.map (fun h => if h.bank = k then { h with waiting := true } else h) })
/-- An access to a bank that raises its own refusal: an agent of the tile raises the fault (R84), a remote one leaves it to its
requester (R292, R460). -/
def State.refuseAccess (s : State) (g agent code : Nat) : State :=
  let s := s.bankEvent g code
  if agent ≤ 6 then s.raiseTile g agent code else s
/-- The bytes that an access moves. -/
def accLen (a : BankAcc) : Nat := match a.op with | .read n => n | .write d => d.length
/-- The item that an access as REMOTE leaves in the landing buffer (R88, R102). -/
def accItem (a : BankAcc) : LandItem :=
  { bank := laBank a.addr.toNat, off := laOff a.addr.toNat, view := BitVec.ofNat 2 (laView a.addr.toNat)
    data := (match a.op with | .read _ => [] | .write d => d), readLen := (match a.op with | .read n => n | .write _ => 0)
    land_ := none, ack := none, counts := false }
/-- An access that waits: one as REMOTE in the landing buffer, another's at the bank, from where it proceeds at the effect point (R87,
R88, R102). -/
def State.holdAccess (s : State) (g : Nat) (a : BankAcc) : State :=
  if a.agent = 7 then s.modTile g (fun t => { t with landing := t.landing ++ [accItem a] })
  else (s.modTile g (fun t => { t with held := t.held ++ [a] })).markWait g (laBank a.addr.toNat)
/-- An access is made, refused, or waits. A quiesced region's banks hold what comes from outside their tile (R48). -/
def State.bankMake (s : State) (g : Nat) (a : BankAcc) : State :=
  let la := a.addr.toNat
  let ag := a.agent.toNat
  match s.accCheck g ag la (accLen a) with
  | .refused c => s.refuseAccess g ag c
  | .wait => s.holdAccess g a
  | .ok =>
    if ag = aREMOTE && 0 < accLen a && (s.rgn (g / 8)).quiesce then s.holdAccess g a
    else match a.op with
      | .read n => let r := s.bankRead g (laBank la) (laOff la) n { agent := ag }; r.2.emit (.readData a.agent r.1)
      | .write d => if d.isEmpty then s else s.bankWrite g (laBank la) (laOff la) (laView la) d { agent := ag }
/-- The accesses that wait at a bank are tried again, in their order (R87). -/
def State.heldProceed (s : State) (g k : Nat) : State :=
  let l := (s.tile g).held.filter (fun a => laBank a.addr.toNat = k)
  if l.isEmpty then s
  else l.foldl (fun s a => s.bankMake g a) (s.modTile g (fun t => { t with held := t.held.filter (fun a => laBank a.addr.toNat != k) }))

/-! Handover (R85 to R91, R251, R252) and the remote write count (R86, R295 to R298). -/

/-- A handover's effect point: the new owner, the tally, RCOUNT from 0 when REMOTE becomes owner (R86), and the accesses of the pending
owner that waited proceed (R87). -/
def State.handoverEffect (s : State) (g : Nat) (h : PendHo) : State :=
  let r := Reg.BANK_OWN g h.bank
  let s := s.modTile g (fun t => { t with pend := t.pend.filter (·.bank != h.bank) })
  let s := ((s.fset r BANK_OWN.OWNER h.towards.toNat).fset r BANK_OWN.PEND 0).fset r BANK_OWN.PEND_TO 0
  let s := if h.towards.toNat = aREMOTE then s.fset r BANK_OWN.RCOUNT 0 else s
  (s.raiseTally g h.tally 1).heldProceed g h.bank
/-- The effect of a pending handover or scan. -/
def State.pendEffect (s : State) (g : Nat) (h : PendHo) : State := if h.scan then s.scanEffect g h else s.handoverEffect g h
/-- Whether the tile's scanner is free for a pending scan: a scan that has begun runs to its end (R104), so the effect point of another
SCAN of the tile waits for it (DESIGN CHOICE, log entry 82). -/
def State.scannerFree (s : State) (g : Nat) (h : PendHo) : Bool := !h.scan || (s.tile g).scan.isNone
/-- A handover or scan from REMOTE takes effect once RCOUNT has reached its E (R86, R102, R297). -/
def State.remoteEffects (s : State) (g k : Nat) : State :=
  match (s.tile g).pend.find? (fun h => h.bank = k && h.frm = 7) with
  | none => s
  | some h => if reached (s.fget (.BANK_OWN g k) BANK_OWN.RCOUNT) h.e.toNat && s.scannerFree g h then s.pendEffect g h else s
/-- The scans from REMOTE that waited for the scanner take effect where their counts are reached. -/
def State.remoteScans (s : State) (g : Nat) : State :=
  ((s.tile g).pend.filter (fun h => h.scan && h.frm = 7)).foldl (fun s h => s.remoteEffects g h.bank) s
/-- RCOUNT rises (R295). -/
def State.rcountAdd (s : State) (g k n : Nat) : State := (s.fadd (.BANK_OWN g k) BANK_OWN.RCOUNT n).remoteEffects g k
/-- The stage that a 32-bit LAND_STAGE names (R295). -/
def State.fullStage (s : State) (l : Nat) : Int := (s.stage : Int) + toInt 32 (l + 2 ^ 32 - s.stage % 2 ^ 32)
/-- Whether a landing's count defers to a later boundary (R295). -/
def State.defers (s : State) (land_ : Option Nat) : Bool := match land_ with | none => false | some l => s.stage < l
/-- Whether a landing can place its count: no deferral, an entry of its bank and stage, or a free entry of the 32 (R298). -/
def State.countRoom (s : State) (g k : Nat) (land_ : Option Nat) : Bool :=
  match land_ with
  | none => true
  | some l => !(s.stage < l) || (s.tile g).deferred.any (fun d => d.bank = k && d.stage = l) || (s.tile g).deferred.length < 32
/-- A landing counts: into a deferred entry until its stage begins, or into RCOUNT now (R295, R298). -/
def State.countLanding (s : State) (g k : Nat) (land_ : Option Nat) : State :=
  match land_ with
  | none => s.rcountAdd g k 1
  | some l =>
    if s.stage < l then
      s.modTile g (fun t =>
        if t.deferred.any (fun d => d.bank = k && d.stage = l) then
          { t with deferred := t.deferred.map (fun d => if d.bank = k && d.stage = l then { d with count := d.count + 1 } else d) }
        else { t with deferred := t.deferred ++ [{ bank := k, stage := l, count := 1 }] })
    else s.rcountAdd g k 1
/-- The deferred counts whose landing stage has begun enter RCOUNT (R295). -/
def State.deferredEnter (s : State) (g : Nat) : State :=
  let due := (s.tile g).deferred.filter (fun d => d.stage ≤ s.stage)
  let s := s.modTile g (fun t => { t with deferred := t.deferred.filter (fun d => s.stage < d.stage) })
  due.foldl (fun s d => s.rcountAdd g d.bank d.count) s

/-- The refusal of a HANDOVER or SCAN at enqueue (R84, R90, R252, R253), or none. -/
def State.hoRefusal (s : State) (g bank frm towards : Nat) (scan : Bool) : Option Nat :=
  if 72 ≤ bank then some fBOUNDS
  else if 8 ≤ frm || (!scan && 8 ≤ towards) then some fDECODE
  else if s.flag (.BANK_OWN g bank) BANK_OWN.PEND then some fOWNER
  else if s.fget (.BANK_OWN g bank) BANK_OWN.OWNER != frm then some fOWNER
  else none

/-! The rows of the lichen scan and of BANK_ACCESS. -/

/-- BANK_ACCESS (R76 to R80, R84, R87, R97): the words take the errors found, and the access is made, refused, or waits. -/
def State.bankAccess (s : State) (g : Nat) (a : BankAcc) : State :=
  if !s.tilePresent g then s else (a.upsets.foldl (fun s u => s.upset g (laBank a.addr.toNat) u) s).bankMake g a

/-- SCAN_END (R101, R105, R106): a good patch is restored, a failing one is mapped to the working spare, and the bank returns. A failing
scan of a patch that is remapped already takes another entry and spare, and the first entry stays in use (DESIGN CHOICE, log entry 83). -/
def State.scanEnd (s : State) (g : Nat) (failing : Bool) : State :=
  match (s.tile g).scan with
  | none => s
  | some c =>
    let key := sramKey g c.bank (c.patch * 4096)
    let s := { s with sramBad := tdropRange s.sramBad (key / 8) 512 }
    let s := match failing, s.freeEntry g with
      | true, some e =>
        let v := 1 + (c.spare % 4) <<< 2 + (c.bank % 128) <<< 4 + (c.patch % 256) <<< 11
        ((s.setReg (.PATCH_MAP g e) (BitVec.ofNat 64 v)).fset (.BANK_EVENT g) BANK_EVENT.RETIRE 1).refreshSpares g
      | _, _ => s
    let s := (s.fset (.SCAN_STATUS g) SCAN_STATUS.LAST_BANK c.bank).fset (.SCAN_STATUS g) SCAN_STATUS.LAST_PATCH c.patch
    let s := (s.fset (.SCAN_STATUS g) SCAN_STATUS.ACTIVE 0).fadd (.SCAN_STATUS g) SCAN_STATUS.SCANS 1
    let s := s.modTile g (fun t => { t with ptr := tput 0 t.ptr c.bank (s.nextPatch g c.bank (c.patch + 1)) })
    (s.scanReturn g c.bank c.old.toNat c.tally).remoteScans g

/-- Whether a tile's partition is halted, or has no plan loaded (R91, R261). -/
def State.tileIdle (s : State) (g : Nat) : Bool :=
  match s.partOfTile g with | none => true | some p => s.pstate p = pHALTED || s.pstate p = pNONE
/-- BANK_OWN_WRITE (R91): the owner moves a bank while the tile's partition is halted or unloaded. A write that names REMOTE restarts
RCOUNT also where REMOTE owns the bank already (R86 does not settle it: DESIGN CHOICE, log entry 84). -/
def State.bankOwnWrite (s : State) (g k : Nat) (a : Acc) : State :=
  s.owned a.by_ (fun s =>
    if !s.tilePresent g then s
    else if a.size = .hi then s
    else
      let o := BANK_OWN.OWNER.get (accOver a (s.reg (.BANK_OWN g k)))
      if o < 8 && s.tileIdle g then
        let s := s.fset (.BANK_OWN g k) BANK_OWN.OWNER o
        if o = aREMOTE then s.fset (.BANK_OWN g k) BANK_OWN.RCOUNT 0 else s
      else s.fset (.BANK_EVENT g) BANK_EVENT.OWN_REJ 1)
/-- PATCH_RELEASE_REQUEST (R108): RELEASE is set in an entry that is in use and not retired. -/
def State.patchRelease (s : State) (g e : Nat) (a : Acc) : State :=
  s.owned a.by_ (fun s =>
    let r := Reg.PATCH_MAP g e
    if s.tilePresent g && s.flag r PATCH_MAP.VALID && !s.flag r PATCH_MAP.RETIRED then s.plainWrite r a else s)
/-- Releases take effect at a stage boundary: the entry is retired and its spare is free (R108). -/
def State.releaseEffects (s : State) (g : Nat) : State :=
  let due := (List.range 16).filter (fun e => s.flag (.PATCH_MAP g e) PATCH_MAP.RELEASE)
  if due.isEmpty then s
  else (due.foldl (fun s e => (s.fset (.PATCH_MAP g e) PATCH_MAP.RELEASE 0).fset (.PATCH_MAP g e) PATCH_MAP.RETIRED 1) s).refreshSpares g

/-- BANK_ACCESS -/
def execBankAccess (g : Gt) (a : BankAcc) (s : State) : Res := live s (·.bankAccess g a)
/-- BANK_OWN_WRITE -/
def execBankOwnWrite (g : Gt) (k : Bank) (a : Acc) (s : State) : Res := live s (·.bankOwnWrite g k a)
/-- PATCH_RELEASE_REQUEST -/
def execPatchReleaseRequest (g : Gt) (e : PatchEntry) (a : Acc) (s : State) : Res := live s (·.patchRelease g e a)

end Sys2Proof.Machine
end

