-- ==== Sys2Proof/Machine/Dram.lean ====
section
/-! DEFINITION. LPDDR5X (spec/03_memory.md R110 to R125): offsets, blocks with inline ECC, rows, and refresh. -/

namespace Sys2Proof.Machine

/-- Bytes of LPDDR5X (R112). -/
def dramSize : Nat := 0x10000000000
/-- The I/O die of an offset (R112). -/
def dramIod (o : Nat) : Nat := bits o 39 38
/-- The row of an offset (R112). -/
def dramRow (o : Nat) : Nat := bits o 37 21
/-- The bank index of an offset (R112). -/
def dramBank (o : Nat) : Nat := bits o 19 16
/-- The number of the (I/O die, rank, bank, wide channel) that keeps one row open (R112, R116). -/
def dramRowKey (o : Nat) : Nat := dramIod o * 128 + bits o 20 16 * 4 + bits o 10 9
/-- The controller that holds the check burst of an offset's block (R113). -/
def dramCheckCtl (o : Nat) : Nat := bits o 37 11 % 9

/-- The controller that holds data burst `j`, 0 to 7, of an offset's block (R113). -/
def dramDataCtl (o j : Nat) : Nat := (dramCheckCtl o + 1 + j) % 9
/-- The byte of the check burst that holds the check bits of word `w` of data burst `j` (R113). -/
def dramCheckByte (j w : Nat) : Nat := j * 8 + w
/-- The package that a controller of an offset's I/O die drives (R23). -/
def dramPackage (o ctl : Nat) : Nat := 9 * dramIod o + ctl

/-- Where a DRAM_UE is charged (R115, R518): class, origin, number and agent, and the partitions affected. R518 makes it a FLAG on an
aperture read only, so one that the merge of an aperture write meets is a STAGE_ABORT of no partition. For a packet of another module
the spec names neither a partition here nor the log's fields: the model logs STAGE_ABORT with ORIGIN 6, the issuing module as ADDR, and
halts no partition (DESIGN CHOICE, log entry 80). -/
def State.dramUeRaise (s : State) (who : Requester) (write : Bool) : Raise :=
  match who with
  | .tile g => { code := fDRAM_UE, origin := 0, id := g, parts := (s.partOfTile g).toList }
  | .io i _ => { code := fDRAM_UE, cls := cFLAG, origin := 3, id := 8 + i }
  | .load => { code := fDRAM_UE, cls := cFLAG, origin := 4 }
  | .aperture _ => { code := fDRAM_UE, cls := if write then cABORT else cFLAG, origin := 4 }
  | .steward => { code := fDRAM_UE, cls := cFLAG, origin := 5 }
  | .adu => { code := fDRAM_UE, origin := 4, parts := s.servingPart.toList }
  | .packet _ => { code := fDRAM_UE, origin := 6 }
/-- The agent of a tile's DMA channel and its command's stage, for DRAM_UE of a tile. -/
abbrev DWho := Requester × Who
/-- A requester without an agent of its own. -/
def plainWho (r : Requester) : DWho := (r, { agent := 0 })

/-- DRAM_UE is raised for a word (R115) that a read, or the merge of a write, meets. -/
def State.dramUe (s : State) (w : Nat) (d : DWho) (write : Bool := false) : State :=
  let i := dramIod (w * 8)
  let s := (s.fset (.DR_ECC i) DR_ECC.UE 1).setReg (.DR_UE_ADDR i) (BitVec.ofNat 64 (w * 8))
  match d.1 with
  | .tile g => s.raiseTile g d.2.agent fDRAM_UE d.2.stage (w * 8)
  | r => s.raise { s.dramUeRaise r write with addr := match r with | .packet m => m.toNat | _ => w * 8 }
/-- A corrected word is counted (R115, DR_ECC). -/
def State.dramCe (s : State) (w : Nat) : State := s.fadd (.DR_ECC (dramIod (w * 8))) DR_ECC.CE_COUNT 1
/-- The banks whose row the blocks `first` to `last` open in the 64 KiB `c` of one bank, with that row (R112, R116). -/
def chunkRows (first last c : Nat) : List (Nat × Nat) :=
  (List.range 4).filterMap (fun ch =>
    let lo := max first (128 * c)
    let b := lo + (ch + 4 - lo % 4) % 4
    if b ≤ min last (128 * c + 127) then some (dramRowKey (b * 512), dramRow (b * 512)) else none)
/-- Rows that the blocks of a range leave open (R116). A bank comes again after 32 banks of 64 KiB, so the last 64 of them tell. -/
def State.openRows (s : State) (off n : Nat) : State :=
  if n = 0 then s
  else
    let first := off / 512
    let last := (off + n - 1) / 512
    let k := min (last / 128 - first / 128 + 1) 64
    { s with rows := ((List.range k).flatMap (fun i => chunkRows first last (last / 128 + 1 + i - k))).foldl (fun r e => tput 0 r e.1 e.2) s.rows }

/-- A word takes errors from outside. -/
def State.dramUpset (s : State) (u : Upset) : State :=
  if dramSize ≤ u.word * 8 then s
  else if u.ue then
    { s with dram := memWrite s.dram (u.word * 8) (toLe 8 ((memNat s.dram (u.word * 8) 8) ^^^ u.flip.toNat)), dramBad := tput 0 s.dramBad u.word 2 }
  else if tget 0 s.dramBad u.word = 2 then s else { s with dramBad := tput 0 s.dramBad u.word 1 }

/-- Whether a range of LPDDR5X holds an uncorrectable word. -/
def State.dramHasUe (s : State) (off n : Nat) : Bool := (badIn s.dramBad off n).any (·.2 = 2)
/-- A read of LPDDR5X (R115): only the delivered words are corrected, counted or raised. -/
def State.dramRead (s : State) (off n : Nat) (d : DWho) : Bytes × State :=
  let s' := (badIn s.dramBad off n).foldl (fun s e => if e.2 = 2 then s.dramUe e.1 d else s.dramCe e.1) s
  (memRead s.dram off n, s'.openRows off n)
/-- A write of LPDDR5X that is part of the request for the bytes `lo` to `hi - 1` (R114, R115): a block that the request does not cover
whole is merged, which corrects and counts its single-bit errors and leaves it unwritten, with DRAM_UE raised, when any of its words is
uncorrectable. The words written of a block covered whole are good afterwards. -/
def State.dramPut (s : State) (lo hi off : Nat) (data : Bytes) (d : DWho) : State :=
  let n := data.length
  if n = 0 then s
  else
    let base := off / 512 * 512
    let span := (off + n - 1) / 512 * 512 + 512 - base
    let bad := badIn s.dramBad base span
    let whole (w : Nat) : Bool := lo ≤ w * 8 / 512 * 512 && w * 8 / 512 * 512 + 512 ≤ hi
    let kept (w : Nat) : Bool := whole w && (w * 8 + 8 ≤ off || off + n ≤ w * 8)
    let dead := ((bad.filter (fun e => e.2 = 2 && !whole e.1)).map (fun e => e.1 / 64)).eraseDups
    let mem := memWrite s.dram off data
    let mem := dead.foldl (fun m b => memWrite m (b * 512) (memRead s.dram (b * 512) 512)) mem
    let marks := bad.foldl (fun t e => if dead.contains (e.1 / 64) || kept e.1 then t else tput 0 t e.1 0) s.dramBad
    let s := { s with dram := mem, dramBad := marks }
    let s := match d.1 with
      | .tile g => s.sign g d.2.agent d.2.stage (s.fget .ROUTE_SELF ROUTE_SELF.MODULE * 2 ^ 48 + 2 ^ 46 + off) data
      | _ => s
    let s := (bad.filter (fun e => !whole e.1)).foldl (fun s e => if e.2 = 2 then s.dramUe e.1 d true else s.dramCe e.1) s
    s.openRows off n
/-- A write of LPDDR5X that is a request of its own (R114, R115). -/
def State.dramWrite (s : State) (off : Nat) (data : Bytes) (d : DWho) : State := s.dramPut off (off + data.length) off data d
/-- Whether a write of a range leaves a block unwritten, because a block that it covers in part holds an uncorrectable word (R115). -/
def State.dramBlocked (s : State) (off n : Nat) : Bool :=
  let first := off / 512 * 512
  let last := (off + n - 1) / 512 * 512
  n != 0 && (((off % 512 != 0 || off + n < first + 512) && s.dramHasUe first 512) || ((off + n) % 512 != 0 && s.dramHasUe last 512))
/-- A number in LPDDR5X, read by the admission unit (R115, R518). -/
def State.dramNat (s : State) (off n : Nat) : Nat × State := let r := s.dramRead off n (plainWho .adu); (leNat r.1, r.2)
/-- A set or clear write of LPDDR5X (log entry 15): every block that it touches is read, merged and written (R114), whatever it covers. -/
def State.dramView (s : State) (view off : Nat) (data : Bytes) (d : DWho) : State :=
  s.dramPut (off + data.length) off off (List.zipWith (viewByte view) (memRead s.dram off data.length) data) d

/-- LPDDR_REQUEST (R110, R112, R114 to R116): a request never spans two I/O dies (R114), so one that would is none. Link ECC corrects on
the bus, and the I/O die counts what it corrected (R115, LINK_CE). -/
def State.lpddrRequest (s : State) (r : DramReq) : State :=
  let s := r.upsets.foldl (fun s u => s.dramUpset u) s
  let off := r.off.toNat
  let n := match r.op with | .read n => n | .write data => data.length
  if dramSize < off + n || (n != 0 && dramIod off != dramIod (off + n - 1)) then s
  else
    let s := if r.linkCe = 0 then s else s.fadd (.DR_ECC (dramIod off)) DR_ECC.LINK_CE r.linkCe
    match r.op with
    | .read n =>
      let x := s.dramRead off n (plainWho r.by_)
      x.2.emit (.readData 0xF x.1)
    | .write data => s.dramWrite off data (plainWho r.by_)

/-! Refresh (R117 to R123). -/

/-- The debt of a refresh set. -/
def State.debt (s : State) (i k : Nat) : Int := toInt 5 (s.fget (.DR_DEBT i k) DR_DEBT.DEBT)
/-- A debt that rises by 1; where it would reach 9, the set is refreshed at once and counted (R118, R120). -/
def State.debtRise (s : State) (i k : Nat) : State :=
  if s.debt i k = 8 then (s.fadd (.DR_FORCED i) DR_FORCED.COUNT 1).fset (.DR_FORCED i) DR_FORCED.LAST_K k
  else s.fset (.DR_DEBT i k) DR_DEBT.DEBT (ofInt 5 (s.debt i k + 1))
/-- REFRESH_INTERVAL (R118): every set's debt of the I/O die rises; debts run once calibration has trained and zeroed LPDDR5X. -/
def State.refreshInterval (s : State) (i : Nat) : State :=
  if s.flag (.DR_STATUS i) DR_STATUS.ZEROED then (List.range 16).foldl (fun s k => s.debtRise i k) s else s
/-- Whether a running plan places a window for a refresh set in the stage (R122). -/
def State.windowPlanned (s : State) (i k : Nat) : Bool :=
  (List.range 8).any (fun p => s.pstate p = pRUNNING &&
    match (s.part p).plan with
    | none => false
    | some pl => pl.refresh.any (fun w => w.iod = i && w.k = k && 0 < pl.refPeriod && s.planStage p s.stage % pl.refPeriod = (w.t : Int)))
/-- REFRESH_WINDOW (R117, R119, R122): a planned window refreshes its set and lowers the debt; at −8 it stays idle. -/
def State.refreshWindow (s : State) (i k : Nat) : State :=
  if !s.windowPlanned i k || s.debt i k = -8 then s
  else (s.fset (.DR_DEBT i k) DR_DEBT.DEBT (ofInt 5 (s.debt i k - 1))).fadd (.DR_DEBT i k) DR_DEBT.WINDOWS 1
/-- MR4_READ (R118, R123): RATE follows the worst of the nine readings, WORST_PKG names a controller that read it (the one the command
names, where several did), and leaving the operating range raises THERMAL, whose origin is the I/O die (ORIGIN 3 with ID 8 + i, log
entry 52). -/
def State.mr4Read (s : State) (i : Nat) (r : Mr4Result) : State :=
  let worst := r.readings.foldl (fun a b => max a b.toNat) 0
  let was := s.fget (.DR_STATUS i) DR_STATUS.RATE
  let pkg := if (r.readings.getD r.pkg 0).toNat = worst then r.pkg.val else r.readings.findIdx (fun v => v.toNat = worst)
  let s := (s.fset (.DR_STATUS i) DR_STATUS.RATE worst).fset (.DR_STATUS i) DR_STATUS.WORST_PKG pkg
  if worst = 3 && was != 3 then s.raise { code := fTHERMAL, origin := 3, id := 8 + i, parts := allParts } else s

/-- LPDDR_REQUEST -/
def execLpddrRequest (r : DramReq) (s : State) : Res := live s (·.lpddrRequest r)
/-- REFRESH_INTERVAL -/
def execRefreshInterval (i : Iod) (s : State) : Res := live s (·.refreshInterval i)
/-- REFRESH_WINDOW -/
def execRefreshWindow (i : Iod) (k : RefBank) (s : State) : Res := live s (·.refreshWindow i k)
/-- MR4_READ -/
def execMr4Read (i : Iod) (r : Mr4Result) (s : State) : Res := live s (·.mr4Read i r)

end Sys2Proof.Machine
end

