-- ==== Sys2Proof/Machine/Rings.lean ====
section
/-! DEFINITION. Rings (spec/13_serving.md R388 to R393): the ring table, producing entries, index writes and configuration writes. -/

namespace Sys2Proof.Machine

/-- Token ring, a ring type (R388). -/
def rTOKEN : Nat := 1
/-- Command -/
def rCOMMAND : Nat := 2
/-- Completion -/
def rCOMPLETION : Nat := 3
/-- Event -/
def rEVENT : Nat := 4
/-- DMA descriptor -/
def rDESC : Nat := 5

/-- Bytes of an entry by ESIZE. -/
def esizeBytes (e : Nat) : Nat := 16 * 2 ^ e
/-- The entry size of a ring type (R388). -/
def typeBytes (t : Nat) : Nat := if t = rTOKEN || t = rCOMPLETION then 16 else if t = rEVENT then 32 else 64
/-- The type of a ring. -/
def State.ringType (s : State) (n : Nat) : Nat := s.fget (.RING_CFG n) RING_CFG.TYPE
/-- Whether a ring is enabled and of a type. -/
def State.ringIs (s : State) (n t : Nat) : Bool := n < 262144 && s.flag (.RING_CFG n) RING_CFG.ENABLE && s.ringType n = t
/-- Entries of a ring. -/
def State.ringSize (s : State) (n : Nat) : Nat := 2 ^ s.fget (.RING_CFG n) RING_CFG.LOG2
/-- Entries a ring holds. -/
def State.ringHeld (s : State) (n : Nat) : Nat := (s.fget (.RING_IDX n) RING_IDX.PROD + 2 ^ 32 - s.fget (.RING_IDX n) RING_IDX.CONS) % 2 ^ 32
/-- Whether the module may produce an entry: the ring is enabled (R392), has room (R391), and its port's link is up (R415). -/
def State.ringRoom (s : State) (n : Nat) : Bool :=
  n < 262144 && s.flag (.RING_CFG n) RING_CFG.ENABLE && s.ringHeld n < s.ringSize n
    && (s.fget (.RING_CFG n) RING_CFG.KIND = 1 || s.flag (.HP_STATUS (s.fget (.RING_CFG n) RING_CFG.PORT)) HP_STATUS.LINK_UP)
/-- The host port of a ring. -/
def State.ringPort (s : State) (n : Nat) : HostPort := if s.fget (.RING_CFG n) RING_CFG.PORT = 0 then 0 else 1
/-- The module writes bytes in a ring's own kind of memory (R389). -/
def State.ringWrite (s : State) (n addr : Nat) (b : Bytes) (who : Requester := .adu) : State :=
  if s.fget (.RING_CFG n) RING_CFG.KIND = 1 then s.dramWrite (addr % 2 ^ 40) b (plainWho who)
  else s.emit (.hostWrite (s.ringPort n) (BitVec.ofNat 64 addr) b)
/-- The interrupt of an advance of PROD: one message for each ring and stage, and one more at the next boundary (R393). The table holds
the rings whose message of this stage is sent, and whether one more is due. -/
def State.ringInt (s : State) (n : Nat) : State :=
  if !s.flag (.RING_CFG n) RING_CFG.IRQ_EN then s
  else if s.ringIrq.any (·.1 = n) then { s with ringIrq := s.ringIrq.map (fun e => if e.1 = n then (n, true) else e) }
  else ({ s with ringIrq := s.ringIrq ++ [(n, false)] }).sendMsix (s.ringPort n) (s.fget (.RING_CFG n) RING_CFG.VECTOR)
/-- The module produces an entry: entry, PROD, its mirror, then the interrupt (R389, R391, R393). -/
def State.ringPut (s : State) (n : Nat) (b : Bytes) (who : Requester := .adu) : State :=
  let prod := s.fget (.RING_IDX n) RING_IDX.PROD
  let base := (s.reg (.RING_BASE n)).toNat
  let s := s.ringWrite n (base + prod % s.ringSize n * b.length) b who
  let s := (s.fset (.RING_IDX n) RING_IDX.PROD (prod + 1)).fadd (.RING_STAT n) RING_STAT.ENTRIES 1
  let sh := (s.reg (.RING_SHADOW n)).toNat
  let s := if sh = 0 then s else s.ringWrite n sh (toLe 4 ((prod + 1) % 2 ^ 32) ++ [0, 0, 0, 0]) who
  s.ringInt n
/-- The module takes an entry of a host-produced ring (R391). -/
def State.ringTake (s : State) (n : Nat) : State :=
  (s.fadd (.RING_IDX n) RING_IDX.CONS 1).fadd (.RING_STAT n) RING_STAT.ENTRIES 1
/-- Messages deferred to the boundary go out and count as the new stage's (R393). -/
def State.ringBoundary (s : State) : State :=
  let due := (s.ringIrq.filter (·.2)).map (·.1)
  due.foldl (fun s n => s.sendMsix (s.ringPort n) (s.fget (.RING_CFG n) RING_CFG.VECTOR)) { s with ringIrq := due.map (fun n => (n, false)) }

/-- The check of a `RING_CFG` that sets ENABLE, with the `RING_BASE` held (R392). -/
def ringCfgOk (v base : Word) : Bool :=
  let t := RING_CFG.TYPE.get v
  let lg := RING_CFG.LOG2.get v
  let size := esizeBytes (RING_CFG.ESIZE.get v)
  1 ≤ t && t ≤ 5 && 4 ≤ lg && lg ≤ 20 && RING_CFG.ESIZE.get v != 3 && size = typeBytes t && base.toNat % min (2 ^ lg * size) 4096 = 0
/-- A write of `RING_CFG` (R392). -/
def State.ringCfgWrite (s : State) (n : Nat) (a : Acc) : State :=
  s.owned a.by_ (fun s =>
    let r := Reg.RING_CFG n
    let old := s.reg r
    let v := r.info.write old a
    let g (f : Fld) := f.get v
    let reject := fun (s : State) => s.fset (.RING_STAT n) RING_STAT.CFG_REJ 1
    if RING_CFG.ENABLE.get old = 1 then
      if g RING_CFG.ENABLE = 1 then
        let v := RING_CFG.VECTOR.set (RING_CFG.IRQ_EN.set old (g RING_CFG.IRQ_EN)) (g RING_CFG.VECTOR)
        s.setReg r v
      else if RING_CFG.TYPE.get old = rTOKEN && RING_CFG.BOUND.get old = 1 then reject s
      else
        let v := RING_CFG.VECTOR.set (RING_CFG.IRQ_EN.set (RING_CFG.ENABLE.set old 0) (g RING_CFG.IRQ_EN)) (g RING_CFG.VECTOR)
        s.setReg r v
    else if g RING_CFG.ENABLE = 0 then s.setReg r v
    else if ringCfgOk v (s.reg (.RING_BASE n)) then (s.setReg r v).setReg (.RING_IDX n) 0
    else reject s)
/-- A write of `RING_BASE` or `RING_SHADOW`, which holds only while the ring is not enabled (R392). -/
def State.ringAddrWrite (s : State) (r : Reg) (n : Nat) (a : Acc) : State :=
  s.owned a.by_ (fun s => if s.flag (.RING_CFG n) RING_CFG.ENABLE then s else s.plainWrite r a)
/-- A write of `RING_IDX`.CONS (R390). -/
def State.ringConsWrite (s : State) (n : Nat) (a : Acc) : State :=
  s.owned a.by_ (fun s =>
    if a.size = .lo then s
    else
      let new := RING_IDX.CONS.get (accOver a (s.reg (.RING_IDX n)))
      let d := (new + 2 ^ 32 - s.fget (.RING_IDX n) RING_IDX.CONS) % 2 ^ 32
      let t := s.ringType n
      if !(t = rTOKEN || t = rCOMPLETION || t = rEVENT) then s
      else if d ≤ s.ringHeld n then s.fset (.RING_IDX n) RING_IDX.CONS new
      else s.fadd (.RING_STAT n) RING_STAT.IDX_REJ 1)
/-- A doorbell write (R390, R462); until calibration ends it is discarded (R479). -/
def State.doorbell (s : State) (n : Nat) (a : Acc) : State :=
  s.owned a.by_ (fun s =>
    if a.size = .hi || s.boot_ = 0 then s
    else
      let new := a.val.toNat % 2 ^ 32
      let d := (new + 2 ^ 32 - s.fget (.RING_IDX n) RING_IDX.PROD) % 2 ^ 32
      if (s.ringIs n rCOMMAND || s.ringIs n rDESC) && d ≤ s.ringSize n - s.ringHeld n then s.fset (.RING_IDX n) RING_IDX.PROD new
      else s.fadd (.RING_STAT n) RING_STAT.IDX_REJ 1)

/-- RING_CFG_WRITE -/
def execRingCfgWrite (n : RingIx) (a : Acc) (s : State) : Res := live s (·.ringCfgWrite n a)
/-- RING_CONS_WRITE -/
def execRingConsWrite (n : RingIx) (a : Acc) (s : State) : Res := live s (·.ringConsWrite n a)
/-- DOORBELL_WRITE -/
def execDoorbellWrite (n : RingIx) (a : Acc) (s : State) : Res := live s (·.doorbell n a)

end Sys2Proof.Machine
end

