-- ==== Sys2Proof/Machine/Route.lean ====
section
/-! DEFINITION. Routing (spec/11_routing.md R340 to R352) and what travels (spec/09_global_space.md R284 to R290): global addresses,
packets, the destination and multicast tables, and the choice of a port for an outbound packet. -/

namespace Sys2Proof.Machine

/-! Global addresses (R284, R285). -/

/-- MODULE of a global address. -/
def gaModule (a : Nat) : Nat := bits a 63 48
/-- SPACE: 0 SRAM, 1 LPDDR5X, 2 registers, 3 reserved. -/
def gaSpace (a : Nat) : Nat := bits a 47 46
/-- TILE of an SRAM address. -/
def gaTile (a : Nat) : Nat := bits a 45 37
/-- BANK of an SRAM address. -/
def gaBank (a : Nat) : Nat := bits a 36 30
/-- OFFSET of an SRAM address. -/
def gaOff (a : Nat) : Nat := bits a 19 0
/-- OFFSET of an LPDDR5X address. -/
def gaDram (a : Nat) : Nat := bits a 39 0
/-- Whether the fields that the space table marks zero are zero (R284). -/
def gaZeros (a : Nat) : Bool :=
  match gaSpace a with
  | 0 => bits a 29 20 = 0
  | 1 => bits a 45 40 = 0
  | 2 => bits a 45 32 = 0
  | _ => false
/-- The global address of a byte of a bank, in physical form. -/
def gaOf (m g k off : Nat) : Nat := m * 2 ^ 48 + g * 2 ^ 37 + k * 2 ^ 30 + off
/-- The module's own number (R340). -/
def State.self (s : State) : Nat := s.fget .ROUTE_SELF ROUTE_SELF.MODULE
/-- The present tiles of the module. -/
def State.presentTiles (s : State) : Nat := ((List.range 512).filter (fun g => s.tilePresent g)).length
/-- The physical tile that TILE names, in logical or physical form; none where it is ABSENT (R285, R286). -/
def State.tileOfGa (s : State) (logical : Bool) (t : Nat) : Option Nat :=
  if logical then (if t < s.presentTiles then s.gtOfLt t else none) else if s.tilePresent t then some t else none

/-! Packets (R288 to R290). -/

/-- GET request, an OPC -/
def oGET : Nat := 1
/-- GET data -/
def oDATA : Nat := 2
/-- PUT -/
def oPUT : Nat := 3
/-- SET -/
def oSET : Nat := 4
/-- CLEAR -/
def oCLEAR : Nat := 5
/-- ACK -/
def oACK : Nat := 6
/-- NACK -/
def oNACK : Nat := 7
/-- Management -/
def oMGMT : Nat := 8
/-- The 32 bytes of a header (R289). -/
def hdrBytes (h : PktHdr) : Bytes :=
  toLe 8 h.ga.toNat ++ toLe 8 h.reply.toNat ++ toLe 2 h.src.toNat ++ [h.opc, h.flags] ++ toLe 2 h.length.toNat ++ toLe 2 h.issuer.toNat
    ++ toLe 4 h.seq.toNat ++ toLe 4 h.land_.toNat
/-- The bytes of a packet (R321). -/
def pktBytes (k : Packet) : Bytes := hdrBytes k.hdr ++ k.payload
/-- A header with the module's own number as its source. -/
def State.hdr (s : State) (opc ga : Nat) (len : Nat := 0) (issuer : Nat := 0) (seq : Nat := 0) (reply : Nat := 0) (flags : Nat := 0)
    (land_ : Nat := 0) : PktHdr :=
  { ga := BitVec.ofNat 64 ga, reply := BitVec.ofNat 64 reply, src := BitVec.ofNat 16 s.self, opc := BitVec.ofNat 8 opc
    flags := BitVec.ofNat 8 flags, length := BitVec.ofNat 16 len, issuer := BitVec.ofNat 16 issuer, seq := BitVec.ofNat 32 seq
    land_ := BitVec.ofNat 32 land_ }
/-- An ACK of a packet (R290, R293). -/
def State.ackOf (s : State) (h : PktHdr) : Packet :=
  { hdr := s.hdr oACK (h.src.toNat * 2 ^ 48) 0 h.issuer.toNat h.seq.toNat, payload := [] }
/-- A NACK of a packet, with its fault code (R289, R290). -/
def State.nackOf (s : State) (h : PktHdr) (code : Nat) : Packet :=
  { hdr := s.hdr oNACK (h.src.toNat * 2 ^ 48) code h.issuer.toNat h.seq.toNat, payload := [] }

/-! The choice of a port (R343 to R348). -/

/-- The traffic classes of R308 and R317. A plan packet may name the planned slot of its first parcel. -/
inductive Traffic where
  | plan (slot : Option (Nat × Nat)) (part : Option Nat)
  | answer
  | service
  deriving DecidableEq, Repr

/-- What became of an outbound packet: sent, with the completions to expect; answered by the router with a NACK; or dropped. -/
inductive Sent where
  | sent (copies : Nat)
  | nack (code : Nat)
  | dropped
  deriving DecidableEq, Repr

/-- A port is usable (R343): the grade has it and its link has been UP since the last boundary. -/
def State.usable (s : State) (p : Nat) : Bool := s.portPresent p && s.lstate p = lUP && (s.port p).usable
/-- The port as an index. -/
def portIx (p : Nat) : Port := Fin.ofNat 16 p
/-- A slot after one, in the stages of `n` slots. -/
def slotAfter (n : Nat) (e : Nat × Nat) : Nat × Nat := if e.2 + 1 < n then (e.1, e.2 + 1) else (e.1 + 1, 0)
/-- The first PLAN slot of a port at or after a slot, within one round of the pattern and one stage. -/
def State.planSlotFrom (s : State) (p : Nat) : Nat → Nat × Nat → Nat × Nat
  | 0, e => e
  | k + 1, e => if s.slotClass p e.2 = 3 then e else s.planSlotFrom p k (slotAfter (s.fget (.VBL_SLOTS p) VBL_SLOTS.S) e)
/-- Planned slots of `n` parcels from the first one's on (R320, log entry 11). -/
def State.planSlots (s : State) (p : Nat) : Nat → Nat × Nat → List (Nat × Nat)
  | 0, _ => []
  | n + 1, e => let f := s.planSlotFrom p 128 e; f :: s.planSlots p n (slotAfter (s.fget (.VBL_SLOTS p) VBL_SLOTS.S) f)
/-- A packet's parcels join a port's queue of their class (R317, R320); through an alternate of the port `prim` that they are planned for,
plan parcels join its late transfers in the order of the slots that `prim` has for them (R346). -/
def State.enqueuePkt (s : State) (p prim : Nat) (t : Traffic) (b : Bytes) : State :=
  let ps := parcelsOf b
  let alt := p != prim
  match t with
  | .service => s.modPort p (fun q => { q with txService := q.txService ++ ps.map (fun x => { parcel := x, planned := none, part := none }) })
  | .answer => s.modPort p (fun q => { q with txAnswer := q.txAnswer ++ ps.map (fun x => { parcel := x, planned := none, part := none }) })
  | .plan slot part =>
    let at_ : List (Option (Nat × Nat)) := match slot with
      | some e => (s.planSlots prim ps.length e).map some
      | none => ps.map (fun _ => if alt then some (s.stage, 0) else none)
    let l := List.zipWith (fun x e => ({ parcel := x, planned := e, part := part } : TxParcel)) ps at_
    if alt then s.makeLate p l else s.modPort p (fun q => { q with txPlan := q.txPlan ++ l })
/-- Whether a packet is a request that the router answers itself (R340, R303). -/
def isRequest (o : Nat) : Bool := o = oGET || o = oPUT || o = oSET || o = oCLEAR
/-- A packet with no route: a request is answered with ABSENT, and any other is dropped (R340, R343). -/
def State.noRoute (s : State) (k : Packet) (count : Bool) : Sent × State :=
  let req := isRequest k.hdr.opc.toNat
  let s := if count || !req then s.fadd .ROUTE_COUNT ROUTE_COUNT.NOROUTE 1 else s
  if req then (.nack fABSENT, s) else (.dropped, s.emit (.dropped k))
/-- An outbound packet reaches the router (R340, R343 to R348). -/
def State.sendPacket (s : State) (t : Traffic) (k : Packet) : Sent × State :=
  let m := gaModule k.hdr.ga.toNat
  let r := Reg.ROUTE_DEST m
  if !s.flag .ROUTE_SELF ROUTE_SELF.SELF_VALID then s.noRoute k false
  else if !s.flag r ROUTE_DEST.VALID || 2 ≤ s.fget r ROUTE_DEST.KIND then s.noRoute k true
  else if s.fget r ROUTE_DEST.KIND = 1 then
    let g := Reg.ROUTE_MC (s.fget r ROUTE_DEST.GROUP)
    if k.hdr.opc.toNat = oGET || !s.flag g ROUTE_MC.VALID then
      if isRequest k.hdr.opc.toNat then (.nack fDECODE, s) else (.dropped, s.emit (.dropped k))
    else
      let ports := (List.range 16).filter (fun p => (s.fget g ROUTE_MC.PORTS).testBit p)
      let good := ports.filter (fun p => s.usable p)
      let s := s.fadd .ROUTE_COUNT ROUTE_COUNT.MC_SKIP (ports.length - good.length)
      (.sent (s.fget g ROUTE_MC.COPIES), good.foldl (fun s p => s.enqueuePkt p p t (pktBytes k)) s)
  else
    let p := s.fget r ROUTE_DEST.PORT
    let a := s.fget r ROUTE_DEST.ALT
    if s.usable p then (.sent 1, s.enqueuePkt p p t (pktBytes k))
    else if s.flag r ROUTE_DEST.ALT_VALID && s.usable a then
      (.sent 1, (s.fadd .ROUTE_COUNT ROUTE_COUNT.ALT_PACKETS 1).enqueuePkt a p t (pktBytes k))
    else s.noRoute k true
/-- A packet sent where its fate does not matter to the sender. -/
def State.sendOff (s : State) (t : Traffic) (k : Packet) : State := (s.sendPacket t k).2

/-! Inbound filtering (R340, R341). -/

/-- An inbound packet that is not accepted is counted in FOREIGN. -/
def State.foreign (s : State) : State := s.fadd .ROUTE_COUNT ROUTE_COUNT.FOREIGN 1
/-- Whether a module number is a group alias. -/
def State.isGroup (s : State) (m : Nat) : Bool := s.flag (.ROUTE_DEST m) ROUTE_DEST.VALID && s.fget (.ROUTE_DEST m) ROUTE_DEST.KIND = 1
/-- An inbound packet other than a launch packet: it is accepted for the module or for a group alias, and otherwise counted (R341);
while SELF_VALID is 0 every packet is discarded (R340). -/
def State.acceptIn (s : State) (p : Port) (k : Packet) (own : State → State) (grp : Nat → State → State) : State :=
  let s := s.takeInbound p (pktBytes k)
  let m := gaModule k.hdr.ga.toNat
  if !s.flag .ROUTE_SELF ROUTE_SELF.SELF_VALID then s
  else if m = s.self then own s
  else if s.isGroup m then grp (s.fget (.ROUTE_DEST m) ROUTE_DEST.GROUP) s
  else s.foreign
/-- A management packet of R542 in LPDDR5X space with an OFFSET, other than a launch or a time packet: accepted as R340 and R341 say. -/
def State.mgmtIn (s : State) (p : Port) (k : Packet) (off : Nat) (act : State → State) : State :=
  let a := k.hdr.ga.toNat
  if k.hdr.opc.toNat != oMGMT || gaSpace a != 1 || gaDram a != off || !gaZeros a then s else s.acceptIn p k act (fun _ s => act s)
/-- RESERVED_OPC_PACKET (R289): discarded and counted with the packets that the module does not accept (log entry 13). -/
def State.reservedOpc (s : State) (p : Port) (k : Packet) : State :=
  let o := k.hdr.opc.toNat
  let s := s.takeInbound p (pktBytes k)
  if (1 ≤ o && o ≤ 8) || !s.flag .ROUTE_SELF ROUTE_SELF.SELF_VALID then s else s.foreign

/-! Table writes (R350, R351). -/

/-- A write to the route or multicast tables or to `ROUTE_SELF` (R350, R351). -/
def State.routeWrite (s : State) (r : Reg) (a : Acc) : State :=
  s.owned a.by_ (fun s =>
    if !s.loadedParts.isEmpty then s.fset .ROUTE_STATUS ROUTE_STATUS.ROUTE_REJ 1
    else (s.plainWrite r a).fset .ROUTE_STATUS ROUTE_STATUS.HASH_VALID 0)
/-- The register that an operand names. -/
def routeRegOf : RouteReg → Reg
  | .self => .ROUTE_SELF
  | .dest m => .ROUTE_DEST m.toNat
  | .mc g => .ROUTE_MC g

/-- RESERVED_OPC_PACKET -/
def execReservedOpcPacket (p : Port) (k : Packet) (s : State) : Res := live s (·.reservedOpc p k)
/-- ROUTE_TABLE_WRITE -/
def execRouteTableWrite (r : RouteReg) (a : Acc) (s : State) : Res := live s (·.routeWrite (routeRegOf r) a)

end Sys2Proof.Machine
end

