-- ==== Sys2Proof/Machine/Packets.lean ====
section
/-! DEFINITION. Remote operations at their target and at their issuer (spec/09_global_space.md R286 to R305, R349): landing, the
landing buffer, acknowledgements, GET data, and the completion counts of a channel. -/

namespace Sys2Proof.Machine

/-! Channels (R266, R290, R300). -/

/-- CHANNEL of a channel (R275, R289). -/
def chanCode : ChanId → Nat
  | .tile g ch => g * 4 + ch
  | .io i ch => 0x8000 + i * 32 + ch
/-- The channel that a CHANNEL code names. -/
def chanOf (c : Nat) : Option ChanId :=
  if c < 0x800 then some (.tile (Fin.ofNat 512 (c / 4)) (Fin.ofNat 4 c))
  else if 0x8000 ≤ c && c < 0x8080 then some (.io (Fin.ofNat 4 ((c - 0x8000) / 32)) (Fin.ofNat 32 c)) else none
/-- Bytes of a burst of a channel's mover (R271). -/
def chanBurst : ChanId → Nat
  | .tile _ _ => 256
  | .io _ _ => 512
/-- A channel of a data mover. -/
def State.chan (s : State) : ChanId → Chan
  | .tile g ch => tget {} (s.tile g).chans ch
  | .io i ch => tget {} s.idma (i * 32 + ch)
/-- A channel changed by a function. -/
def State.modChan (s : State) (c : ChanId) (f : Chan → Chan) : State :=
  match c with
  | .tile g ch => s.modTile g (fun t => { t with chans := tmod {} t.chans ch f })
  | .io i ch => { s with idma := tmod {} s.idma (i * 32 + ch) f }
/-- A packet completes at its issuer (R300). -/
def Chan.complete (c : Chan) (n : Nat := 1) : Chan := { c with done := c.done + BitVec.ofNat 32 n }
/-- A NACK completes its packet (R302): it is kept for the FENCE that covers it, an I/O-die channel shows its code (R304), and for a GET
request it ends the descriptor. -/
def State.nacked (s : State) (c : ChanId) (seq : BitVec 32) (code : Nat) : State :=
  let s := s.modChan c (fun q =>
    let q := q.complete
    let q := match c with | .tile _ _ => { q with nacks := q.nacks ++ [(seq, BitVec.ofNat 8 code)] } | .io _ _ => q
    match q.cur with
    | none => q
    | some x => if x.gets.any (·.1 = seq) then { q with cur := some { x with gets := x.gets.filter (·.1 != seq), fault := BitVec.ofNat 8 code } } else q)
  match c with
  | .io i ch => s.fset (.IDMA_STATUS i ch) IDMA_STATUS.LAST_FAULT code
  | .tile _ _ => s
/-- An answer to a packet of a channel arrives: the packet has one answer fewer to come (R304, R305). -/
def State.answered (s : State) (c : ChanId) (seq : BitVec 32) : State :=
  s.modChan c (fun q => { q with
    open_ := (q.open_.map (fun e => if e.1 = seq then (e.1, e.2 - 1) else e)).filter (fun e => e.2 != 0) })
/-- The descriptor that a channel runs, changed by a function. -/
def State.modXfer (s : State) (c : ChanId) (f : Xfer → Xfer) : State := s.modChan c (fun q => { q with cur := q.cur.map f })
/-- An access of a channel's descriptor is refused: the descriptor ends there, and the bytes moved so far stay moved (R268). -/
def Xfer.refuse (x : Xfer) (code : Nat) : Xfer :=
  { x with fault := if x.fault = 0 then BitVec.ofNat 8 code else x.fault, todo := [], got := [] }
/-- Bytes that a descriptor has written, by output (R275). -/
def Xfer.count (x : Xfer) (second : Bool) (n : Nat) : Xfer :=
  if second then { x with bytes2 := x.bytes2 + n } else { x with bytes := x.bytes + n }

/-! Landing (R291 to R298). -/

/-- What became of a landing. -/
inductive Landed where
  | done
  | waiting
  | refused (code : Nat)
  deriving DecidableEq, Repr

/-- Another module's packet is refused at this module (R292, R518). -/
def State.refusePkt (s : State) (h : PktHdr) (code : Nat) : State :=
  (s.raise { code := code, cls := cFLAG, origin := 6, addr := h.src.toNat }).sendOff .answer (s.nackOf h code)
/-- GET data for a request (R293). -/
def State.getDataOf (s : State) (h : PktHdr) (b : Bytes) : Packet :=
  { hdr := s.hdr oDATA h.reply.toNat b.length h.issuer.toNat h.seq.toNat, payload := b }
/-- An item reaches its bank (R291, R293, R295, R298): it lands, counts and is answered, or waits, or is refused. What a channel reads joins
its descriptor (R268). Bounds and retired patches are checked when an item arrives; an item that waits is not checked against a patch
that is retired meanwhile (R108 does not say when: DESIGN CHOICE, log entry 88). -/
def State.landItem (s : State) (g : Nat) (it : LandItem) : Landed × State :=
  if (s.rgn (g / 8)).quiesce then (.waiting, s)
  else match s.ownCheck g it.bank aREMOTE with
  | .refused c => (.refused c, s.bankEvent g c)
  | .wait => (.waiting, s)
  | .ok =>
    if 0 < it.readLen then
      let r := s.bankRead g it.bank it.off it.readLen { agent := aREMOTE }
      match it.ack, it.aper, it.chan with
      | some h, _, _ => (.done, r.2.sendOff .answer (s.getDataOf h r.1))
      | none, some p, _ => (.done, r.2.emit (.readBytes p r.1))
      | none, none, some c => (.done, r.2.modXfer c (fun x => { x with got := x.got ++ [r.1], asked := false }))
      | none, none, none => (.done, r.2.emit (.readData 7 r.1))
    else if it.counts && !s.countRoom g it.bank it.land_ then (.waiting, s)
    else
      let s := s.bankWrite g it.bank it.off it.view.toNat it.data { agent := aREMOTE }
      let s := if it.counts then s.countLanding g it.bank it.land_ else s
      match it.ack with
      | none => (.done, s)
      | some h => (.done, s.sendOff .answer (s.ackOf h))
/-- An item that arrives: one that must wait enters the landing buffer (R88, R298). -/
def State.arrive (s : State) (g : Nat) (it : LandItem) : Landed × State :=
  match s.landItem g it with
  | (.waiting, s) => (.waiting, s.modTile g (fun t => { t with landing := t.landing ++ [it] }))
  | r => r
/-- An aperture access is refused (R460): a read completes with every byte 0xFF, and the refusal is counted. -/
def State.aperRefused (s : State) (p : HostPort) (readLen : Nat) : State :=
  let s := (s.fadd (.HP_COUNT p) HP_COUNT.APER_REJ 1).fset (.HP_STATUS p) HP_STATUS.APER 1
  if 0 < readLen then s.emit (.readBytes p (List.replicate readLen 0xFF)) else s
/-- A waiting item is tried again: it stays, lands, or is refused. A write that a channel's descriptor waited for counts to it when it
lands, and a refusal ends the descriptor (R268, R276, R423). -/
def State.retryLanding (s : State) (g : Nat) (it : LandItem) : State :=
  match s.landItem g it with
  | (.waiting, s) => s.modTile g (fun t => { t with landing := t.landing ++ [it] })
  | (.done, s) => match it.chan with
    | some c => if 0 < it.readLen then s
        else s.modXfer c (fun x => { x.count it.second it.data.length with landing := x.landing - 1 })
    | none => s
  | (.refused c, s) => match it.ack, it.aper, it.chan with
    | some h, _, _ => s.refusePkt h c
    | none, some p, _ => s.aperRefused p it.readLen
    | none, none, some ch => s.modXfer ch (fun x =>
        let x := if 0 < it.readLen then { x with asked := false } else { x with landing := x.landing - 1 }
        x.refuse c)
    | none, none, none => s
/-- The landing buffer's items proceed where they can (R88, R298). -/
def State.drainLanding (s : State) (g : Nat) : State :=
  let l := (s.tile g).landing
  if l.isEmpty then s else l.foldl (fun s it => s.retryLanding g it) (s.modTile g (fun t => { t with landing := [] }))

/-- The die rank of a tile (R349): present tiles of its die with a lower logical tile number. -/
def State.dieRank (s : State) (g : Nat) : Nat :=
  match s.ltOfGt g with
  | none => 0
  | some lt => ((List.range 512).filter (fun h => h / 64 = g / 64 && s.tilePresent h && (match s.ltOfGt h with | none => false | some l => l < lt))).length
/-- The tile of a die with a die rank (R349). -/
def State.tileOfRank (s : State) (d rank : Nat) : Option Nat :=
  ((List.range 512).filter (fun h => h / 64 = d && s.tilePresent h)).find? (fun h => s.dieRank h = rank)
/-- An operation on a bank of a tile: bounds, then landing, with a NACK where it is refused (R286, R292). -/
def State.targetBank (s : State) (h : PktHdr) (g : Nat) (it : LandItem) (n : Nat) : State :=
  match s.bankBounds g it.bank it.off n with
  | .refused c => (s.bankEvent g c).refusePkt h c
  | _ => match s.arrive g it with
    | (.refused c, s) => s.refusePkt h c
    | (_, s) => s
/-- A PUT, SET, CLEAR or GET request at its target (R286, R291 to R295). -/
def State.target (s : State) (k : Packet) : State :=
  let h := k.hdr
  let a := h.ga.toNat
  let o := h.opc.toNat
  let read := o = oGET
  let n := if read then h.length.toNat else k.payload.length
  let view := if o = oSET then 1 else if o = oCLEAR then 2 else 0
  if gaSpace a = 2 then s.fadd .FLT_STATUS FLT_STATUS.MGMT_BAD 1
  else if !gaZeros a then s.refusePkt h fDECODE
  else if gaSpace a = 0 then
    match s.tileOfGa (h.flags.getLsbD 0) (gaTile a) with
    | none => s.refusePkt h fABSENT
    | some g =>
      s.targetBank h g { bank := gaBank a, off := gaOff a, view := BitVec.ofNat 2 view, data := k.payload, readLen := if read then n else 0
                         land_ := if h.flags.getLsbD 1 then some (s.fullStage h.land_.toNat).toNat else none, ack := some h, counts := !read } n
  else
    let off := gaDram a
    if dramSize < off + n then s.refusePkt h fBOUNDS
    else if read then
      let r := s.dramRead off n (plainWho (.packet h.src))
      r.2.sendOff .answer (s.getDataOf h r.1)
    else
      let w := plainWho (.packet h.src)
      let s := if view = 0 then s.dramWrite off k.payload w else s.dramView view off k.payload w
      s.sendOff .answer (s.ackOf h)
/-- A copy of a group packet for one die (R349). A packet for LPDDR5X names no tile, and each copy of it goes where it says (log entry 89). -/
def State.targetDie (s : State) (k : Packet) (d : Nat) : State :=
  let h := k.hdr
  let a := h.ga.toNat
  if gaSpace a != 0 then s.target k else match s.tileOfGa (h.flags.getLsbD 0) (gaTile a) with
  | none => s.refusePkt h fABSENT
  | some x => match s.tileOfRank d (s.dieRank x) with
    | none => s
    | some g =>
      let p := a - gaTile a * 2 ^ 37 + g * 2 ^ 37
      s.target { k with hdr := { h with ga := BitVec.ofNat 64 p, flags := h.flags &&& 0xFE } }
/-- A group packet is delivered once to each die in DIES (R349). -/
def State.targetGroup (s : State) (k : Packet) (g : Nat) : State :=
  let r := Reg.ROUTE_MC g
  if !s.flag r ROUTE_MC.VALID then s
  else if gaSpace k.hdr.ga.toNat = 2 then s.target k
  else ((List.range 8).filter (fun d => (s.fget r ROUTE_MC.DIES).testBit d)).foldl (fun s d => s.targetDie k d) s
/-- A request packet of one kind arrives (R291, R341). -/
def State.requestPacket (s : State) (p : Port) (k : Packet) (opc : Nat) : State :=
  if k.hdr.opc.toNat != opc then s else s.acceptIn p k (·.target k) (fun g s => s.targetGroup k g)

/-! At the issuer (R293, R300, R302, R304). -/

/-- A packet for an issuing channel arrives. -/
def State.answerPacket (s : State) (p : Port) (k : Packet) (opc : Nat) (f : ChanId → State → State) : State :=
  if k.hdr.opc.toNat != opc then s
  else s.acceptIn p k (fun s => match chanOf k.hdr.issuer.toNat with | none => s | some c => f c s) (fun _ s => s)
/-- GET data lands at a destination of the issuer as the channel's own access (R268, R293): the fault code of a refusal, 0 when it has
landed, or none while the channel is the bank's pending owner (R87). -/
def State.landGet (s : State) (c : ChanId) (x : Xfer) (addr : Nat) (b : Bytes) : Option Nat × State :=
  let n := b.length
  let bank (g k off view : Nat) (own : Bool) : Option Nat × State :=
    let ag := match c with | .tile _ ch => if own then aDMA ch else aREMOTE | .io _ _ => aREMOTE
    if (s.rgn (g / 8)).quiesce then (none, s) else
    match (s.bankBounds g k off n).andThen (s.ownCheck g k ag) with
    | .ok => (some 0, s.bankWrite g k off view b { agent := ag, stage := some x.stage })
    | .refused e => (some e, s.bankEvent g e)
    | .wait => (none, s.markWait g k)
  match x.d.dstKind.toNat, c with
  | 0, .tile g _ => bank g (laBank addr) (laOff addr) (laView addr) true
  | 1, _ =>
    if gaSpace addr = 1 then
      (some 0, s.dramWrite (gaDram addr) b (match c with | .tile g ch => (.tile g, { agent := aDMA ch, stage := some x.stage }) | .io i ch => plainWho (.io i ch)))
    else match s.tileOfGa (match c with | .tile _ _ => true | .io _ _ => false) (gaTile addr) with
      | none => (some fABSENT, s)
      | some g => bank g (gaBank addr) (gaOff addr) 0 (match c with | .tile h _ => h.val = g | .io _ _ => false)
  | 2, .io i _ => (some 0, s.emit (.hostWrite (if i = 0 then 0 else 1) (BitVec.ofNat 64 addr) b))
  | _, _ => (some fDECODE, s)
/-- GET_DATA_PACKET (R273, R293, R300): the data stays in the inbound path until the channel's slots have carried its bursts. -/
def State.getData (s : State) (c : ChanId) (k : Packet) : State :=
  let seq := k.hdr.seq
  match (s.chan c).cur with
  | none => s.modChan c (·.complete)
  | some x =>
    if x.gets.any (·.1 = seq) && !x.inq.any (·.1 = seq) then
      s.modXfer c (fun x => { x with inq := x.inq ++ [(seq, k.payload, divUp k.payload.length (chanBurst c))] })
    else s.modChan c (·.complete)

/-- SCAN_END -/
def execScanEnd (g : Gt) (o : MarchResult) (s : State) : Res := live s (fun s => (s.scanEnd g o.failing).drainLanding g)
/-- GET_REQUEST_PACKET -/
def execGetRequestPacket (p : Port) (k : Packet) (s : State) : Res := live s (·.requestPacket p k oGET)
/-- PUT_PACKET -/
def execPutPacket (p : Port) (k : Packet) (s : State) : Res := live s (·.requestPacket p k oPUT)
/-- SET_PACKET -/
def execSetPacket (p : Port) (k : Packet) (s : State) : Res := live s (·.requestPacket p k oSET)
/-- CLEAR_PACKET -/
def execClearPacket (p : Port) (k : Packet) (s : State) : Res := live s (·.requestPacket p k oCLEAR)
/-- GET_DATA_PACKET -/
def execGetDataPacket (p : Port) (k : Packet) (s : State) : Res := live s (·.answerPacket p k oDATA (fun c s => s.getData c k))
/-- ACK_PACKET (R300) -/
def execAckPacket (p : Port) (k : Packet) (s : State) : Res := live s (·.answerPacket p k oACK (fun c s => (s.modChan c (·.complete)).answered c k.hdr.seq))
/-- NACK_PACKET (R302) -/
def execNackPacket (p : Port) (k : Packet) (s : State) : Res :=
  live s (·.answerPacket p k oNACK (fun c s => (s.nacked c k.hdr.seq (k.hdr.length.toNat % 256)).answered c k.hdr.seq))
/-- LANDING_BUFFER_RESUME -/
def execLandingBufferResume (g : Gt) (s : State) : Res := live s (·.drainLanding g)

end Sys2Proof.Machine
end

