-- ==== Sys2Proof/Machine/Queue.lean ====
section
/-! DEFINITION. The command queues of a tile (spec/07_command_streams.md R225 to R240, R251 to R258): gates, waits, predicates, the
begin and the end of an engine command, and the entries that act at the head of a queue. -/

namespace Sys2Proof.Machine

/-! Queues (R227). -/

/-- Entries of an agent's queue. -/
def queueCap (q : Nat) : Nat := if q = aMXE || q = aVEC then 512 else 256
/-- An agent's queue. -/
def State.queue (s : State) (g q : Nat) : List QItem := tget [] (s.tile g).queues q
/-- An agent's queue replaced. -/
def State.putQueue (s : State) (g q : Nat) (l : List QItem) : State := s.modTile g (fun t => { t with queues := tput [] t.queues q l })
/-- Whether a queue can take an entry. -/
def State.queueRoom (s : State) (g q : Nat) : Bool := (s.queue g q).length < queueCap q
/-- The queue of an engine command (R229). -/
def engQueue : EngCmd → Nat
  | .matmul _ => aMXE
  | .accstore _ => aMXE
  | .vec _ _ => aVEC
  | .desc ch _ _ => aDMA ch

/-! The gates (R225, R231). -/

/-- Whether a stage's work edge has passed at a tile (R225): WORK_STAGE is that stage or a later one. -/
def State.gateOpen (s : State) (g stage : Nat) : Bool := reached (s.fget (.SEQ_STATUS g) SEQ_STATUS.WORK_STAGE) (stage % 2 ^ 32)
/-- The value of a tile predicate. -/
def State.tilePred (s : State) (g i : Nat) : Bool := (s.reg (.PRED g)).toNat.testBit i
/-- The value of a seat predicate (R235). -/
def State.seatPred (s : State) (g i : Nat) : Bool := (s.reg (.SEAT_PRED g (i / 64))).toNat.testBit (i % 64)
/-- The seat count of the round template of the tile's plan, 0 without one (R231). -/
def State.seatCount (s : State) (g : Nat) : Nat :=
  match s.planOfTile g with
  | none => 0
  | some pl => match pl.round with | none => 0 | some r => r.seats.length
/-- The outcome of point 3 of R231: a bad predicate field, a skip, or a run. -/
inductive PredOut where
  | bad
  | skip
  | run
  deriving DecidableEq, Repr
/-- The predicate of a command at its begin point (R231, R234, R236); `pred` is the tile predicate taken at enqueue. -/
def State.predicate (s : State) (g : Nat) (h : CmdHdr) (pred : Bool) : PredOut :=
  let i := h.predIdx.toNat
  match h.predKind.toNat with
  | 0 => .run
  | 1 => if 63 < i then .bad else if pred != h.predNeg then .run else .skip
  | 2 => if s.seatCount g ≤ i then .bad else if s.seatPred g i != h.predNeg then .run else .skip
  | _ => .bad
/-- The entry of an engine command that is enqueued now (R224, R234). -/
def State.engItem (s : State) (g : Nat) (h : CmdHdr) (c : EngCmd) : QItem :=
  { stage := (s.tile g).issue, pred := h.predKind.toNat = 1 && s.tilePred g h.predIdx.toNat, body := .eng h c }

/-! Engine registers. -/

/-- Whether an entry is a command of an accumulator buffer in progress. -/
def onBuffer (b : Nat) (drain : Bool) (i : QItem) : Bool :=
  match i.body with
  | .eng _ (.matmul o) => !drain && o.acc.toNat = b
  | .eng _ (.accstore o) => drain && o.acc.toNat = b
  | _ => false
/-- BUSY and the buffer holders follow the queue (MXE_STATUS, VEC_STATUS, TDMA_STATUS). -/
def State.refreshEngine (s : State) (g q : Nat) : State :=
  let run := (s.queue g q).filter (fun i => i.phase = .running && match i.body with | .eng _ _ => true | _ => false)
  if q = aMXE then
    let holder (b : Nat) : Nat := if run.any (onBuffer b true) then 2 else if run.any (onBuffer b false) then 1 else 0
    let s := s.fset (.MXE_STATUS g) MXE_STATUS.BUSY (b2n (!run.isEmpty))
    (s.fset (.MXE_STATUS g) MXE_STATUS.ACC0_HOLDER (holder 0)).fset (.MXE_STATUS g) MXE_STATUS.ACC1_HOLDER (holder 1)
  else if q = aVEC then s.fset (.VEC_STATUS g) VEC_STATUS.BUSY (b2n (!run.isEmpty))
  else s.fset (.TDMA_STATUS g (q - 3)) TDMA_STATUS.BUSY (b2n (!run.isEmpty))
/-- LAST_FAULT of an engine. -/
def State.setLastFault (s : State) (g q code : Nat) : State :=
  if q = aMXE then s.fset (.MXE_STATUS g) MXE_STATUS.LAST_FAULT code
  else if q = aVEC then s.fset (.VEC_STATUS g) VEC_STATUS.LAST_FAULT code
  else s.fset (.TDMA_STATUS g (q - 3)) TDMA_STATUS.LAST_FAULT code

/-! Entries that act at the head (R254, R256, R301, R302). -/

/-- A FENCE on a channel completes (R301, R302): the codes of its NACKs are raised, and its tally rises. -/
def State.fenceDone (s : State) (g q tally : Nat) : State :=
  let c := ChanId.tile (Fin.ofNat 512 g) (Fin.ofNat 4 (q - 3))
  let bad := (s.chan c).nacks
  let s := s.modChan c (fun k => { k with nacks := [] })
  (bad.foldl (fun s e => s.raiseTile g q e.2.toNat (some s.stage)) s).raiseTally g tally 1
/-- Whether a channel's DONE has reached a count. -/
def State.doneReached (s : State) (g q v : Nat) : Bool :=
  reached (s.chan (.tile (Fin.ofNat 512 g) (Fin.ofNat 4 (q - 3)))).done.toNat v
/-! Beginning (R172, R231 to R233). -/

/-- What a command's begin point, or the next try of its accesses, comes to: it waits to begin with a wait that R240 limits, it stands
without one (R277), it has begun and one of its accesses waits at a bank (R87), with what it has done so far in its entry, or it has made
its accesses, with a fault code that is 0 when none ended it; `more` says that accesses of a descriptor still wait. -/
inductive Began where
  | waits
  | stands
  | holds (i : QItem)
  | ran (code : Nat) (more : Bool := false)
  deriving DecidableEq, Repr

/-- Whether a command may begin behind the entries ahead of it: alone on VEC and the channels; on MXE as R172 lets the buffers
overlap. -/
def mayBegin (ahead : List QItem) (c : EngCmd) : Bool :=
  match c with
  | .matmul o => ahead.all (fun i => i.phase = .running && (match i.body with | .eng _ (.matmul _) => true | .eng _ (.accstore p) => p.acc != o.acc | _ => false))
  | .accstore o => ahead.all (fun i => i.phase = .running && (match i.body with | .eng _ (.matmul p) => p.acc != o.acc | _ => false))
  | _ => ahead.isEmpty
/-- An entry of a queue replaced. -/
def State.putEntry (s : State) (g q ix : Nat) (i : QItem) : State := s.putQueue g q ((s.queue g q).set ix i)
/-- The checks and accesses of a command past point 3 of R231 are tried; what they come to stands in its entry. -/
def State.runEntry (s : State) (g q ix : Nat) (i : QItem) (run : QItem → State → Began × State) : State :=
  match run i s with
  | (.waits, s) => s.putEntry g q ix { i with waiting := true, pastWait := true, waitB := if i.pastWait then i.waitB else 0 }
  | (.stands, s) => s.putEntry g q ix { i with waiting := false, pastWait := true, waitB := 0 }
  | (.holds j, s) =>
    (s.putEntry g q ix { j with phase := .running, begun := true, waiting := true
                                waitB := if i.begun && i.rows = j.rows && i.ixs = j.ixs then i.waitB else 0 }).refreshEngine g q
  | (.ran code more, s) =>
    (s.putEntry g q ix { i with phase := .running, begun := true, waiting := more, waitB := if more && i.begun then i.waitB else 0
                                fault := BitVec.ofNat 8 code }).refreshEngine g q
/-- The entry at an index begins: gate, wait, predicate, then the command's own checks and accesses (R231). One that has begun and waits at
a bank tries its next access again; its predicate, its fields and its index tensors are not looked at again (R231, R236, R248). While its
region is quiesced no command begins or goes on (R46). -/
def State.beginAt (s : State) (g q ix : Nat) (h : CmdHdr) (c : EngCmd) (run : QItem → State → Began × State) : State :=
  let l := s.queue g q
  match l[ix]? with
  | none => s
  | some i =>
    let put (s : State) (i : QItem) : State := s.putEntry g q ix i
    if (s.rgn (g / 8)).quiesce then s
    else if i.begun then (if i.waiting then s.runEntry g q ix i run else s)
    else if !mayBegin (l.take ix) c || !s.gateOpen g i.stage then s
    else if h.waitEn && !s.tallyReached g h.waitT h.waitV.toNat then put s { i with waiting := true }
    else match s.predicate g h i.pred with
      | .bad => (put s { i with phase := .running, waiting := false, fault := BitVec.ofNat 8 fDECODE }).refreshEngine g q
      | .skip => (put s { i with phase := .running, waiting := false, skipped := true }).refreshEngine g q
      | .run => s.runEntry g q ix i run
/-- SIGNALs and FENCEs at the head of a queue act, one after another, while their stage gate is open. A VEC command whose operation name the
module does not define begins there, and is refused (R198). -/
def State.drainQueue (s : State) (g q : Nat) : Nat → State
  | 0 => s
  | n + 1 =>
    match s.queue g q with
    | [] => s
    | i :: r =>
      if !s.gateOpen g i.stage then s
      else match i.body with
        | .signal t amt => ((s.putQueue g q r).raiseTally g t amt.toNat).drainQueue g q n
        | .fence t =>
          if i.phase = .running then s
          else
            let issued := (s.chan (.tile (Fin.ofNat 512 g) (Fin.ofNat 4 (q - 3)))).issued
            if s.doneReached g q issued.toNat then ((s.putQueue g q r).fenceDone g q t).drainQueue g q n
            else s.putQueue g q ({ i with phase := .running, captured := issued, waiting := true } :: r)
        | .eng h (.vec .undefined o) => if i.phase = .queued then s.beginAt g q 0 h (.vec .undefined o) (fun _ s => (.ran fDECODE, s)) else s
        | _ => s
/-- The head of a queue acts as far as it can. -/
def State.drain (s : State) (g q : Nat) : State := s.drainQueue g q 513

/-- A row that names an engine command (log entry 16): the first entry that holds it and has not begun, or waits at a bank, tries to begin
or to go on; without one the command is enqueued first, where the queue has room. While the region is quiesced nothing is issued (R46). -/
def State.engineRow (s : State) (g : Nat) (h : CmdHdr) (c : EngCmd) (run : QItem → State → Began × State) : State :=
  if !s.tilePresent g then s
  else
    let q := engQueue c
    match (s.queue g q).findIdx? (fun i => (i.phase = .queued || i.waiting) && i.body = .eng h c) with
    | some ix => s.beginAt g q ix h c run
    | none =>
      if !s.queueRoom g q || (s.rgn (g / 8)).quiesce then s
      else
        let ix := (s.queue g q).length
        (s.putQueue g q (s.queue g q ++ [s.engItem g h c])).beginAt g q ix h c run

/-! Ending (R231 point 6, R233). -/

/-- A command ends: its fault is raised, its tallies rise, its entry frees, and the queue goes on. VEC_WORK counts a completed one. -/
def State.endEntry (s : State) (g q ix : Nat) : State :=
  match (s.queue g q)[ix]? with
  | none => s
  | some i =>
    match i.body with
    | .eng h _ =>
      let code := i.fault.toNat
      let s := if code = 0 then s else (s.setLastFault g q code).raiseTile g q code (some i.stage)
      let s := if q = aVEC && code = 0 && !i.skipped then s.fadd (.VEC_WORK g) VEC_WORK.COMMANDS 1 else s
      let s := if h.sig0En then s.raiseTally g h.sig0T 1 else s
      let s := if h.sig1En then s.raiseTally g h.sig1T 1 else s
      ((s.putQueue g q ((s.queue g q).eraseIdx ix)).refreshEngine g q).drain g q
    | _ => s
/-- The kind of an engine command for the order of ends: ACCSTOREs overlap MATMULs of the other buffer and may end before them (R172, R227). -/
def drains (i : QItem) : Bool := match i.body with | .eng _ (.accstore _) => true | _ => false
/-- The entry of an agent that ends: the first one in progress with no access to come, or with `drain` the first such ACCSTORE (R227). -/
def State.runningIx (s : State) (g q : Nat) (drain : Bool) : Option Nat :=
  (s.queue g q).findIdx? (fun i => i.phase = .running && !i.waiting && (match i.body with | .eng _ _ => true | _ => false) && (!drain || drains i))

/-! Waits (R240). -/

/-- Every wait in progress at a tile has lasted one more stage boundary. -/
def State.waitTick (s : State) (g : Nat) : State :=
  s.modTile g (fun t => { t with
    seqWait := t.seqWait.map (fun w => { w with waitB := w.waitB + 1 })
    queues := t.queues.map (fun e => (e.1, e.2.map (fun i => if i.waiting then { i with waitB := i.waitB + 1 } else i)))
    pend := t.pend.map (fun h => if h.waiting then { h with waitB := h.waitB + 1 } else h)
    landing := t.landing.map (fun i => { i with waitB := i.waitB + 1 }) })
/-- TALLY_WAIT is raised for an agent of a tile; the faulting stage is the stage that ended (R240). The wait of a remote access is none of a
command or sequencer of the tile, so SEQ_FAULT does not take it (R258). -/
def State.raiseWait (s : State) (g agent : Nat) : State :=
  if agent = aREMOTE then
    s.raise { code := fTALLY_WAIT, origin := 0, id := g, agent := aREMOTE, fstage := some (s.stage - 1), parts := (s.partOfTile g).toList }
  else s.raiseTile g agent fTALLY_WAIT (some (s.stage - 1))
/-- TALLY_WAIT (R240): the wait named has lasted the limit; it is raised once for a wait. -/
def State.tallyWait (s : State) (g : Nat) (w : WaitWho) : State :=
  let lim := s.fget (.TALLY_LIMIT g) TALLY_LIMIT.LIMIT
  let t := s.tile g
  if !s.tilePresent g then s
  else match w with
    | .seq => match t.seqWait with
      | some v => if v.waitB = lim then (s.modTile g (fun t => { t with seqWait := some { v with waitB := lim + 1 } })).raiseWait g aSEQ else s
      | none => s
    | .agent a =>
      let l := s.queue g a.toNat
      match l.findIdx? (fun i => i.waiting && i.waitB = lim) with
      | none => s
      | some ix => match l[ix]? with
        | none => s
        | some i => (s.putQueue g a.toNat (l.set ix { i with waitB := lim + 1 })).raiseWait g a.toNat
    | .bank k => match t.pend.find? (fun h => h.bank = k.val && h.waiting && h.waitB = lim) with
      | none => s
      | some h => (s.modTile g (fun t => { t with pend := t.pend.map (fun e => if e = h then { h with waitB := lim + 1 } else e) })).raiseWait g h.towards.toNat
    | .landing => match t.landing.findIdx? (fun i => i.waitB = lim) with
      | none => s
      | some ix => match t.landing[ix]? with
        | none => s
        | some i => (s.modTile g (fun t => { t with landing := t.landing.set ix { i with waitB := lim + 1 } })).raiseWait g aREMOTE

/-! Effect points (R86, R101, R251). -/

/-- Whether a handover or scan from an agent stands at the head of its queue with its gate open. -/
def State.atHead (s : State) (g : Nat) (h : PendHo) : Bool :=
  match s.queue g h.frm.toNat with
  | i :: _ => s.gateOpen g i.stage && (i.body = .handover h.bank || i.body = .scan h.bank)
  | [] => false
/-- HANDOVER_EFFECT and SCAN_START: a pending handover or scan of a bank reaches its effect point (R86, R101); a scan waits
for the tile's scanner (R104, log entry 82). -/
def State.effectPoint (s : State) (g k : Nat) (scan : Bool) : State :=
  match (s.tile g).pend.find? (fun h => h.bank = k && h.scan = scan) with
  | none => s
  | some h =>
    if h.frm.toNat = aREMOTE then (s.remoteEffects g k).drainLanding g
    else if s.atHead g h && s.scannerFree g h then
      let s := s.putQueue g h.frm.toNat ((s.queue g h.frm.toNat).drop 1)
      ((s.pendEffect g h).drainLanding g).drain g h.frm.toNat
    else s

/-- The tile's share of a stage's work edge (R225, R226): WORK_STAGE, and what the heads of its queues wait for. -/
def State.drainTile (s : State) (g : Nat) : State := [1, 2, 3, 4, 5, 6].foldl (fun s q => s.drain g q) s

/-- HANDOVER_EFFECT -/
def execHandoverEffect (g : Gt) (k : Bank) (s : State) : Res := live s (·.effectPoint g k false)
/-- SCAN_START -/
def execScanStart (g : Gt) (k : Bank) (s : State) : Res := live s (·.effectPoint g k true)
/-- TALLY_WAIT -/
def execTallyWait (g : Gt) (w : WaitWho) (s : State) : Res := live s (·.tallyWait g w)

end Sys2Proof.Machine
end

