-- ==== Sys2Proof/Machine/Operands.lean ====
section
/-! DEFINITION. Operand forms that several commands share: extents and ownership of operands in the tile's own banks (R77, R84, R87),
index tensors (R247 to R250), and the binding of rows to seats (R185). -/

namespace Sys2Proof.Machine

/-- The first outcome of a list of checks that is not `ok`. -/
def firstBad (l : List Chk) : Chk := l.foldl Chk.andThen .ok
/-- The extents of operands in the tile's own banks: view and bounds (R77 to R79). -/
def State.extents (s : State) (g : Nat) (l : List (Nat × Nat)) : Chk := firstBad (l.map (fun e => s.laCheck g e.1 e.2))
/-- The ownership of operands at their accesses (R84, R87), in order; an operand of 0 bytes has no access. -/
def State.owners (s : State) (g agent : Nat) (l : List (Nat × Nat)) : Chk :=
  firstBad (l.map (fun e => if e.2 = 0 then .ok else s.ownCheck g (laBank e.1) agent))
/-- A refusal before or at an access of a command: BANK_EVENT follows (R124). -/
def refuse (s : State) (g code : Nat) : Began × State := (.ran code, s.bankEvent g code)
/-- The outcome of reading an index tensor. -/
inductive Ixs where
  | bad (code : Nat)
  | waits
  | ok (l : List (BitVec 32))
  deriving DecidableEq, Repr

/-- Reads an index tensor of `n` entries (R247, R248): 4-byte aligned, in one bank, owned by the reader. -/
def State.readIndex (s : State) (g agent a n : Nat) (stage : Option Nat) : Ixs × State :=
  if n = 0 then (.ok [], s)
  else if a % 4 != 0 then (.bad fDECODE, s)
  else match s.laCheck g a (4 * n) with
    | .refused c => (.bad c, s.bankEvent g c)
    | _ => match s.ownCheck g (laBank a) agent with
      | .refused c => (.bad c, s.bankEvent g c)
      | .wait => (.waits, s)
      | .ok =>
        let r := s.bankRead g (laBank a) (laOff a) (4 * n) { agent := agent, stage := stage }
        (.ok ((chunksOf 4 n r.1).map (fun b => BitVec.ofNat 32 (leNat b))), r.2)
/-- Reads the index tensors of a command that it has not read yet, in order, at point 4 of R231 (R248): those that it has read stay as they
were read. A tensor is given by its address and its entries. -/
def State.readTensors (s : State) (g agent : Nat) (i : QItem) : List (Nat × Nat) → Ixs × QItem × State
  | [] => (.ok [], i, s)
  | e :: r =>
    match s.readIndex g agent e.1 e.2 (some i.stage) with
    | (.ok l, s) => s.readTensors g agent { i with ixs := i.ixs ++ [l] } r
    | (x, s) => (x, i, s)
/-- A row address entry passes (R249): plain view, and its extent within bounds. -/
def State.rowAddrOk (s : State) (g : Nat) (e : BitVec 32) (n : Nat) : Bool := laView e.toNat = 0 && s.laCheck g e.toNat n = .ok
/-- A seat entry passes (R249). -/
def seatOk (seats : Nat) (e : BitVec 32) : Bool := e.toInt = -1 || e.toNat < seats

/-- The seat key of a seat, where it holds a request (R402). -/
def State.seatKey (s : State) (g seat : Nat) : SeatKey := tget {} (s.tile g).keys seat
/-- The plan seed of the tile's plan, 0 without one. -/
def State.planSeed (s : State) (g : Nat) : Word := match s.planOfTile g with | none => 0 | some pl => pl.seed
/-- The key of a row bound to a seat at an offset from its start; an empty seat uses the plan seed and POSITION 0 (R185, R250). -/
def State.rowKey (s : State) (g : Nat) (seat : Option Nat) (off : Nat) : RowKey :=
  match seat with
  | none => { seed := s.planSeed g, pos := 0, seated := false }
  | some n => match (s.seatKey g n).req with
    | none => { seed := s.planSeed g, pos := 0, seated := false }
    | some _ => { seed := (s.seatKey g n).seed, pos := ((s.seatKey g n).start.toNat + off) % 2 ^ 32, seated := true }
/-- The keys of the rows of a command by ROWBIND (R185), given the seats that BIND's tensor holds. -/
def State.rowKeys (s : State) (g rowbind bind rows : Nat) (seats : List (BitVec 32)) : List RowKey :=
  (List.range rows).map (fun i =>
    match rowbind with
    | 0 => s.rowKey g none 0
    | 1 => s.rowKey g (some bind) i
    | _ => let e := seats.getD i 0xFFFFFFFF; s.rowKey g (if e.toInt = -1 then none else some e.toNat) 0)
/-- Whether the ROWBIND fields are refused with DECODE (R185). -/
def State.rowbindBad (s : State) (g rowbind bind : Nat) : Bool := rowbind = 3 || (rowbind = 1 && s.seatCount g ≤ bind)

end Sys2Proof.Machine
end

