-- ==== Sys2Proof/Machine/Matrix.lean ====
section
/-! DEFINITION. The matrix engine (spec/05_matrix_engine.md R162 to R191): operand pairs, accumulator buffers, the order of addition,
MATMUL and ACCSTORE. -/

namespace Sys2Proof.Machine

/-! Operand pairs (R165). -/

/-- The sum classes of R175. -/
inductive SumClass where
  | tree | block | group | integer
  deriving DecidableEq, Repr
/-- What the operand pair table gives a pair: K_tile and its sum class. -/
structure Pair where
  kt : Nat
  cls : SumClass
  deriving DecidableEq, Repr
/-- The operand pair table, streaming format first (R165). -/
def pairOf (a b : Fmt) : Option Pair :=
  match a, b with
  | .fp32, .fp32 => some ⟨8, .tree⟩
  | .bf16, .bf16 => some ⟨32, .tree⟩
  | .fp16, .fp16 => some ⟨32, .tree⟩
  | .bf16, .e4m3 => some ⟨32, .tree⟩
  | .bf16, .e5m2 => some ⟨32, .tree⟩
  | .e4m3, .e4m3 => some ⟨64, .tree⟩
  | .e4m3, .e5m2 => some ⟨64, .tree⟩
  | .e5m2, .e4m3 => some ⟨64, .tree⟩
  | .e5m2, .e5m2 => some ⟨64, .tree⟩
  | .bf16, .e3m2 => some ⟨32, .block⟩
  | .bf16, .e2m3 => some ⟨32, .block⟩
  | .bf16, .e2m1 => some ⟨32, .block⟩
  | .int8, .int8 => some ⟨64, .integer⟩
  | .int8, .int4 => some ⟨64, .integer⟩
  | .int4, .int4 => some ⟨128, .integer⟩
  | .int8, .t3 => some ⟨256, .group⟩
  | .int4, .t3 => some ⟨256, .group⟩
  | .e4m3, .t3 => some ⟨128, .group⟩
  | .e5m2, .t3 => some ⟨128, .group⟩
  | .bf16, .t3 => some ⟨64, .group⟩
  | a, b => if a.micro && b.micro then some ⟨128, .block⟩ else none

/-! Sums (R175). -/

/-- One level of the pairwise tree. -/
def treeLevel : List Val → List Val
  | a :: b :: r => rne32 (a.add b) :: treeLevel r
  | l => l
/-- The fixed pairwise tree. -/
def treeSum : Nat → List Val → Val
  | 0, l => l.headD .zero
  | n + 1, l => match l with
    | [a] => a
    | l => treeSum n (treeLevel l)
/-- The exact sum of a nonempty list. -/
def exactSum : List Val → Val
  | [] => .zero
  | a :: r => r.foldl Val.add a
/-- The scale of block or group `i`: the product of both operands' scales where both are scaled. -/
def scaleAt (a b : List Val) (i : Nat) : Val :=
  match a[i]?, b[i]? with
  | some x, some y => x.mul y
  | some x, none => x
  | none, some y => y
  | none, none => .num false 1 0
/-- One accumulator entry over all chunks (R168, R175, R176). `exactInt` says that the products are integers, whose zero has no sign. -/
def accumulate (p : Pair) (exactInt : Bool) (a b : List Val) (sa sb : List Val) (acc : BitVec 32) : BitVec 32 :=
  let prods := List.zipWith Val.mul a b
  match p.cls with
  | .integer =>
    let sum := (exactSum prods).at_ 0
    acc + BitVec.ofInt 32 sum
  | .tree => bits32 ((pieces p.kt prods.length (padVals p.kt prods)).foldl (fun x l => rne32 (x.add (treeSum 8 l))) (val32 acc))
  | _ =>
    let w := if p.cls = .block then 32 else 64
    let term (l : List Val) (i : Nat) : Val :=
      let t := exactSum l
      rne32 ((if exactInt && t.isZero then .zero else t).mul (scaleAt sa sb i))
    bits32 ((pieces w prods.length (padVals w prods)).zipIdx.foldl (fun x l => rne32 (x.add (term l.1 l.2))) (val32 acc))

/-! Accumulator buffers (R170 to R174). -/

/-- Where an accumulator entry is held. -/
def accKey (b row col : Nat) : Nat := (b * 512 + row) * 128 + col
/-- The words of a row's first `n` columns that hold an error. -/
def State.accMarks (s : State) (g b row n : Nat) : List (Nat × BitVec 2) :=
  (s.tile g).accBad.filter (fun e => accKey b row 0 / 2 ≤ e.1 && e.1 < (accKey b row n + 1) / 2)
/-- A word of an accumulator read with an error: corrected and counted, or SRAM_UE (R173). -/
def State.accError (s : State) (g : Nat) (stage : Nat) (e : Nat × BitVec 2) : State :=
  let r := Reg.MXE_ACC_ECC g
  if e.2 = 2 then (s.fset r MXE_ACC_ECC.UE 1).raiseTile g aMXE fSRAM_UE (some stage)
  else
    let s := (s.fadd r MXE_ACC_ECC.CE_COUNT 1).fset r MXE_ACC_ECC.CE_BUF (e.1 / 32768)
    (s.fset r MXE_ACC_ECC.CE_ROW (e.1 / 64 % 512)).fset r MXE_ACC_ECC.CE_PAIR (e.1 % 64)
/-- The first `n` entries of an accumulator row. -/
def State.accRow (s : State) (g b row n : Nat) : List (BitVec 32) :=
  let w := (s.tile g).acc.filter (fun e => accKey b row 0 ≤ e.1 && e.1 < accKey b row n)
  (List.range n).map (fun c => tget 0 w (accKey b row c))
/-- A read of an accumulator row: its errors are met. -/
def State.accRead (s : State) (g b row n stage : Nat) : List (BitVec 32) × State :=
  (s.accRow g b row n, (s.accMarks g b row n).foldl (fun s e => s.accError g stage e) s)
/-- A write of the first entries of an accumulator row. A last word written in half is merged: an uncorrectable one is raised and keeps
its bits, as in a bank (R97, R173). -/
def State.accWrite (s : State) (g b row stage : Nat) (l : List (BitVec 32)) : State :=
  let k := accKey b row 0
  let n := l.length
  let half := (k + n) / 2
  let marks := s.accMarks g b row n
  let merged := marks.filter (fun e => n % 2 = 1 && e.1 = half)
  let keep := merged.any (fun e => e.2 = 2)
  let l := if keep then l.take (n - 1) else l
  let new := (l.zipIdx.map (fun e => (k + e.2, e.1))).filter (fun e => e.2 != 0)
  let gone := (marks.filter (fun e => !(keep && e.1 = half))).map (·.1)
  let s := s.modTile g (fun t => { t with
    acc := t.acc.filter (·.1 < k) ++ new ++ t.acc.filter (k + l.length ≤ ·.1)
    accBad := t.accBad.filter (fun e => !gone.contains e.1) })
  merged.foldl (fun s e => s.accError g stage e) s

/-! MATMUL (R178 to R183). -/

/-- The K unscaled elements of a row or of a column's segments, and its scales. -/
def mxeRow (f : Fmt) (n : Nat) (elems scales : Bytes) : List Val × List Val :=
  let v (j : Nat) : Val := if f = .t3 then Val.ofInt (trit elems j) else f.value (packedCode f elems j)
  let sc : List Val :=
    if f.micro then (List.range (divUp n 32)).map (fun i => e8m0 (leAt scales i 1))
    else if f = .t3 then (List.range (divUp n 64)).map (fun i => bf16.decode (leAt scales (2 * i) 2))
    else []
  ((List.range n).map v, sc)
/-- Whether MATMUL's fields are refused, before its zero-count rules (R181, R231). -/
def State.matmulFields (o : MatmulOps) : Nat ⊕ (Fmt × Fmt × Pair) :=
  match fmtOf o.aFmt, fmtOf o.bFmt with
  | some a, some b =>
    if 128 < o.n.toNat || (o.aIdx && o.a.toNat % 4 != 0) then .inl fDECODE
    else match pairOf a b with
      | none => .inl fFORMAT
      | some p => .inr (a, b, p)
  | _, _ => .inl fDECODE
/-- The work of a MATMUL in MXE_WORK (R187): a pass for each chunk, and the steps that a panel load held the array. Those before the
first pass, and those that contention adds, are a free number. -/
def State.matmulWork (s : State) (g m n chunks seg sseg : Nat) : State :=
  let load := divUp (n * seg) 256 + divUp (n * sseg) 256
  let x := s.freeBelow (2 ^ 32)
  (x.2.fadd (.MXE_WORK g) MXE_WORK.PASSES chunks).fadd (.MXE_WORK g) MXE_WORK.LOAD_WAIT ((chunks - 1) * (load - m) + x.1)
/-- A step of a MATMUL's passes, in the order of R163 and R175: the load of a chunk's panel, or the entry of a row's chunk. -/
inductive MxeStep where
  | panel (chunk : Nat)
  | row (chunk r : Nat)
  deriving DecidableEq, Repr
/-- The steps of a MATMUL of some chunks over some rows. -/
def mxeOrder (chunks rows : Nat) : List MxeStep :=
  (List.range chunks).flatMap (fun c => .panel c :: (List.range rows).map (fun r => .row c r))
/-- What a MATMUL's passes use: its operands, formats and pair, and where each row of A starts. -/
structure MxeCtx where
  o : MatmulOps
  fa : Fmt
  fb : Fmt
  p : Pair
  rows : List Nat
  stage : Nat
/-- The elements of chunk `c` (R168). -/
def MxeCtx.width (x : MxeCtx) (c : Nat) : Nat := min x.p.kt (x.o.k.toNat - c * x.p.kt)
/-- The element panel and the scale panel of a chunk (R167). -/
def MxeCtx.panels (x : MxeCtx) (c : Nat) : List (Nat × Nat) :=
  let seg := x.o.n.toNat * x.fb.rowBytes x.p.kt
  let sseg := x.o.n.toNat * x.fb.scaleBytes x.p.kt
  [(x.o.b.toNat + c * seg, seg), (x.o.bScale.toNat + c * sseg, sseg)]
/-- The elements and the scales of a row's chunk (R166). -/
def MxeCtx.rowParts (x : MxeCtx) (c r : Nat) : List (Nat × Nat) :=
  let k := c * x.p.kt
  [(x.rows.getD r 0 + x.fa.rowBytes k, x.fa.rowBytes (x.width c)),
   (x.o.aScale.toNat + r * x.o.aSstride.toNat + x.fa.scaleBytes k, x.fa.scaleBytes (x.width c))]
/-- The columns of a panel from its bytes. -/
def MxeCtx.columns (x : MxeCtx) (c : Nat) (elems scales : Bytes) : List (List Val × List Val) :=
  let seg := x.fb.rowBytes x.p.kt
  let sseg := x.fb.scaleBytes x.p.kt
  (List.range x.o.n.toNat).map (fun n => mxeRow x.fb (x.width c) (slice elems (n * seg) seg) (slice scales (n * sseg) sseg))
/-- A read of an operand's bytes by an engine that has passed its checks. -/
def State.operandRead (s : State) (g : Nat) (who : Who) (e : Nat × Nat) : Bytes × State :=
  if e.2 = 0 then ([], s) else s.bankRead g (laBank e.1) (laOff e.1) e.2 who
/-- A step of a pass whose banks the MXE owns: the columns of the panel in the array, and the state. An invalid T3 byte of a panel raises
FORMAT once for the panel (R144 and R183 do not say how often: DESIGN CHOICE, log entry 93). -/
def State.mxeStep (s : State) (g : Nat) (x : MxeCtx) (cols : List (List Val × List Val)) (e : MxeStep) : List (List Val × List Val) × State :=
  let who : Who := { agent := aMXE, stage := some x.stage }
  match e with
  | .panel c =>
    let ps := x.panels c
    let el := s.operandRead g who (ps.getD 0 (0, 0))
    let sc := el.2.operandRead g who (ps.getD 1 (0, 0))
    let seg := x.fb.rowBytes x.p.kt
    let bad := x.fb = .t3 && (List.range x.o.n.toNat).any (fun n => tritsBad (slice el.1 (n * seg) seg) (x.width c))
    (x.columns c el.1 sc.1, if bad then sc.2.raiseTile g aMXE fFORMAT (some x.stage) else sc.2)
  | .row c r =>
    let ps := x.rowParts c r
    let el := s.operandRead g who (ps.getD 0 (0, 0))
    let sc := el.2.operandRead g who (ps.getD 1 (0, 0))
    let av := mxeRow x.fa (x.width c) el.1 sc.1
    let b := x.o.acc.toNat
    let row := x.o.accRow.toNat + r
    let n := x.o.n.toNat
    let old := if x.o.init && c = 0 then (List.replicate n 0, sc.2) else sc.2.accRead g b row n x.stage
    (cols, old.2.accWrite g b row x.stage (List.zipWith (fun y v => accumulate x.p x.fa.isInt av.1 v.1 av.2 v.2 y) old.1 cols))
/-- The accesses of a step. -/
def MxeCtx.accesses (x : MxeCtx) : MxeStep → List (Nat × Nat)
  | .panel c => x.panels c
  | .row c r => x.rowParts c r
/-- The columns of the panel that an interrupted pass has loaded. -/
def State.mxeCols (s : State) (g : Nat) (x : MxeCtx) : List MxeStep → List (List Val × List Val)
  | .row c _ :: _ =>
    let ps := x.panels c
    let rd (e : Nat × Nat) : Bytes := s.sramRead g (laBank e.1) (laOff e.1) e.2
    x.columns c (rd (ps.getD 0 (0, 0))) (rd (ps.getD 1 (0, 0)))
  | _ => []
/-- How far the accesses of a command get: all are made, one is refused with a code, or one waits after a number of rows (R84, R87, R182). -/
inductive Got where
  | all
  | refused (code : Nat)
  | waits (rows : Nat)
  deriving DecidableEq, Repr
/-- The steps of a MATMUL, each checked for ownership at its accesses (R84, R182). -/
def State.mxeRun (s : State) (g : Nat) (x : MxeCtx) (cols : List (List Val × List Val)) (done : Nat) : List MxeStep → Got × State
  | [] => (.all, s)
  | e :: r =>
    match s.owners g aMXE (x.accesses e) with
    | .refused c => (.refused c, s.bankEvent g c)
    | .wait => (.waits done, s)
    | .ok => let z := s.mxeStep g x cols e; z.2.mxeRun g x z.1 (done + 1) r
/-- What the accesses of a command come to at its entry: `i` holds what stands in the entry while one waits. -/
def Got.began (i : QItem) (x : Got × State) : Began × State :=
  match x with
  | (.all, s) => (.ran 0, s)
  | (.refused c, s) => (.ran c, s)
  | (.waits n, s) => (.holds { i with rows := n }, s)

/-- The passes of a MATMUL whose checks are behind it, from the step on that its entry names. -/
def State.matmulGo (s : State) (g : Nat) (o : MatmulOps) (fa fb : Fmt) (p : Pair) (i : QItem) : Began × State :=
  let m := o.m.toNat
  let ix := i.ixs.headD []
  let rows := (List.range m).map (fun r => if o.aIdx then (ix.getD r 0).toNat else o.a.toNat + r * o.aStride.toNat)
  let x : MxeCtx := { o := o, fa := fa, fb := fb, p := p, rows := rows, stage := i.stage }
  let chunks := divUp o.k.toNat p.kt
  let left := (mxeOrder chunks m).drop (i.rows - 1)
  match s.mxeRun g x (s.mxeCols g x left) i.rows left with
  | (.all, s) => (.ran 0, s.matmulWork g m o.n.toNat chunks (fb.rowBytes p.kt) (fb.scaleBytes p.kt))
  | r => Got.began i r
/-- MATMUL from point 4 of R231 on. -/
def State.matmul (s : State) (g : Nat) (o : MatmulOps) (i : QItem) : Began × State :=
  match State.matmulFields o with
  | .inl c => (.ran c, s)
  | .inr (fa, fb, p) =>
    let m := o.m.toNat
    let n := o.n.toNat
    let k := o.k.toNat
    let row := o.accRow.toNat
    if 0 < i.rows then s.matmulGo g o fa fb p i
    else if m = 0 || n = 0 || (k = 0 && !o.init) then (.ran 0, s)
    else if 512 < row + m then (.ran fBOUNDS, s)
    else if k = 0 then
      (.ran 0, (List.range m).foldl (fun s r => s.accWrite g o.acc.toNat (row + r) i.stage (List.replicate n 0)) s)
    else
      let chunks := divUp k p.kt
      let rowB := fa.rowBytes k
      let scB := fa.scaleBytes k
      let side : List (Nat × Nat) :=
        [(o.aScale.toNat, if scB = 0 then 0 else (m - 1) * o.aSstride.toNat + scB),
         (o.b.toNat, chunks * n * fb.rowBytes p.kt), (o.bScale.toNat, chunks * n * fb.scaleBytes p.kt)]
      let whole : List (Nat × Nat) := if o.aIdx then [] else [(o.a.toNat, (m - 1) * o.aStride.toNat + rowB)]
      match (if i.begun then .ok else s.extents g (whole ++ side.filter (fun e => e.2 != 0))) with
      | .refused c => refuse s g c
      | _ =>
        match s.readTensors g aMXE i ((if o.aIdx then [(o.a.toNat, m)] else []).drop i.ixs.length) with
        | (.bad c, _, s) => (.ran c, s)
        | (.waits, i, s) => (.holds i, s)
        | (.ok _, i, s) =>
          if (i.ixs.headD []).any (fun e => !s.rowAddrOk g e rowB) then (.ran fINDEX, s)
          else s.matmulGo g o fa fb p { i with rows := 1 }

/-! ACCSTORE (R184 to R186). -/

/-- The element bytes of a destination row are written. The other half of the byte that a last INT4 element of an odd row takes is open:
the spec does not say what it becomes, so it is a free value (log entry 21). -/
def State.writeElems (s : State) (g d : Nat) (f : Fmt) (n : Nat) (b : Bytes) (who : Who) : State :=
  if f = .int4 && n % 2 = 1 then
    let x := s.freeBytes 1
    let last := BitVec.ofNat 8 (leAt b (b.length - 1) 1 % 16 + leNat x.1 / 16 * 16)
    x.2.bankWrite g (laBank d) (laOff d) (laView d) (b.dropLast ++ [last]) who
  else s.bankWrite g (laBank d) (laOff d) (laView d) b who
/-- The scale bytes of a destination row are written, where its format has them. -/
def State.writeScales (s : State) (g d : Nat) (b : Bytes) (who : Who) : State :=
  if b.isEmpty then s else s.bankWrite g (laBank d) (laOff d) (laView d) b who
/-- The bytes of a contiguous row of values in a format, and its scale bytes (R129 to R133, R155 to R157). -/
def rowOf (f : Fmt) (mode : Nat → RMode) (sat : Bool) (l : List Val) : Bytes × Bytes :=
  if f.packed then packRow f mode l
  else (l.zipIdx.flatMap (fun v => toLe f.size (f.encode (mode v.2) sat v.1)), [])
/-- The rows of an ACCSTORE from one on, each checked for ownership at its accesses (R84, R233). -/
def State.accstoreRows (s : State) (g : Nat) (o : AccstoreOps) (fa fd : Fmt) (stage : Nat) : List (RowKey × Nat) → Got × State
  | [] => (.all, s)
  | kr :: rest =>
    let r := kr.2
    let n := o.n.toNat
    let who : Who := { agent := aMXE, stage := some stage }
    let d := o.d.toNat + r * o.dStride.toNat
    let ds := o.dScale.toNat + r * o.dSstride.toNat
    match s.owners g aMXE [(d, fd.rowBytes n)] with
    | .refused c => (.refused c, s.bankEvent g c)
    | .wait => (.waits (r + 1), s)
    | .ok =>
      let a := s.accRead g o.acc.toNat (o.accRow.toNat + r) n stage
      let vals := a.1.map (fun x => if fa = .int32 then Val.ofInt x.toInt else val32 x)
      let row := rowOf fd (rmodeOf o.rmode.toNat kr.1.seed kr.1.pos o.site.toNat) o.sat vals
      let t := a.2.writeElems g d fd n row.1 who
      match t.owners g aMXE [(ds, fd.scaleBytes n)] with
      | .refused c => (.refused c, t.bankEvent g c)
      | .wait => (.waits (r + 1), t)
      | .ok => (t.writeScales g ds row.2 who).accstoreRows g o fa fd stage rest
/-- The rows of an ACCSTORE whose checks are behind it. -/
def State.accstoreGo (s : State) (g : Nat) (o : AccstoreOps) (fa fd : Fmt) (i : QItem) : Began × State :=
  Got.began i (s.accstoreRows g o fa fd i.stage (i.keys.zipIdx.drop (i.rows - 1)))
/-- ACCSTORE from point 4 of R231 on. -/
def State.accstore (s : State) (g : Nat) (o : AccstoreOps) (i : QItem) : Began × State :=
  let rb := o.rowbind.toNat
  match fmtOf o.accFmt, fmtOf o.dFmt with
  | some fa, some fd =>
    if 0 < i.rows then s.accstoreGo g o fa fd i
    else if !i.begun && (o.rmode = 3 || s.rowbindBad g rb o.bind.toNat || 128 < o.n.toNat || (rb = 2 && o.bind.toNat % 4 != 0)) then (.ran fDECODE, s)
    else if (fa != .fp32 && fa != .int32) || fd = .t3 then (.ran fFORMAT, s)
    else
      let m := o.m.toNat
      let n := o.n.toNat
      if m = 0 || n = 0 then (.ran 0, s)
      else if 512 < o.accRow.toNat + m then (.ran fBOUNDS, s)
      else
        let scB := fd.scaleBytes n
        let ext := [(o.d.toNat, (m - 1) * o.dStride.toNat + fd.rowBytes n),
          (o.dScale.toNat, if scB = 0 then 0 else (m - 1) * o.dSstride.toNat + scB)].filter (fun e => e.2 != 0)
        match (if i.begun then .ok else s.extents g ext) with
        | .refused c => refuse s g c
        | _ =>
          match s.readTensors g aMXE i ((if rb = 2 then [(o.bind.toNat, m)] else []).drop i.ixs.length) with
          | (.bad c, _, s) => (.ran c, s)
          | (.waits, i, s) => (.holds i, s)
          | (.ok _, i, s) =>
            let ix := i.ixs.headD []
            if ix.any (fun e => !seatOk (s.seatCount g) e) then (.ran fINDEX, s)
            else s.accstoreGo g o fa fd { i with rows := 1, keys := s.rowKeys g rb o.bind.toNat m ix }
  | _, _ => (.ran fDECODE, s)

/-- MATMUL -/
def execMatmul (g : Gt) (h : CmdHdr) (o : MatmulOps) (s : State) : Res :=
  live s (fun s => s.engineRow g h (.matmul o) (fun i s => s.matmul g o i))
/-- ACCSTORE -/
def execAccstore (g : Gt) (h : CmdHdr) (o : AccstoreOps) (s : State) : Res :=
  live s (fun s => s.engineRow g h (.accstore o) (fun i s => s.accstore g o i))

end Sys2Proof.Machine
end

