-- ==== Sys2Proof/Machine/Crypto.lean ====
section
/-! DEFINITION. SHA-512, HMAC, HKDF and ECDSA over P-521, which spec/16_boot_image.md R482 to R486 and spec/18_faults.md R540 name. The
algorithms and their constants are those of FIPS 180-4, RFC 2104, RFC 5869 and FIPS 186-5 (PRESUMED, log entry 39). -/

namespace Sys2Proof.Machine

/-! SHA-512. -/

/-- SHA-512 constants 0 to 7. -/
def shaK0 : List Word := [0x428A2F98D728AE22, 0x7137449123EF65CD, 0xB5C0FBCFEC4D3B2F, 0xE9B5DBA58189DBBC,
  0x3956C25BF348B538, 0x59F111F1B605D019, 0x923F82A4AF194F9B, 0xAB1C5ED5DA6D8118]
/-- SHA-512 constants 8 to 15. -/
def shaK1 : List Word := [0xD807AA98A3030242, 0x12835B0145706FBE, 0x243185BE4EE4B28C, 0x550C7DC3D5FFB4E2,
  0x72BE5D74F27B896F, 0x80DEB1FE3B1696B1, 0x9BDC06A725C71235, 0xC19BF174CF692694]
/-- SHA-512 constants 16 to 23. -/
def shaK2 : List Word := [0xE49B69C19EF14AD2, 0xEFBE4786384F25E3, 0x0FC19DC68B8CD5B5, 0x240CA1CC77AC9C65,
  0x2DE92C6F592B0275, 0x4A7484AA6EA6E483, 0x5CB0A9DCBD41FBD4, 0x76F988DA831153B5]
/-- SHA-512 constants 24 to 31. -/
def shaK3 : List Word := [0x983E5152EE66DFAB, 0xA831C66D2DB43210, 0xB00327C898FB213F, 0xBF597FC7BEEF0EE4,
  0xC6E00BF33DA88FC2, 0xD5A79147930AA725, 0x06CA6351E003826F, 0x142929670A0E6E70]
/-- SHA-512 constants 32 to 39. -/
def shaK4 : List Word := [0x27B70A8546D22FFC, 0x2E1B21385C26C926, 0x4D2C6DFC5AC42AED, 0x53380D139D95B3DF,
  0x650A73548BAF63DE, 0x766A0ABB3C77B2A8, 0x81C2C92E47EDAEE6, 0x92722C851482353B]
/-- SHA-512 constants 40 to 47. -/
def shaK5 : List Word := [0xA2BFE8A14CF10364, 0xA81A664BBC423001, 0xC24B8B70D0F89791, 0xC76C51A30654BE30,
  0xD192E819D6EF5218, 0xD69906245565A910, 0xF40E35855771202A, 0x106AA07032BBD1B8]
/-- SHA-512 constants 48 to 55. -/
def shaK6 : List Word := [0x19A4C116B8D2D0C8, 0x1E376C085141AB53, 0x2748774CDF8EEB99, 0x34B0BCB5E19B48A8,
  0x391C0CB3C5C95A63, 0x4ED8AA4AE3418ACB, 0x5B9CCA4F7763E373, 0x682E6FF3D6B2B8A3]
/-- SHA-512 constants 56 to 63. -/
def shaK7 : List Word := [0x748F82EE5DEFB2FC, 0x78A5636F43172F60, 0x84C87814A1F0AB72, 0x8CC702081A6439EC,
  0x90BEFFFA23631E28, 0xA4506CEBDE82BDE9, 0xBEF9A3F7B2C67915, 0xC67178F2E372532B]
/-- SHA-512 constants 64 to 71. -/
def shaK8 : List Word := [0xCA273ECEEA26619C, 0xD186B8C721C0C207, 0xEADA7DD6CDE0EB1E, 0xF57D4F7FEE6ED178,
  0x06F067AA72176FBA, 0x0A637DC5A2C898A6, 0x113F9804BEF90DAE, 0x1B710B35131C471B]
/-- SHA-512 constants 72 to 79. -/
def shaK9 : List Word := [0x28DB77F523047D84, 0x32CAAB7B40C72493, 0x3C9EBE0A15C9BEBC, 0x431D67C49C100D4C,
  0x4CC5D4BECB3E42B6, 0x597F299CFC657E2A, 0x5FCB6FAB3AD6FAEC, 0x6C44198C4A475817]
/-- The 80 constants of SHA-512. -/
def shaK : List Word := shaK0 ++ shaK1 ++ shaK2 ++ shaK3 ++ shaK4 ++ shaK5 ++ shaK6 ++ shaK7 ++ shaK8 ++ shaK9
/-- The initial hash value of SHA-512. -/
def shaInit : List Word := [0x6A09E667F3BCC908, 0xBB67AE8584CAA73B, 0x3C6EF372FE94F82B, 0xA54FF53A5F1D36F1,
  0x510E527FADE682D1, 0x9B05688C2B3E6C1F, 0x1F83D9ABFB41BD6B, 0x5BE0CD19137E2179]
/-- Rotation right. -/
def rotr (x : Word) (n : Nat) : Word := (x >>> n) ||| (x <<< (64 - n))
/-- The message schedule, newest word first, extended by `n` words. -/
def shaSchedule : Nat → List Word → List Word
  | 0, w => w
  | n + 1, w =>
    let a := w.getD 1 0
    let b := w.getD 14 0
    let s1 := rotr a 19 ^^^ rotr a 61 ^^^ (a >>> 6)
    let s0 := rotr b 1 ^^^ rotr b 8 ^^^ (b >>> 7)
    shaSchedule n ((s1 + w.getD 6 0 + s0 + w.getD 15 0) :: w)
/-- One round over the eight working variables. -/
def shaRound (v : List Word) (kw : Word × Word) : List Word :=
  match v with
  | [a, b, c, d, e, f, g, h] =>
    let t1 := h + (rotr e 14 ^^^ rotr e 18 ^^^ rotr e 41) + ((e &&& f) ^^^ (~~~e &&& g)) + kw.1 + kw.2
    let t2 := (rotr a 28 ^^^ rotr a 34 ^^^ rotr a 39) + ((a &&& b) ^^^ (a &&& c) ^^^ (b &&& c))
    [t1 + t2, a, b, c, d + t1, e, f, g]
  | v => v
/-- The words of a block, big-endian. -/
def beWords : Nat → Bytes → List Word
  | 0, _ => []
  | n + 1, b => BitVec.ofNat 64 (beNat (b.take 8)) :: beWords n (b.drop 8)
/-- One block of 128 bytes. -/
def shaBlock (h : List Word) (b : Bytes) : List Word :=
  let w := (shaSchedule 64 (beWords 16 b).reverse).reverse
  List.zipWith (· + ·) h ((shaK.zip w).foldl shaRound h)
/-- The padded message. -/
def shaPad (m : Bytes) : Bytes :=
  m ++ [0x80] ++ List.replicate ((239 - m.length % 128) % 128) 0 ++ toBe 16 (8 * m.length)
/-- The SHA-512 of a byte string. -/
def sha512 (m : Bytes) : Bytes :=
  let p := shaPad m
  ((chunksOf 128 (p.length / 128) p).foldl shaBlock shaInit).flatMap (fun w => toBe 8 w.toNat)
/-- HMAC-SHA-512. -/
def hmac (key m : Bytes) : Bytes :=
  let k := padTo 128 (if 128 < key.length then sha512 key else key)
  sha512 (k.map (· ^^^ 0x5C) ++ sha512 (k.map (· ^^^ 0x36) ++ m))
/-- HKDF-SHA-512 with an output of 80 bytes (R486). -/
def hkdf80 (ikm salt info : Bytes) : Bytes :=
  let prk := hmac salt ikm
  let t1 := hmac prk (info ++ [1])
  let t2 := hmac prk (t1 ++ info ++ [2])
  (t1 ++ t2).take 80

/-! P-521. -/

/-- The field prime. -/
def p521 : Nat := 2 ^ 521 - 1
/-- The order of the curve. -/
def n521 : Nat := 0x01FFFFFFFFFFFFFFFFFFFFFFFFFFFFFFFFFFFFFFFFFFFFFFFFFFFFFFFFFFFFFFFFFA51868783BF2F966B7FCC0148F709A5D03BB5C9B8899C47AEBB6FB71E91386409
/-- The constant term of the curve. -/
def b521 : Nat := 0x0051953EB9618E1C9A1F929A21A0B68540EEA2DA725B99B315F3B8B489918EF109E156193951EC7E937B1652C0BD3BB1BF073573DF883D2C34F1EF451FD46B503F00
/-- The base point. -/
def g521 : Option (Nat × Nat) := some
  (0x00C6858E06B70404E9CD9E3ECB662395B4429C648139053FB521F828AF606B4D3DBAA14B5E77EFE75928FE1DC127A2FFA8DE3348B3C1856A429BF97E7E31C2E5BD66,
   0x011839296A789A3BC0045C8A5FB42C7D1BD998F54449579B446817AFBD17273E662C97EE72995EF42640C550B9013FAD0761353C7086A272C24088BE94769FD16650)
/-- A power modulo `m`, over the `n` low bits of the exponent. -/
def powMod (m b : Nat) : Nat → Nat → Nat
  | 0, _ => 1 % m
  | n + 1, e => let h := powMod m (b * b % m) n (e / 2); if e % 2 = 1 then h * b % m else h
/-- The inverse modulo a prime below 2^521. -/
def invMod (m a : Nat) : Nat := powMod m (a % m) 521 (m - 2)
/-- The difference modulo the field prime. -/
def subMod (a b : Nat) : Nat := (a + p521 - b % p521) % p521
/-- Whether a pair of coordinates is a point of the curve. -/
def onCurve (x y : Nat) : Bool := x < p521 && y < p521 && y * y % p521 = (subMod (x * x * x) (3 * x) + b521) % p521
/-- The third point of a line of a slope; `none` is the point at infinity throughout. -/
def ecThird (l x1 y1 x2 : Nat) : Option (Nat × Nat) :=
  let x := subMod (l * l) (x1 + x2)
  some (x, subMod (l * subMod x1 x) y1)
/-- The sum of two points. -/
def ecAdd : Option (Nat × Nat) → Option (Nat × Nat) → Option (Nat × Nat)
  | none, q => q
  | p, none => p
  | some (x1, y1), some (x2, y2) =>
    if x1 = x2 then
      if (y1 + y2) % p521 = 0 then none
      else ecThird (subMod (3 * x1 * x1) 3 * invMod p521 (2 * y1) % p521) x1 y1 x2
    else ecThird (subMod y2 y1 * invMod p521 (subMod x2 x1) % p521) x1 y1 x2
/-- A multiple of a point, over the `n` low bits of the scalar. -/
def ecMul (p : Option (Nat × Nat)) : Nat → Nat → Option (Nat × Nat)
  | 0, _ => none
  | n + 1, k => let h := ecMul (ecAdd p p) n (k / 2); if k % 2 = 1 then ecAdd h p else h
/-- An uncompressed point of 133 bytes (SEC 1): 0x04, X and Y of 66 bytes each. -/
def pointOf (b : Bytes) : Option (Nat × Nat) :=
  let x := beNat (slice b 1 66)
  let y := beNat (slice b 67 66)
  if b.length = 133 && b.head? = some 0x04 && onCurve x y then some (x, y) else none
/-- The 133 bytes of a point. -/
def pointBytes : Option (Nat × Nat) → Bytes
  | none => List.replicate 133 0
  | some (x, y) => 0x04 :: (toBe 66 x ++ toBe 66 y)
/-- Whether an ECDSA signature of 132 bytes verifies under a public point, with SHA-512 of the message. -/
def ecdsaOk (key msg sig : Bytes) : Bool :=
  match pointOf key with
  | none => false
  | some q =>
    let r := beNat (sig.take 66)
    let s := beNat (sig.drop 66)
    if sig.length != 132 || r = 0 || n521 ≤ r || s = 0 || n521 ≤ s then false
    else
      let w := invMod n521 s
      let e := beNat (sha512 msg)
      match ecAdd (ecMul g521 521 (e * w % n521)) (ecMul (some q) 521 (r * w % n521)) with
      | none => false
      | some (x, _) => x % n521 = r
/-- The device key's public point, from the key seed and the serial number (R486). -/
def deviceKey (seed : Bytes) (serial : Word) : Bytes :=
  let x := beNat (hkdf80 seed (ascii "TW-W8 device key") (toLe 8 serial.toNat))
  pointBytes (ecMul g521 521 (x % (n521 - 1) + 1))

end Sys2Proof.Machine
end

