-- ==== Sys2Proof/Machine/Dma.lean ====
section
/-! DEFINITION. Data movers (spec/08_dma.md R262 to R283) and the issuing side of remote operations (spec/09_global_space.md R288 to
R305): descriptors, their checks, what they move, their records, and the channels' registers. -/

namespace Sys2Proof.Machine

/-! Who moves (R263, R268). -/

/-- The channel of a descriptor. -/
def descChan : DescAt → ChanId
  | .tile g ch _ => .tile g ch
  | .io i ch _ => .io i ch
/-- The bytes that the descriptor's reads of host memory return. -/
def descHost : DescAt → Bytes
  | .tile _ _ _ => []
  | .io _ _ b => b
/-- Whether a channel is a tile's. -/
def ofTile : ChanId → Bool
  | .tile _ _ => true
  | .io _ _ => false
/-- The LPDDR5X requester of a channel (R115). -/
def chanWho (c : ChanId) (stage : Nat) : DWho :=
  match c with
  | .tile g ch => (.tile g, { agent := aDMA ch, stage := some stage })
  | .io i ch => plainWho (.io i ch)

/-- Where an address leads (R262, R268): a bank of this module with the agent code it is reached as, LPDDR5X, host memory, or another
module. -/
inductive Place where
  | bank (g k off view agent : Nat)
  | dram (off : Nat)
  | host (p : HostPort) (addr : Nat)
  | remote (ga : Nat)
  deriving DecidableEq, Repr

/-- The place of an address of a kind, or the fault code of an absent tile (R257, R285). -/
def State.place (s : State) (c : ChanId) (kind addr : Nat) : Except Nat Place :=
  match kind, c with
  | 0, .tile g ch => .ok (.bank g (laBank (addr % 2 ^ 32)) (laOff (addr % 2 ^ 32)) (laView (addr % 2 ^ 32)) (aDMA ch))
  | 1, _ =>
    if gaModule addr != s.self then .ok (.remote addr)
    else if gaSpace addr = 1 then .ok (.dram (gaDram addr))
    else
      match c with
      | .tile g ch => match s.tileOfGa true (gaTile addr) with
        | none => .error fABSENT
        | some h => if s.partOfTile h != s.partOfTile g then .error fABSENT
          else .ok (.bank h (gaBank addr) (gaOff addr) 0 (if h = g then aDMA ch else aREMOTE))
      | .io _ _ => match s.tileOfGa false (gaTile addr) with
        | none => .error fABSENT
        | some h => .ok (.bank h (gaBank addr) (gaOff addr) 0 aREMOTE)
  | 2, .io i _ => .ok (.host (if i = 0 then 0 else 1) addr)
  | _, _ => .error fDECODE
/-- The place of an address that has passed its checks. -/
def State.placeOf (s : State) (c : ChanId) (kind addr : Nat) : Place :=
  match s.place c kind addr with | .ok x => x | .error _ => .remote 0
/-- The bounds of a place for `n` bytes (R265). -/
def State.placeBounds (s : State) (p : Place) (n : Nat) : Chk :=
  match p with
  | .bank g k off view _ => if view = 3 then .refused fDECODE else if n = 0 then .ok else s.bankBounds g k off n
  | .dram off => if dramSize < off + n then .refused fBOUNDS else .ok
  | .host _ a => if 2 ^ 64 < a + n then .refused fBOUNDS else .ok
  | .remote _ => .ok
/-- Where the bytes of a place lie, for the test of overlap (R268, R274). -/
def Place.lin : Place → Nat × Nat
  | .bank g k off _ _ => (0, sramKey g k off)
  | .dram off => (1, off)
  | .host p a => (2 + p, a)
  | .remote a => (4, a)
/-- Whether two extents share a byte. -/
def overlaps (a b : Place × Nat) : Bool :=
  a.1.lin.1 = b.1.lin.1 && a.1.lin.2 < b.1.lin.2 + b.2 && b.1.lin.2 < a.1.lin.2 + a.2 && 0 < a.2 && 0 < b.2
/-- Whether an extent of LPDDR5X crosses from one I/O die to the next (R267). -/
def Place.splits (e : Place × Nat) : Bool :=
  match e.1 with | .dram off => 0 < e.2 && dramIod off != dramIod (off + e.2 - 1) | _ => false
/-- The die of a place: CD0 to CD7, then IOD0 to IOD3. -/
def Place.die : Place → Option Nat
  | .bank g _ _ _ _ => some (g / 64)
  | .dram off => some (8 + dramIod off)
  | .host p _ => some (8 + p)
  | .remote _ => none

/-- A write of a tile channel beyond its tile's own access enters the channel's signature (R535). -/
def State.signMove (s : State) (c : ChanId) (stage ga : Nat) (b : Bytes) : State :=
  match c with
  | .tile g ch => s.sign g (aDMA ch) (some stage) ga b
  | .io _ _ => s

/-! Descriptors in a ring (R262, R264). -/

/-- The operation of an OP code, and of a reserved one which it is; COPY stands in for it. -/
def descOpOf (o : Nat) : DescOp × Option (Fin 10) :=
  match o with
  | 0 => (.copy, none)
  | 1 => (.get, none)
  | 2 => (.put, none)
  | 3 => (.set, none)
  | 4 => (.clear, none)
  | 5 => (.parity, none)
  | n => (.copy, some (Fin.ofNat 10 (n - 6)))
/-- The descriptor of the 64 bytes of a ring entry (R262). -/
def descOfBytes (b : Bytes) : DescOp × Desc :=
  let w (i : Nat) : Nat := leAt b (8 * i) 8
  let o := descOpOf (bits (w 2) 35 32)
  (o.1, { src := BitVec.ofNat 64 (w 0), dst := BitVec.ofNat 64 (w 1), len := BitVec.ofNat 32 (w 2)
          srcKind := BitVec.ofNat 2 (bits (w 2) 37 36), dstKind := BitVec.ofNat 2 (bits (w 2) 39 38)
          crec := (w 2).testBit 40, paged := (w 2).testBit 41, pageSide := (w 2).testBit 42
          pgLog2 := BitVec.ofNat 5 (bits (w 2) 47 43), tag := BitVec.ofNat 16 (bits (w 2) 63 48)
          pgTable := BitVec.ofNat 32 (w 3), pgCount := BitVec.ofNat 32 (bits (w 3) 63 32), notBefore := BitVec.ofNat 64 (w 4)
          qdst := BitVec.ofNat 64 (w 5), shards := BitVec.ofNat 5 (w 6), pq := BitVec.ofNat 2 (bits (w 6) 6 5)
          rsvd0 := BitVec.ofNat 25 (bits (w 6) 31 7), shStride := BitVec.ofNat 32 (bits (w 6) 63 32), rsvd1 := BitVec.ofNat 64 (w 7)
          planned := none, rsvOp := o.2 })
/-- Whether a row's operation and descriptor are those of a ring entry; of a reserved OP the operation says nothing. -/
def descMatches (b : Bytes) (op : DescOp) (d : Desc) : Bool := (descOfBytes b).2 = d && (d.rsvOp.isSome || (descOfBytes b).1 = op)

/-! Checks (R263, R264). -/

/-- DECODE of an address kind and its reserved bits (the first and second rows of R264). -/
def kindBad (c : ChanId) (kind addr : Nat) : Bool :=
  match kind, c with
  | 0, .tile _ _ => 2 ^ 32 ≤ addr
  | 1, _ => false
  | 2, .io _ _ => false
  | _, _ => true
/-- A global address in the register or the reserved space, or with a field of this module's address that must be zero. -/
def State.spaceBad (s : State) (kind addr : Nat) : Bool := kind = 1 && (2 ≤ gaSpace addr || (gaModule addr = s.self && !gaZeros addr))
/-- Whether an address of a kind lies outside this module. -/
def State.outside (s : State) (kind addr : Nat) : Bool := kind = 1 && gaModule addr != s.self
/-- Where the sources of a descriptor start: one, or the shards of PARITY (R274). -/
def srcBases (op : DescOp) (d : Desc) : List Nat :=
  match op with
  | .parity => (List.range d.shards.toNat).map (fun i => d.src.toNat + i * d.shStride.toNat)
  | _ => [d.src.toNat]
/-- Where the destinations of a descriptor start: one, or the selected outputs of PARITY (R274). -/
def dstBases (op : DescOp) (d : Desc) : List Nat :=
  match op with
  | .parity => (if d.pq.getLsbD 0 then [d.dst.toNat] else []) ++ (if d.pq.getLsbD 1 then [d.qdst.toNat] else [])
  | _ => [d.dst.toNat]
/-- The addresses a descriptor names, with their kinds: its source, then its destinations. -/
def descAddrs (op : DescOp) (d : Desc) : List (Nat × Nat) :=
  (d.srcKind.toNat, d.src.toNat) :: (dstBases op d).map (fun a => (d.dstKind.toNat, a))
/-- Whether a local address of a descriptor, a shard's start among them, has view 0b11, which is DECODE for any length (R79). -/
def viewBad (op : DescOp) (d : Desc) : Bool :=
  (d.srcKind = 0 && (srcBases op d).any (fun a => laView a = 3)) || (d.dstKind = 0 && (dstBases op d).any (fun a => laView a = 3))
/-- The rows of R264 that need no access: the fault of the first that holds. -/
def State.descCheck (s : State) (c : ChanId) (op : DescOp) (d : Desc) : Option Nat :=
  let ads := descAddrs op d
  let out (e : Nat × Nat) : Bool := s.outside e.1 e.2
  let src := (d.srcKind.toNat, d.src.toNat)
  let dst := (d.dstKind.toNat, d.dst.toNat)
  let far := match c with | .tile _ _ => false | .io i _ => 2 ≤ i.val
  let place := match op with
    | .copy => ads.any out
    | .parity => ads.any out
    | .get => !out src || out dst
    | _ => !out dst || out src
  if d.rsvOp.isSome || d.rsvd0 != 0 || d.rsvd1 != 0 || ads.any (fun e => kindBad c e.1 e.2) then some fDECODE
  else if far && ads.any (·.1 = 2) then some fABSENT
  else if ads.any (fun e => s.spaceBad e.1 e.2) || place then some fDECODE
  else if d.paged && (!ofTile c || d.pgLog2.toNat < 8 || 30 < d.pgLog2.toNat) then some fDECODE
  else if op = .parity && (16 < d.shards.toNat || d.pq = 0) then some fDECODE
  else if (match c with | .tile g ch => d.crec && !s.flag (.TDMA_CFG g ch) TDMA_CFG.CR_VALID | _ => false) then some fDECODE
  else if d.paged && (d.pgTable.toNat % 4 != 0 || laView d.pgTable.toNat = 3) then some fDECODE
  else if viewBad op d then some fDECODE
  else (ads.findSome? (fun e => match s.place c e.1 e.2 with | .error f => some f | .ok _ => none))

/-! Extents and units (R265, R267, R269, R270, R288, R296). -/

/-- A piece of a transfer: its number, its offset and its length (R269). -/
structure Piece where
  ix : Nat
  at_ : Nat
  len : Nat
  deriving DecidableEq, Repr
/-- The pieces of a transfer; one without PAGED is one piece. -/
def piecesOf (d : Desc) : List Piece :=
  let n := d.len.toNat
  let z := 2 ^ d.pgLog2.toNat
  if d.paged then (List.range (divUp n z)).map (fun i => { ix := i, at_ := i * z, len := min z (n - i * z) })
  else [{ ix := 0, at_ := 0, len := n }]
/-- Whether a side of a transfer is the paged one. -/
def sidePaged (d : Desc) (dst : Bool) : Bool := d.paged && d.pageSide = dst
/-- The address of a piece on a side that starts at a base (R269). -/
def pieceAddr (d : Desc) (pages : List (BitVec 32)) (dst : Bool) (base : Nat) (p : Piece) : Nat :=
  if sidePaged d dst then base + (pages.getD p.ix 0).toNat * 2 ^ d.pgLog2.toNat else base + p.at_
/-- The extents of a side: each piece of the paged side, and the other side whole (R265, R270). -/
def extentsOf (d : Desc) (pages : List (BitVec 32)) (dst : Bool) (base : Nat) : List (Nat × Nat) :=
  if sidePaged d dst then (piecesOf d).map (fun p => (pieceAddr d pages dst base p, p.len)) else [(base, d.len.toNat)]
/-- The check of an extent (R265, R270); a piece may not leave the module and space of its base. -/
def State.extentCheck (s : State) (c : ChanId) (kind base : Nat) (e : Nat × Nat) : Chk :=
  if kind = 1 && e.1 / 2 ^ 46 != base / 2 ^ 46 then .refused fBOUNDS
  else if kind = 0 && 2 ^ 29 ≤ e.1 then .refused fBOUNDS
  else if kind = 1 && gaModule e.1 = s.self && !gaZeros e.1 then .refused fBOUNDS
  else match s.place c kind e.1 with
    | .error f => .refused f
    | .ok x => s.placeBounds x e.2
/-- The units of a transfer: its pieces cut from their starts to 4,096 bytes (R288, R296), which for a COPY or PARITY whose writes count
nowhere is only the order of its accesses (DESIGN CHOICE, log entry 91). A write belongs to the request for its whole extent (R267). -/
def unitsOf (op : DescOp) (d : Desc) (pages : List (BitVec 32)) : List XUnit :=
  (piecesOf d).flatMap (fun p => (List.range (divUp p.len 4096)).map (fun j =>
    { at_ := p.at_ + j * 4096
      srcs := (srcBases op d).map (fun b => pieceAddr d pages false b p + j * 4096)
      dsts := (dstBases op d).map (fun b => pieceAddr d pages true b p + j * 4096)
      reqs := (dstBases op d).map (fun b => if sidePaged d true then (pieceAddr d pages true b p, p.len) else (b, d.len.toNat))
      len := min 4096 (p.len - j * 4096) }))

/-! Late transfers between dies (R14, R16, R59, R67 to R69). -/

/-- The die-to-die links of R14 in the order of its table, as pairs of dies; 8 to 11 are IOD0 to IOD3. -/
def dieLinks : List (Nat × Nat) :=
  [(0, 1), (1, 2), (2, 3), (4, 5), (5, 6), (6, 7), (0, 4), (1, 5), (2, 6), (3, 7), (8, 0), (8, 1), (9, 2), (9, 3), (10, 4), (10, 5), (11, 6), (11, 7)]
/-- The path from one die to another (R16, R490): the dies of the ROUTER record. -/
def State.diePath (s : State) (a b : Nat) : List Nat :=
  if a = b then [a]
  else
    let v := (s.img.router.getD (a * 11 + (if b < a then b else b - 1)) 0).toNat
    a :: ((List.range (v % 16)).map (fun j => bits v (4 * j + 7) (4 * j + 4))) ++ [b]
/-- The directed crossings of a path, numbered as R40 numbers them. -/
def crossings : List Nat → List Nat
  | a :: b :: r =>
    let k := dieLinks.findIdx (fun e => e = (a, b))
    let j := dieLinks.findIdx (fun e => e = (b, a))
    (if k < 18 then [2 * k] else if j < 18 then [2 * j + 1] else []) ++ crossings (b :: r)
  | _ => []
/-- The bytes of late transfers that a crossing carries in a stage: the 2.5 % of R59 of the bandwidths of R14. -/
def State.lateCap (s : State) (x : Nat) : Nat := (if x / 2 < 10 then 100 else 50) * s.stageNs
/-- The crossings between the dies of a transfer's sources and destinations. -/
def State.moveLinks (s : State) (c : ChanId) (d : Desc) (src dst : List (Nat × Nat)) : List Nat :=
  let dies (kind : Nat) (l : List (Nat × Nat)) : List Nat :=
    (l.flatMap (fun e => [(s.placeOf c kind e.1).die, (s.placeOf c kind (e.1 + (e.2 - 1))).die])).filterMap id |>.eraseDups
  ((dies d.srcKind.toNat src).flatMap (fun a => (dies d.dstKind.toNat dst).flatMap (fun b => crossings (s.diePath a b)))).eraseDups
/-- The slot that a transfer is planned for; without one in its command, the start of its issue stage (log entry 92). -/
def plannedSlot (d : Desc) (stage : Nat) : Nat × Nat := match d.planned with | some e => (e.1.toNat, e.2.toNat) | none => (stage, 0)
/-- A transfer enters the late transfers in the order of their planned slots (R67). -/
def insertLateXfer (e : LateXfer) : List LateXfer → List LateXfer
  | [] => [e]
  | f :: r => if slotLt e.planned f.planned then e :: f :: r else f :: insertLateXfer e r
/-- A plan transfer of a tile between dies that begins in a stage after its planned one is late (R67, R69). -/
def State.noteLate (s : State) (c : ChanId) (op : DescOp) (d : Desc) (stage : Nat) (src dst : List (Nat × Nat)) : State :=
  let links := s.moveLinks c d src dst
  if ofTile c && (op = .copy || op = .parity) && (plannedSlot d stage).1 < s.stage && !links.isEmpty then
    { s with late := insertLateXfer { chan := c, links := links, planned := plannedSlot d stage } s.late }
  else s
/-- Whether a channel's descriptor has units to come. -/
def State.moving (s : State) (c : ChanId) : Bool := match (s.chan c).cur with | none => false | some x => !x.todo.isEmpty
/-- Whether a channel's transfer may take its next unit across: it is not late, or each crossing of its path has catch-up capacity left and
carries no late transfer that was planned before it (R67 to R69). -/
def State.lateGo (s : State) (c : ChanId) : Bool :=
  match s.late.find? (·.chan = c) with
  | none => true
  | some e => e.links.all (fun k => tget 0 s.lateUsed k < s.lateCap k)
      && (s.late.takeWhile (·.chan != c)).all (fun f => !s.moving f.chan || f.links.all (fun k => !e.links.contains k))
/-- A unit of a late transfer has crossed. -/
def State.lateCarry (s : State) (c : ChanId) (n : Nat) : State :=
  match s.late.find? (·.chan = c) with
  | none => s
  | some e => { s with lateUsed := e.links.foldl (fun t k => tput 0 t k (tget 0 t k + n)) s.lateUsed }
/-- A channel's transfer is no late transfer any more. -/
def State.dropLate (s : State) (c : ChanId) : State := { s with late := s.late.filter (·.chan != c) }
/-- A new stage's catch-up capacity (R68): what ran over it in the stage that ended is taken from it. -/
def State.crossBoundary (s : State) : State :=
  { s with lateUsed := s.lateUsed.foldl (fun t e => tput 0 t e.1 (e.2 - s.lateCap e.1)) [] }

/-! PUT, SET, CLEAR and GET (R288 to R294, R302 to R305, R308). -/

/-- The landing stage of a plan transfer of a tile channel (R294, R296). -/
def State.landStage (s : State) (g stage : Nat) : Nat :=
  stage + match s.planOfTile g with | none => 2 | some pl => if pl.landingLag = 0 then 2 else pl.landingLag
/-- The opcode of a remote operation. -/
def opcOf : DescOp → Nat
  | .get => oGET | .set => oSET | .clear => oCLEAR | _ => oPUT
/-- The planned slot after a packet's parcels (R320). -/
def State.afterPlanned (s : State) (m : Nat) (e : Option (Nat × Nat)) (bytes : Nat) : Option (Nat × Nat) :=
  let p := s.fget (.ROUTE_DEST m) ROUTE_DEST.PORT
  e.bind (fun e => ((s.planSlots p (divUp bytes 256) e).getLast?).map (slotAfter (s.fget (.VBL_SLOTS p) VBL_SLOTS.S)))
/-- A channel sends a request packet (R290, R300, R303, R305). An I/O-die channel keeps those that its next descriptor waits for (R304). -/
def State.chanSend (s : State) (c : ChanId) (slot : Option (Nat × Nat)) (k : Packet) : Sent × State :=
  let t := match c with | .tile g _ => Traffic.plan slot (s.partOfTile g) | .io _ _ => .answer
  let r := s.sendPacket t k
  let n := match r.1 with | .sent n => n | _ => 1
  let keep := match r.1 with | .sent n => !ofTile c && k.hdr.opc.toNat != oGET && n != 0 | _ => false
  let s := r.2.modChan c (fun q => { q with
    seq := q.seq + 1, issued := q.issued + BitVec.ofNat 32 n, open_ := if keep then q.open_ ++ [(k.hdr.seq, n)] else q.open_ })
  match r.1 with
  | .nack code => (r.1, s.nacked c k.hdr.seq code)
  | _ => (r.1, s)
/-- The header fields of a channel's request. -/
def State.chanHdr (s : State) (c : ChanId) (stage opc ga len reply : Nat) : PktHdr :=
  let plan := ofTile c && opc != oGET
  let land_ := match c with | .tile g _ => if plan then s.landStage g stage else 0 | .io _ _ => 0
  s.hdr opc ga len (chanCode c) (s.chan c).seq.toNat reply (b2n (ofTile c) + 2 * b2n plan) land_
/-- The destination of a GET request in physical form (R289). -/
def State.replyOf (s : State) (p : Place) : Nat :=
  match p with
  | .bank g k off _ _ => gaOf s.self g k off
  | .dram off => s.self * 2 ^ 48 + 2 ^ 46 + off
  | .host _ _ => s.self * 2 ^ 48
  | .remote a => a

/-! PARITY (R274). -/

/-- Doubling in GF(2^8) with polynomial 0x11D. -/
def gfDouble (b : Byte) : Byte := (b <<< 1) ^^^ (if b.getLsbD 7 then 0x1D else 0)
/-- P of shards. -/
def parityP (n : Nat) (l : List Bytes) : Bytes := l.foldl (List.zipWith (· ^^^ ·)) (List.replicate n 0)
/-- Q of shards, by Horner from the last shard. -/
def parityQ (n : Nat) (l : List Bytes) : Bytes := l.foldr (fun d q => List.zipWith (fun a b => a ^^^ gfDouble b) d q) (List.replicate n 0)

/-! The accesses of a descriptor, one at a time (R48, R84, R87, R115, R268, R274). -/

/-- What a try at a descriptor's next access comes to: it goes on, nothing can be done now, or the access waits at a bank of the channel's
own tile (R87). -/
inductive Turn where
  | on
  | stop
  | blocked
  deriving DecidableEq, Repr

/-- The descriptor's first unit changed by a function. -/
def Xfer.modUnit (x : Xfer) (f : XUnit → XUnit) : Xfer := { x with todo := match x.todo with | [] => [] | u :: r => f u :: r }
/-- The first unit of a descriptor has made its next write: after its last one the next unit follows. -/
def Xfer.wrote (x : Xfer) : Xfer :=
  match x.todo with
  | [] => x
  | u :: r =>
    if u.dsts.length ≤ 1 then { x with todo := r, got := [] }
    else { x with todo := { u with dsts := u.dsts.drop 1, reqs := u.reqs.drop 1 } :: r, got := x.got.drop 1 }
/-- A read of a unit's source. One that the channel makes as REMOTE may wait in the tile's landing buffer (R88, R102); host memory that
returns fewer bytes leaves the descriptor short of them (R279). -/
def State.readSrc (s : State) (c : ChanId) (x : Xfer) (u : XUnit) (j addr : Nat) : Turn × State :=
  let got (s : State) (b : Bytes) : Turn × State := (.on, s.modXfer c (fun x => { x with got := x.got ++ [b] }))
  match s.place c x.d.srcKind.toNat addr with
  | .error f => (.stop, s.modXfer c (·.refuse f))
  | .ok (.bank g k off _ ag) =>
    if ag = aREMOTE then
      match (s.modXfer c (fun x => { x with asked := true })).arrive g
          { bank := k, off := off, view := 0, data := [], readLen := u.len, land_ := none, ack := none, chan := some c, counts := false } with
      | (.done, s) => (.on, s)
      | (.waiting, s) => (.stop, s)
      | (.refused f, s) => (.stop, s.modXfer c (fun x => { x.refuse f with asked := false }))
    else match s.ownCheck g k ag with
      | .refused f => (.stop, (s.bankEvent g f).modXfer c (·.refuse f))
      | .wait => (.blocked, s.markWait g k)
      | .ok => let r := s.bankRead g k off u.len { agent := ag, stage := some x.stage }; got r.2 r.1
  | .ok (.dram off) => let r := s.dramRead off u.len (chanWho c x.stage); got r.2 r.1
  | .ok (.host q a) =>
    let b := slice x.host (j * x.d.len.toNat + u.at_) u.len
    let s := s.emit (.hostRead q (BitVec.ofNat 64 a) u.len)
    got (if b.length < u.len then s.modXfer c (fun x => { x with short := true }) else s) b
  | .ok (.remote _) => (.stop, s)
/-- The bytes that a unit writes once its reads are made: what COPY moves, or the selected outputs of PARITY. They are undefined where source
and destination overlap (R268, R274). -/
def State.readied (s : State) (c : ChanId) (x : Xfer) (u : XUnit) : State :=
  let n := u.len
  let outs : List Bytes := match x.op with
    | .parity => (if x.d.pq.getLsbD 0 then [parityP n x.got] else []) ++ (if x.d.pq.getLsbD 1 then [parityQ n x.got] else [])
    | _ => x.got
  let r : List Bytes × State :=
    if x.overlap then outs.foldl (fun a b => let f := a.2.freeBytes b.length; (a.1 ++ [f.1], f.2)) ([], s) else (outs, s)
  r.2.modXfer c (fun x => { (x.modUnit (fun u => { u with ready := true })) with got := r.1 })
/-- Whether a descriptor's data come from outside its tile's banks. -/
def State.fromOutside (s : State) (c : ChanId) (x : Xfer) (u : XUnit) : Bool :=
  u.srcs.any (fun a => match s.place c x.d.srcKind.toNat a with | .ok (.bank _ _ _ _ ag) => ag = aREMOTE | _ => true)
/-- A write of LPDDR5X that is part of a descriptor's extent: one request on each I/O die, in ascending order (R114, R267). -/
def State.dramMove (s : State) (off : Nat) (b : Bytes) (req : Nat × Nat) (w : DWho) : State :=
  let die := 2 ^ 38
  let cut := min b.length ((off / die + 1) * die - off)
  let put (s : State) (off : Nat) (b : Bytes) : State :=
    s.dramPut (max req.1 (off / die * die)) (min (req.1 + req.2) ((off / die + 1) * die)) off b w
  let s := put s off (b.take cut)
  if cut < b.length then put s (off + cut) (b.drop cut) else s
/-- A write of a unit (R268). Into a bank reached as REMOTE it lands as a remote write, which a COPY counts under R296; into a quiesced
bank of the channel's own tile, data from outside wait (R48). -/
def State.writeDst (s : State) (c : ChanId) (x : Xfer) (u : XUnit) (addr : Nat) (req : Nat × Nat) (b : Bytes) : Turn × State :=
  let second := x.op = .parity && x.d.pq = 3 && u.dsts.length = 1
  let wrote (s : State) : Turn × State := (.on, s.modXfer c (fun x => (x.count second b.length).wrote))
  match s.place c x.d.dstKind.toNat addr with
  | .error f => (.stop, s.modXfer c (·.refuse f))
  | .ok (.bank g k off view ag) =>
    if ag = aREMOTE then
      let land_ := match c with | .tile h _ => if x.op = .copy then some (s.landStage h x.stage) else none | .io _ _ => none
      match (s.signMove c x.stage (gaOf s.self g k off) b).arrive g
          { bank := k, off := off, view := BitVec.ofNat 2 view, data := b, readLen := 0, land_ := land_, ack := none, chan := some c
            second := second, counts := x.op = .copy } with
      | (.done, s) => wrote s
      | (.waiting, s) => (.on, s.modXfer c (fun x => { x.wrote with landing := x.landing + 1 }))
      | (.refused f, s) => (.stop, s.modXfer c (·.refuse f))
    else if (s.rgn (g / 8)).quiesce && s.fromOutside c x u then (.stop, s)
    else match s.ownCheck g k ag with
      | .refused f => (.stop, (s.bankEvent g f).modXfer c (·.refuse f))
      | .wait => (.blocked, s.markWait g k)
      | .ok => wrote (s.bankWrite g k off view b { agent := ag, stage := some x.stage })
  | .ok (.dram off) => wrote (s.dramMove off b (gaDram req.1, req.2) (chanWho c x.stage))
  | .ok (.host q a) => wrote (s.emit (.hostWrite q (BitVec.ofNat 64 a) b))
  | .ok (.remote _) => (.stop, s)
/-- A packet of a PUT, SET or CLEAR (R288 to R294): its bytes count once they are handed to the fabric port (R275). -/
def State.putPacket (s : State) (c : ChanId) (x : Xfer) (ga : Nat) (b : Bytes) : Turn × State :=
  let h := s.chanHdr c x.stage (opcOf x.op) ga b.length 0
  let t := (s.signMove c x.stage ga b).chanSend c x.slot { hdr := h, payload := b }
  let n := match t.1 with | .sent _ => b.length | _ => 0
  let slot := s.afterPlanned (gaModule ga) x.slot (32 + b.length)
  (.on, t.2.modXfer c (fun x => { (x.count false n).wrote with slot := slot }))
/-- A request packet of a GET; one with no route ends the descriptor (R302). -/
def State.getPacket (s : State) (c : ChanId) (x : Xfer) (u : XUnit) (src dst : Nat) : Turn × State :=
  let h := s.chanHdr c x.stage oGET src u.len (s.replyOf (s.placeOf c x.d.dstKind.toNat dst))
  let t := s.chanSend c x.slot { hdr := h, payload := [] }
  match t.1 with
  | .nack code => (.stop, t.2.modXfer c (·.refuse code))
  | _ =>
    let slot := s.afterPlanned (gaModule src) x.slot 32
    (.on, t.2.modXfer c (fun x => { x.wrote with gets := x.gets ++ [(h.seq, dst)], slot := slot }))
/-- The next access of the descriptor that a channel runs. -/
def State.xferStep (s : State) (c : ChanId) : Turn × State :=
  match (s.chan c).cur with
  | none => (.stop, s)
  | some x => match x.todo with
    | [] => (.stop, s)
    | u :: _ =>
      if x.fault != 0 || x.asked || (x.short && (x.op != .copy || x.got.isEmpty)) || !s.lateGo c then (.stop, s)
      else if x.op = .get then s.getPacket c x u (u.srcs.headD 0) (u.dsts.headD 0)
      else if u.ready then
        if x.op = .copy || x.op = .parity then s.writeDst c x u (u.dsts.headD 0) (u.reqs.headD (0, 0)) (x.got.headD [])
        else s.putPacket c x (u.dsts.headD 0) (x.got.headD [])
      else match u.srcs[x.got.length]? with
        | some a => s.readSrc c x u x.got.length a
        | none => (.on, s.readied c x u)
/-- Accesses of a descriptor up to a number of them, until none can be made. -/
def State.xferSteps (s : State) (c : ChanId) : Nat → Turn × State
  | 0 => (.stop, s)
  | n + 1 =>
    let left (s : State) : Nat := match (s.chan c).cur with | none => 0 | some x => x.todo.length
    match s.xferStep c, (match (s.chan c).cur with | some x => (x.todo.headD ⟨0, [], [], 0, [], false⟩).len | none => 0) with
    | (.on, t), len => (if left t < left s then t.lateCarry c len else t).xferSteps c n
    | r, _ => r
/-- A descriptor makes every access that it can make now. -/
def State.xferGo (s : State) (c : ChanId) : Turn × State :=
  s.xferSteps c (match (s.chan c).cur with | none => 0 | some x => (x.todo.map (fun u => u.srcs.length + u.dsts.length + 1)).sum + 1)

/-! The begin point (R264 to R274). -/

/-- Bursts of a descriptor (R273); those of a GET come with its data. -/
def descBursts (c : ChanId) (op : DescOp) (d : Desc) : Nat :=
  let n := divUp d.len.toNat (chanBurst c)
  match op with
  | .parity => (d.shards.toNat + b2n (d.pq.getLsbD 0) + b2n (d.pq.getLsbD 1)) * n
  | .get => 0
  | _ => n
/-- The channel takes the descriptor that it runs. -/
def State.putXfer (s : State) (c : ChanId) (x : Xfer) : State := s.modChan c (fun q => { q with cur := some x })
/-- A descriptor that ends before any access, with a fault code or 0. -/
def deadXfer (op : DescOp) (d : Desc) (stage code : Nat) : Xfer :=
  { op := op, d := d, stage := stage, bursts := 0, bytes := 0, fault := BitVec.ofNat 8 code, split := false, gets := [] }
/-- A descriptor with its extents checked makes what accesses it can. -/
def State.descStart (s : State) (c : ChanId) (op : DescOp) (d : Desc) (stage : Nat) (host : Bytes) (pages : List (BitVec 32)) : Began × State :=
  let src := (srcBases op d).flatMap (extentsOf d pages false)
  let dst := (dstBases op d).flatMap (extentsOf d pages true)
  let chk := firstBad ((srcBases op d).flatMap (fun b => (extentsOf d pages false b).map (s.extentCheck c d.srcKind.toNat d.src.toNat))
    ++ (dstBases op d).flatMap (fun b => (extentsOf d pages true b).map (s.extentCheck c d.dstKind.toNat b)))
  match chk with
  | .refused e => (.ran e, (match c with | .tile g _ => s.bankEvent g e | .io _ _ => s).putXfer c (deadXfer op d stage e))
  | _ =>
    let srcPl := src.map (fun e => (s.placeOf c d.srcKind.toNat e.1, e.2))
    let dstPl := dst.map (fun e => (s.placeOf c d.dstKind.toNat e.1, e.2))
    let local_ := op = .copy || op = .parity
    let x : Xfer := { deadXfer op d stage 0 with
      bursts := descBursts c op d, split := (srcPl ++ dstPl).any Place.splits, todo := unitsOf op d pages, host := host
      overlap := local_ && srcPl.any (fun a => dstPl.any (fun b => overlaps a b)), slot := d.planned.map (fun e => (e.1.toNat, e.2.toNat)) }
    let r := ((s.putXfer c x).noteLate c op d stage src dst).xferGo c
    (.ran (match (r.2.chan c).cur with | none => 0 | some x => x.fault.toNat) (r.1 = .blocked), r.2)
/-- A descriptor at its begin point (R264 to R274): refused before any access, held while its page table's bank is to be handed to the
channel, or begun. -/
def State.descRun (s : State) (c : ChanId) (op : DescOp) (d : Desc) (stage : Nat) (host : Bytes) (it : QItem) : Began × State :=
  let ends (s : State) (code : Nat) : Began × State := (.ran code, s.putXfer c (deadXfer op d stage code))
  match s.descCheck c op d with
  | some e => ends s e
  | none =>
    if d.len = 0 then ends s 0
    else
      let table : Ixs × State := match c with
        | .tile g ch => if d.paged then s.readIndex g (aDMA ch) d.pgTable.toNat (divUp d.len.toNat (2 ^ d.pgLog2.toNat)) (some stage) else (.ok [], s)
        | .io _ _ => (.ok [], s)
      match table with
      | (.bad e, s) => ends s e
      | (.waits, s) => (.holds it, s)
      | (.ok pages, s) => if pages.any (fun e => d.pgCount.toNat ≤ e.toNat || e.msb) then ends s fINDEX else s.descStart c op d stage host pages

/-- The ring entry that an I/O-die channel's next descriptor is: of a ring in the module's own LPDDR5X its bytes stand in State, and a row
names that entry's descriptor or none (R262, R389). -/
def State.descEntry (s : State) (i ch ring : Nat) (op : DescOp) (d : Desc) : Bool × State :=
  if s.fget (.RING_CFG ring) RING_CFG.KIND = 1 then
    let at_ := (s.reg (.RING_BASE ring)).toNat + s.fget (.RING_IDX ring) RING_IDX.CONS % s.ringSize ring * 64
    let r := s.dramRead (at_ % 2 ^ 40) 64 (plainWho (.io (Fin.ofNat 4 i) (Fin.ofNat 32 ch)))
    if descMatches r.1 op { d with planned := none } then (true, r.2) else (false, s)
  else (true, s)
/-- Whether an I/O-die channel may take the next descriptor of its ring (R264, R273, R277, R278, R304, R526). -/
def State.ioReady (s : State) (i ch : Nat) (d : Desc) : Bool :=
  let q := tget {} s.idma (i * 32 + ch)
  let ring := s.fget (.IDMA_RINGS i ch) IDMA_RINGS.DRING
  s.flag (.IDMA_CTRL i ch) IDMA_CTRL.RUN && s.ringIs ring rDESC && 0 < s.ringHeld ring && q.cur.isNone && q.held.isNone && 0 < q.share
    && q.open_.isEmpty && d.notBefore.toNat ≤ s.stage && !s.stopped
/-- A descriptor row (R262, R264): on a tile channel, the descriptor command in its queue; on an I/O-die channel, the next descriptor of
its ring. -/
def State.descRow (s : State) (c : DescAt) (op : DescOp) (d : Desc) : State :=
  match c with
  | .tile g ch h =>
    let k := ChanId.tile g ch
    s.engineRow g h (.desc ch op d) (fun it s =>
      let q := s.chan k
      if it.begun && q.cur.isSome then
        let r := s.xferGo k
        (.ran (match (r.2.chan k).cur with | none => 0 | some x => x.fault.toNat) (r.1 = .blocked), r.2)
      else if q.held.isSome || q.cur.isSome then (.stands, s)
      else if s.fget (.TDMA_CFG g ch) TDMA_CFG.SHARE = 0 then (.waits, s)
      else s.descRun k op d it.stage [] it)
  | .io i ch b =>
    if !s.ioReady i ch d then s
    else
      let ring := s.fget (.IDMA_RINGS i ch) IDMA_RINGS.DRING
      match s.descEntry i ch ring op d with
      | (false, s) => s
      | (true, s) => (s.descRun (.io i ch) op d s.stage b { stage := s.stage, pred := true, body := .fence 0 }).2.ringTake ring

/-! The end (R275 to R279). -/

/-- A completion record (R275). -/
def crecBytes (len : Nat) (tag : BitVec 16) (code flags stage chan : Nat) : Bytes :=
  toLe 4 len ++ toLe 2 tag.toNat ++ toLe 1 code ++ toLe 1 flags ++ toLe 4 stage ++ toLe 2 chan ++ [0, 0]
/-- Whether a stage of a tile's partition has committed (R411, R523). -/
def State.stageCommitted (s : State) (g stage : Nat) : Bool :=
  match s.partOfTile g with | none => false | some p => decide (s.planStage p stage < ((s.part p).commitC : Int))
/-- A channel shows that it is held on a full completion ring (R277). -/
def State.ringWait (s : State) (c : ChanId) : State :=
  match c with
  | .tile g ch => s.fset (.TDMA_STATUS g ch) TDMA_STATUS.RING_WAIT (b2n (s.chan c).held.isSome)
  | .io i ch => s.fset (.IDMA_STATUS i ch) IDMA_STATUS.RING_WAIT (b2n (s.chan c).held.isSome)
/-- The completion ring of a channel. -/
def State.cring (s : State) : ChanId → Nat
  | .tile g ch => s.fget (.TDMA_CFG g ch) TDMA_CFG.CRING
  | .io i ch => s.fget (.IDMA_RINGS i ch) IDMA_RINGS.CRING
/-- The requester that a channel's record counts as. -/
def recWho : ChanId → Requester
  | .tile g _ => .tile g
  | .io i ch => .io i ch
/-- A record is written, or held while its ring is full (R277). After a device stop no record is written (R526). -/
def State.putRecord (s : State) (c : ChanId) (b : Bytes) : State :=
  if s.boot.sealed then s
  else if (s.chan c).held.isNone && s.ringIs (s.cring c) rCOMPLETION && s.ringRoom (s.cring c) then s.ringPut (s.cring c) b (recWho c)
  else if (s.chan c).held.isNone then (s.modChan c (fun q => { q with held := some b })).ringWait c
  else s.modChan c (fun q => { q with due := q.due ++ [(0, b)] })
/-- The record of a tile channel: into a ring of KIND 0 only once its issue stage has committed (R523). -/
def State.tileRecord (s : State) (g ch stage : Nat) (b : Bytes) : State :=
  let c := ChanId.tile (Fin.ofNat 512 g) (Fin.ofNat 4 ch)
  if s.fget (.RING_CFG (s.cring c)) RING_CFG.KIND = 0 then s.modChan c (fun q => { q with due := q.due ++ [(stage, b)] }) else s.putRecord c b
/-- The due records of a channel whose stages have committed go out in order, until one is held (R277, R523). -/
def State.flushDue (s : State) (g ch : Nat) : Nat → State
  | 0 => s
  | n + 1 =>
    let c := ChanId.tile (Fin.ofNat 512 g) (Fin.ofNat 4 ch)
    match (s.chan c).due with
    | [] => s
    | e :: r => if (s.chan c).held.isSome || !s.stageCommitted g e.1 then s
      else ((s.modChan c (fun q => { q with due := r })).putRecord c e.2).flushDue g ch n
/-- Bytes and descriptors are counted. -/
def State.countDesc (s : State) (c : ChanId) (bytes : Nat) : State :=
  match c with
  | .tile g ch => (s.fadd (.TDMA_COUNT g ch) TDMA_COUNT.BYTES bytes).fadd (.TDMA_COUNT g ch) TDMA_COUNT.DESCS 1
  | .io i ch => (s.fadd (.IDMA_COUNT i ch) IDMA_COUNT.BYTES bytes).fadd (.IDMA_COUNT i ch) IDMA_COUNT.DESCS 1
/-- Whether a descriptor has ended (R276): its last write has landed and its bursts are carried, or a fault ended it; what still waits in a
landing buffer is part of it. -/
def Xfer.over (x : Xfer) : Bool :=
  x.todo.isEmpty && x.landing = 0 && !x.asked && (x.fault != 0 || (!x.short && x.bursts = 0 && x.gets.isEmpty))
/-- LENGTH of a record: the bytes written to the destination, or to each output of a PARITY (R275). -/
def Xfer.length (x : Xfer) : Nat := if x.op = .parity && x.d.pq = 3 then min x.bytes x.bytes2 else x.bytes
/-- A channel is done with its descriptor. GET data that had arrived without landing completes its request (R300), and items of the
descriptor that still wait in landing buffers, which only the end of R279 leaves, land on their own or are dropped. -/
def State.endXfer (s : State) (c : ChanId) : State :=
  match (s.chan c).cur with
  | none => s
  | some x =>
    let s := (s.modChan c (fun q => { q.complete x.inq.length with cur := none })).dropLate c
    if x.landing = 0 && !x.asked then s
    else { s with tiles := s.tiles.map (fun e => (e.1, { e.2 with
      landing := (e.2.landing.filter (fun i => i.chan != some c || i.readLen = 0)).map (fun i => if i.chan = some c then { i with chan := none } else i) })) }
/-- A descriptor of a tile channel ends (R233, R275, R276): its record, then its fault, tallies and entry. -/
def State.tileDescEnd (s : State) (g ch : Nat) : State :=
  let c := ChanId.tile (Fin.ofNat 512 g) (Fin.ofNat 4 ch)
  match (s.queue g (aDMA ch)).head? with
  | none => s
  | some it =>
    match it.phase, it.body with
    | .running, .eng _ (.desc _ _ d) =>
      let x := (s.chan c).cur
      if it.waiting || (match x with | none => false | some x => !x.over) then s
      else
        let code := match x with | none => it.fault | some x => x.fault
        let split := match x with | none => false | some x => x.split
        let s := s.endXfer c
        let s := if it.skipped then s else s.countDesc c (match x with | none => 0 | some x => x.bytes + x.bytes2)
        let bytes := match x with | none => 0 | some x => x.length
        let s := if it.skipped || !d.crec || !s.flag (.TDMA_CFG g ch) TDMA_CFG.CR_VALID then s
          else s.tileRecord g ch it.stage (crecBytes bytes d.tag code.toNat (b2n split) s.stage (chanCode c))
        let s := s.putQueue g (aDMA ch) ((s.queue g (aDMA ch)).set 0 { it with fault := code })
        s.endEntry g (aDMA ch) 0
    | _, _ => s
/-- A descriptor of an I/O-die channel ends (R275, R276, R278, R518); `down` says that a PCIe error or a lost link ends it (R279). -/
def State.ioDescEnd (s : State) (i : Iod) (ch : IoCh) (down : Bool) : State :=
  let c := ChanId.io i ch
  match (s.chan c).cur with
  | none => s
  | some x =>
    if !down && !x.over then s
    else
      let code := if down then fHOST_DOWN else x.fault.toNat
      let s := s.endXfer c
      let s := s.countDesc c (x.bytes + x.bytes2)
      let s := if down then (s.fset (.IDMA_CTRL i ch) IDMA_CTRL.RUN 0).fset (.IDMA_EVENT i) IDMA_EVENT.HOST_DOWN 1 else s
      let stop := !s.flag (.IDMA_CTRL i ch) IDMA_CTRL.RUN
      let s := if code = 0 then s
        else (s.fset (.IDMA_STATUS i ch) IDMA_STATUS.LAST_FAULT code).raise { code := code, cls := cFLAG, origin := 3, id := 8 + i }
      if x.d.crec then s.putRecord c (crecBytes x.length x.d.tag code (b2n x.split + 2 * b2n stop) s.stage (chanCode c)) else s
/-- DESCRIPTOR_END -/
def State.descEnd (s : State) (c : ChanId) : State :=
  match c with
  | .tile g ch => s.tileDescEnd g ch
  | .io i ch => s.ioDescEnd i ch false
/-- COMPLETION_RING_RESUME (R277): the held record goes out once the ring has room. -/
def State.ringResume (s : State) (c : ChanId) : State :=
  match (s.chan c).held with
  | none => s
  | some b =>
    if s.boot.sealed || !(s.ringIs (s.cring c) rCOMPLETION && s.ringRoom (s.cring c)) then s
    else
      let s := ((s.ringPut (s.cring c) b (recWho c)).modChan c (fun q => { q with held := none })).ringWait c
      match c with | .tile g ch => s.flushDue g ch 64 | .io _ _ => s
/-- ENGINE_COMMAND_END (R231): on a channel it is the descriptor's end; `drain` names an ACCSTORE that ends before the MATMULs of the other
buffer (R172, R227). -/
def State.engineEnd (s : State) (g agent : Nat) (drain : Bool) : State :=
  if !s.tilePresent g then s
  else if 3 ≤ agent && agent ≤ 6 then s.tileDescEnd g (agent - 3)
  else match s.runningIx g agent drain with | none => s | some ix => s.endEntry g agent ix

/-! Pacing (R271 to R273). -/

/-- The channel that a slot of the wheel belongs to (R272): the shares and the slots owned so far, up to slot `t`. -/
def wheelSlot (shares : List Nat) (t : Nat) : Option Nat :=
  let step (a : List Nat × Option Nat) (k : Nat) : List Nat × Option Nat :=
    let def_ (c : Nat) : Int := (shares.getD c 0 * (k + 1) : Nat) - (256 * a.1.getD c 0 : Nat)
    let best := (List.range shares.length).foldl (fun (b : Option Nat) c =>
      if def_ c ≤ 0 then b else match b with | none => some c | some e => if def_ e < def_ c then some c else b) none
    (match best with | none => a.1 | some c => a.1.set c (a.1.getD c 0 + 1), best)
  ((List.range (t + 1)).foldl step (List.replicate shares.length 0, none)).2
/-- The data of a GET take a burst of the channel; with the last burst of a packet they land (R273, R293), or wait while the channel is the
pending owner of their bank. A refusal ends the descriptor (R268). -/
def State.getBurst (s : State) (c : ChanId) (x : Xfer) : State :=
  match x.inq with
  | [] => s
  | (seq, b, n) :: r =>
    if 1 < n then s.modXfer c (fun x => { x with inq := (seq, b, n - 1) :: r })
    else
      let past (x : Xfer) : Xfer := { x with gets := x.gets.filter (·.1 != seq), inq := r }
      match s.landGet c x ((x.gets.find? (·.1 = seq)).map (·.2) |>.getD 0) b with
      | (none, s) => s
      | (some 0, s) => (s.modChan c (·.complete)).modXfer c (fun x => past (x.count false b.length))
      | (some f, s) => (s.modChan c (·.complete)).modXfer c (fun x => (past x).refuse f)
/-- Whether the descriptor of a tile channel waits at a bank is shown in its entry (R87, R240). -/
def State.markEntry (s : State) (c : ChanId) (blocked : Bool) : State :=
  match c with
  | .io _ _ => s
  | .tile g ch => match s.queue g (aDMA ch) with
    | i :: r => if i.phase = .running && i.waiting != blocked then s.putQueue g (aDMA ch) ({ i with waiting := blocked, waitB := 0 } :: r) else s
    | [] => s
/-- A burst of a channel: the descriptor makes what accesses it can, and a burst of its data is carried. -/
def State.chanBurstNow (s : State) (c : ChanId) : State :=
  match (s.chan c).cur with
  | none => s
  | some x =>
    if x.fault != 0 then s
    else if x.op = .get && x.todo.isEmpty then s.getBurst c x
    else
      let r := s.xferGo c
      (r.2.modXfer c (fun x => { x with bursts := if x.todo.isEmpty || x.op = .get then x.bursts - 1 else max 1 (x.bursts - 1) })).markEntry c (r.1 = .blocked)
/-- DMA_BURST (R271, R272): the slot's channel carries a burst, or the slot stays idle. -/
def State.dmaBurst (s : State) (m : MoverSlot) : State :=
  match m with
  | .tile g t =>
    match wheelSlot ((List.range 4).map (fun c => s.fget (.TDMA_CFG g c) TDMA_CFG.SHARE)) t with
    | none => s
    | some c => s.chanBurstNow (.tile g (Fin.ofNat 4 c))
  | .io i t =>
    match wheelSlot ((List.range 32).map (fun c => (tget {} s.idma (i * 32 + c)).share)) t with
    | none => s
    | some c => s.chanBurstNow (.io i (Fin.ofNat 32 c))

/-! Control of the I/O-die channels (R278, R283). -/

/-- The state of an I/O-die channel (IDMA_STATUS.STATE). -/
def State.ioState (s : State) (i ch : Nat) : Nat :=
  let q := tget {} s.idma (i * 32 + ch)
  if q.cur.isSome then 3
  else if !s.flag (.IDMA_CTRL i ch) IDMA_CTRL.RUN || s.stopped then 0
  else if s.ringHeld (s.fget (.IDMA_RINGS i ch) IDMA_RINGS.DRING) = 0 then 1 else 2
/-- The sum of a mover's shares. -/
def State.shareTotal (s : State) (i : Nat) : Nat := ((List.range 32).map (fun c => s.fget (.IDMA_CTRL i c) IDMA_CTRL.SHARE)).sum
/-- A write of `IDMA_CTRL` (R278, R283): its share, its RUN, and what is discarded. -/
def State.idmaCtrlWrite (s : State) (i ch : Nat) (a : Acc) : State :=
  s.owned a.by_ (fun s =>
    let r := Reg.IDMA_CTRL i ch
    let v := r.info.write (s.reg r) a
    let sh := IDMA_CTRL.SHARE.get v
    let old := s.fget r IDMA_CTRL.SHARE
    let total := s.shareTotal i - old + sh
    let rings := Reg.IDMA_RINGS i ch
    let ringOk (n t e : Nat) : Bool := s.ringType n = t && s.fget (.RING_CFG n) RING_CFG.ESIZE = e
    if 256 < sh || (old < sh && s.fget (.IDMA_SUM i) IDMA_SUM.LIMIT < total) then s.fset (.IDMA_EVENT i) IDMA_EVENT.SHARE_REJ 1
    else if a.size != .hi && IDMA_CTRL.RUN.get v = 1
        && !(ringOk (s.fget rings IDMA_RINGS.DRING) rDESC 2 && ringOk (s.fget rings IDMA_RINGS.CRING) rCOMPLETION 0) then
      s.fset (.IDMA_EVENT i) IDMA_EVENT.BIND_REJ 1
    else (s.setReg r v).fset (.IDMA_SUM i) IDMA_SUM.TOTAL total)
/-- A write of `IDMA_RINGS` (R283). -/
def State.idmaRingsWrite (s : State) (i ch : Nat) (a : Acc) : State :=
  s.owned a.by_ (fun s =>
    if s.ioState i ch = 0 then s.plainWrite (.IDMA_RINGS i ch) a else s.fset (.IDMA_EVENT i) IDMA_EVENT.BIND_REJ 1)
/-- New shares come into force at a stage boundary (R272). -/
def State.shareBoundary (s : State) : State :=
  (List.range 4).foldl (fun s i => (List.range 32).foldl (fun s c =>
    let sh := s.fget (.IDMA_CTRL i c) IDMA_CTRL.SHARE
    if (tget {} s.idma (i * 32 + c)).share = sh then s else { s with idma := tmod {} s.idma (i * 32 + c) (fun q => { q with share := sh }) }) s) s
/-- The descriptors in progress of a host port's channels end when its link goes down (R279). -/
def State.hostStop (s : State) (p : Nat) : State :=
  if 2 ≤ p then s
  else (List.range 32).foldl (fun s c =>
    match (tget {} s.idma (p * 32 + c)).cur with
    | none => s
    | some x => if x.d.srcKind.toNat = 2 || x.d.dstKind.toNat = 2 then s.ioDescEnd (Fin.ofNat 4 p) (Fin.ofNat 32 c) true else s) s
/-- PCIE_READ_ERROR (R279). -/
def State.pcieError (s : State) (i : Iod) (ch : IoCh) : State :=
  match (s.chan (.io i ch)).cur with
  | none => s
  | some x => if i.val < 2 && x.d.srcKind.toNat = 2 then s.ioDescEnd i ch true else s

/-- COPY -/
def execCopyOp (c : DescAt) (d : Desc) (s : State) : Res := live s (·.descRow c .copy d)
/-- GET -/
def execGetOp (c : DescAt) (d : Desc) (s : State) : Res := live s (·.descRow c .get d)
/-- PUT -/
def execPutOp (c : DescAt) (d : Desc) (s : State) : Res := live s (·.descRow c .put d)
/-- SET -/
def execSetOp (c : DescAt) (d : Desc) (s : State) : Res := live s (·.descRow c .set d)
/-- CLEAR -/
def execClearOp (c : DescAt) (d : Desc) (s : State) : Res := live s (·.descRow c .clear d)
/-- PARITY -/
def execParity (c : DescAt) (d : Desc) (s : State) : Res := live s (·.descRow c .parity d)
/-- DMA_BURST -/
def execDmaBurst (m : MoverSlot) (s : State) : Res := live s (·.dmaBurst m)
/-- DESCRIPTOR_END -/
def execDescriptorEnd (c : ChanId) (s : State) : Res := live s (·.descEnd c)
/-- COMPLETION_RING_RESUME -/
def execCompletionRingResume (c : ChanId) (s : State) : Res := live s (·.ringResume c)
/-- PCIE_READ_ERROR -/
def execPcieReadError (i : Iod) (ch : IoCh) (s : State) : Res := live s (·.pcieError i ch)
/-- IDMA_RUN -/
def execIdmaRun (i : Iod) (ch : IoCh) (a : Acc) (s : State) : Res := live s (·.idmaCtrlWrite i ch a)
/-- IDMA_STOP -/
def execIdmaStop (i : Iod) (ch : IoCh) (a : Acc) (s : State) : Res := live s (·.idmaCtrlWrite i ch a)
/-- IDMA_SHARE_WRITE -/
def execIdmaShareWrite (i : Iod) (ch : IoCh) (a : Acc) (s : State) : Res := live s (·.idmaCtrlWrite i ch a)
/-- IDMA_RINGS_WRITE -/
def execIdmaRingsWrite (i : Iod) (ch : IoCh) (a : Acc) (s : State) : Res := live s (·.idmaRingsWrite i ch a)
/-- ENGINE_COMMAND_END -/
def execEngineCommandEnd (g : Gt) (agent : Agent) (drain : Bool) (s : State) : Res := live s (·.engineEnd g agent.toNat drain)

end Sys2Proof.Machine
end

