-- ==== Sys2Proof/Machine/Seq.lean ====
section
/-! DEFINITION. The tile sequencer (spec/07_command_streams.md R220 to R261): the RV32IMC core and its address map, the commands that it
enqueues or runs itself, stage ends, loops, waits and fences. -/

namespace Sys2Proof.Machine

/-! The sequencer's own state. -/

/-- Whether a sequencer can execute: running, in no WAIT or FENCE, and not held by a rate window (R46, R220, R255, R256). -/
def State.seqReady (s : State) (g : Nat) : Bool :=
  s.tilePresent g && s.fget (.SEQ_STATUS g) SEQ_STATUS.STATE = 1 && (s.tile g).seqWait.isNone && !(s.rgn (g / 8)).quiesce
/-- A sequencer stalls with a cause (SEQ_STATUS.WAIT_CAUSE). -/
def State.stall (s : State) (g cause : Nat) : State := s.fset (.SEQ_STATUS g) SEQ_STATUS.WAIT_CAUSE cause
/-- A stall ends; the steps it lasted are a free number (SEQ_WAIT, log entry 22). -/
def State.waitSteps (s : State) (g : Nat) : State :=
  match s.fget (.SEQ_STATUS g) SEQ_STATUS.WAIT_CAUSE with
  | 0 => s
  | c =>
    let x := s.freeBelow (2 ^ 32)
    let s := if c = 1 || c = 4 then x.2.fadd (.SEQ_WAIT g) SEQ_WAIT.FULL_STEPS x.1
      else if c = 2 || c = 3 then x.2.fadd (.SEQ_WAIT g) SEQ_WAIT.TALLY_STEPS x.1 else x.2
    s.stall g 0
/-- The program counter. -/
def State.pc (s : State) (g : Nat) : BitVec 32 := BitVec.ofNat 32 (s.fget (.SEQ_PC g) SEQ_PC.PC)
/-- The sequencer goes on at an address; a stall that held it has ended. -/
def State.seqAt (s : State) (g : Nat) (pc : BitVec 32) : State := (s.waitSteps g).fset (.SEQ_PC g) SEQ_PC.PC pc.toNat
/-- The sequencer goes on behind an instruction of `n` bytes. -/
def State.seqNext (s : State) (g n : Nat) : State := s.seqAt g (s.pc g + BitVec.ofNat 32 n)
/-- A command of the sequencer is refused, and the sequencer goes on (R257). -/
def State.seqRefuse (s : State) (g code : Nat) : State := s.raiseTile g aSEQ code (some (s.tile g).issue)
/-- An exception: the sequencer stops at the instruction that raised it (R222). An instruction carries no stage tag, so its faulting stage is
the stage in progress (R519). -/
def State.seqStop (s : State) (g code : Nat) : State := ((s.waitSteps g).raiseTile g aSEQ code).fset (.SEQ_STATUS g) SEQ_STATUS.STATE 2
/-- The issue stage less the work stage (SEQ_STATUS.AHEAD). -/
def State.aheadOf (s : State) (g : Nat) : Nat :=
  ((s.tile g).issue + 2 ^ 32 - s.fget (.SEQ_STATUS g) SEQ_STATUS.WORK_STAGE) % 2 ^ 32
/-- AHEAD follows the issue stage and the work stage; it is 0 at a tile without a stream, whose work stage passes its issue stage. -/
def State.refreshAhead (s : State) (g : Nat) : State :=
  s.fset (.SEQ_STATUS g) SEQ_STATUS.AHEAD (if 2 ^ 31 ≤ s.aheadOf g then 0 else min (s.aheadOf g) 4)

/-! Loops (R241 to R246). -/

/-- The open levels. -/
def State.loopDepth (s : State) (g : Nat) : Nat := (s.tile g).loops.length
/-- The open levels, innermost first, are replaced. -/
def State.putLoops (s : State) (g : Nat) (l : List LoopSt) : State :=
  (s.modTile g (fun t => { t with loops := l })).fset (.SEQ_STATUS g) SEQ_STATUS.LOOP_DEPTH l.length
/-- The innermost level closes. -/
def State.closeLoop (s : State) (g : Nat) : State :=
  match (s.tile g).loops with
  | [] => s
  | _ :: r =>
    let i := r.length
    let s := ((s.putLoops g r).fset (.LOOP g i) LOOP.ACTIVE 0).fset (.LOOP g i) LOOP.FOREVER 0
    s.fset (.LOOP g i) LOOP.REMAIN 0
/-- LOOP (R230, R241, R242, R243, R245). -/
def State.seqLoop (s : State) (g : Nat) (o : LoopOps) : State :=
  let l := s.loopDepth g
  if o.common || 4 ≤ l then (s.seqRefuse g fDECODE).seqNext g o.len.toNat
  else
    let r := Reg.LOOP g l
    let src : Bool × Nat := match o.src with
      | .imm n => (false, n.toNat)
      | .forever => (true, 0)
      | .reg => (s.flag r LOOP.LC_FOREVER, s.fget r LOOP.LC_COUNT)
    if !src.1 && src.2 = 0 then s.seqAt g o.bodyEnd
    else
      let s := ((s.fset r LOOP.REMAIN src.2).fset r LOOP.ACTIVE 1).fset r LOOP.FOREVER (b2n src.1)
      let start := s.pc g + BitVec.ofNat 32 o.len.toNat
      (s.putLoops g ({ start := start, bodyEnd := o.bodyEnd } :: (s.tile g).loops)).seqNext g o.len.toNat
/-- ENDLOOP (R230, R243, R245). -/
def State.seqEndLoop (s : State) (g n : Nat) (common : Bool) : State :=
  if common then (s.seqRefuse g fDECODE).seqNext g n
  else match (s.tile g).loops with
  | [] => (s.seqRefuse g fDECODE).seqNext g n
  | l :: r =>
    let reg := Reg.LOOP g r.length
    if s.flag reg LOOP.FOREVER then s.seqAt g l.start
    else
      let m := s.fget reg LOOP.REMAIN - 1
      if m = 0 then (s.closeLoop g).seqNext g n else (s.fset reg LOOP.REMAIN m).seqAt g l.start
/-- BREAK (R230, R244, R245). -/
def State.seqBreak (s : State) (g n : Nat) (common : Bool) : State :=
  if common then (s.seqRefuse g fDECODE).seqNext g n
  else match (s.tile g).loops with
  | [] => (s.seqRefuse g fDECODE).seqNext g n
  | l :: _ => (s.closeLoop g).seqAt g l.bodyEnd
/-- A taken branch or jump: a target outside the innermost body raises DECODE (R245, log entry 14). -/
def State.seqJump (s : State) (g : Nat) (target : BitVec 32) : State :=
  let bad := match (s.tile g).loops with
    | [] => false
    | l :: _ => target.toNat < l.start.toNat || l.bodyEnd.toNat ≤ target.toNat
  (if bad then s.seqRefuse g fDECODE else s).seqAt g target

/-! Memory (R221, R223). -/

/-- A word of a sequencer's memory takes errors from outside (R223). -/
def State.coreUpset (s : State) (g : Nat) (u : CoreUpset) : State :=
  if 8192 ≤ u.upset.word then s
  else s.modTile g (fun t =>
    let hit (m : List Host.Cell) : List Host.Cell :=
      if u.upset.ue then memWrite m (u.upset.word * 8) (toLe 8 (memNat m (u.upset.word * 8) 8 ^^^ u.upset.flip.toNat)) else m
    let mark (b : List (Nat × BitVec 2)) : List (Nat × BitVec 2) :=
      if u.upset.ue then tput 0 b u.upset.word 2 else if tget 0 b u.upset.word = 2 then b else tput 0 b u.upset.word 1
    if u.dmem then { t with dmem := hit t.dmem, dmemBad := mark t.dmemBad } else { t with imem := hit t.imem, imemBad := mark t.imemBad })
/-- The errors that an access to a sequencer's memory meets: a corrected word is counted, an uncorrectable one raises SRAM_UE (R98, R223). -/
def State.coreErrors (s : State) (g : Nat) (bad : List (Nat × BitVec 2)) : State :=
  bad.foldl (fun s e =>
    if e.2 = 2 then (s.fset (.SRAM_ECC g) SRAM_ECC.UE 1).raiseTile g aSEQ fSRAM_UE else s.fadd (.SRAM_ECC g) SRAM_ECC.CE_COUNT 1) s
/-- A store in DMEM, which merges the word that it covers in part (R97, R223). -/
def State.dmemStore (s : State) (g o : Nat) (b : Bytes) : State :=
  let bad := badIn (s.tile g).dmemBad o b.length
  let dead := bad.any (·.2 = 2)
  (s.modTile g (fun t => { t with
    dmem := if dead then t.dmem else memWrite t.dmem o b
    dmemBad := if dead then t.dmemBad else bad.foldl (fun m e => tput 0 m e.1 0) t.dmemBad })).coreErrors g bad
/-- The outcome of a load or store: the loaded number and the state, an exception, or a wait as the pending owner. -/
inductive SeqMem where
  | done (v : Nat) (s : State)
  | bad (code : Nat)
  | waits
  deriving DecidableEq, Repr
/-- The bytes of a width. -/
def memBytes : MemSize → Nat
  | .byte => 1 | .half => 2 | .word => 4
/-- The word that LC`l` reads as (R242). -/
def State.lcWord (s : State) (g l : Nat) : Nat := s.fget (.LOOP g l) LOOP.LC_COUNT + s.fget (.LOOP g l) LOOP.LC_FOREVER <<< 24
/-- A count register takes a word (R242). -/
def State.putLc (s : State) (g l v : Nat) : State := (s.fset (.LOOP g l) LOOP.LC_COUNT (v % 2 ^ 24)).fset (.LOOP g l) LOOP.LC_FOREVER (bits v 24 24)
/-- A byte field of a word replaced. -/
def spliceWord (old off n v : Nat) : Nat := leNat (memRead (memWrite (cellsOf 0 (toLe 8 old)) off (toLe n v)) 0 8)
/-- A load or store of the sequencer (R221): through its address map, naturally aligned. A load is no command with a stage tag, so SRAM_UE of
a load stops the partition at the next stage boundary (R98, R519). -/
def State.seqMem (s : State) (g : Nat) (store : Bool) (n addr data : Nat) : SeqMem :=
  if addr % n != 0 then .bad fBOUNDS
  else if addr < 0x20000000 then
    match s.accCheck g aSEQ addr n with
    | .refused c => .bad c
    | .wait => .waits
    | .ok =>
      if store then .done 0 (s.bankWrite g (laBank addr) (laOff addr) (laView addr) (toLe n data) { agent := aSEQ, stage := some (s.tile g).issue })
      else
        let r := s.bankRead g (laBank addr) (laOff addr) n { agent := aSEQ }
        .done (leNat r.1) r.2
  else if 0x40000000 ≤ addr && addr < 0x40010000 then
    let o := addr - 0x40000000
    if store then .done 0 (s.dmemStore g o (toLe n data))
    else .done (memNat (s.tile g).dmem o n) (s.coreErrors g (badIn (s.tile g).dmemBad o n))
  else if 0x60000000 ≤ addr && addr < 0x60000008 then
    let o := addr - 0x60000000
    let w := (s.reg (.PRED g)).toNat
    if store then .done 0 (s.setReg (.PRED g) (BitVec.ofNat 64 (spliceWord w o n data))) else .done (bits w (8 * (o + n) - 1) (8 * o)) s
  else if 0x60000010 ≤ addr && addr < 0x60000020 then
    let l := (addr - 0x60000010) / 4
    let o := addr % 4
    let w := s.lcWord g l
    if store then .done 0 (s.putLc g l (spliceWord w o n data)) else .done (bits w (8 * (o + n) - 1) (8 * o)) s
  else .bad fBOUNDS
/-- A register of the core; x0 is 0. -/
def State.xreg (s : State) (g r : Nat) : BitVec 32 := if r = 0 then 0 else tget 0 (s.tile g).x r
/-- A register of the core takes a value; x0 discards it. -/
def State.putX (s : State) (g r : Nat) (v : BitVec 32) : State := if r = 0 then s else s.modTile g (fun t => { t with x := tput 0 t.x r v })
/-- A refused access of the sequencer to a bank is marked in BANK_EVENT (R124). -/
def State.seqBadMem (s : State) (g addr code : Nat) : State := (if addr < 0x20000000 then s.bankEvent g code else s).seqStop g code
/-- A load or store, from the registers' point of view: the loaded register, or an exception, or a wait that leaves the program counter. -/
def State.seqAccess (s : State) (g : Nat) (a : SeqMemOp) (len : Nat) : State :=
  let n := memBytes a.size
  match s.seqMem g a.store n a.addr.toNat a.data.toNat with
  | .bad c => s.seqBadMem g a.addr.toNat c
  | .waits => (s.markWait g (laBank a.addr.toNat)).stall g 5
  | .done v s =>
    let v := BitVec.ofNat 32 (if a.signed then ofInt 32 (toInt (8 * n) v) else v)
    (if a.store then s else s.putX g a.rd v).seqNext g len

/-! RV32IMC (R220, R222; log entry 25). -/

/-- The outcome of decoding and running one instruction that makes no access to memory. -/
inductive RvOut where
  | illegal
  | set (rd : Nat) (v : BitVec 32)
  | jump (rd : Nat) (link : BitVec 32) (target : BitVec 32)
  | mem (a : SeqMemOp)
  | skip
  deriving DecidableEq, Repr
/-- Bits of an instruction as a number. -/
def ib (w hi lo : Nat) : Nat := bits w hi lo
/-- A signed immediate. -/
def simm (n v : Nat) : BitVec 32 := BitVec.ofInt 32 (toInt n v)
/-- The I immediate. -/
def immI (w : Nat) : BitVec 32 := simm 12 (ib w 31 20)
/-- The S immediate. -/
def immS (w : Nat) : BitVec 32 := simm 12 (ib w 31 25 <<< 5 + ib w 11 7)
/-- The B immediate. -/
def immB (w : Nat) : BitVec 32 := simm 13 (ib w 31 31 <<< 12 + ib w 7 7 <<< 11 + ib w 30 25 <<< 5 + ib w 11 8 <<< 1)
/-- The U immediate. -/
def immU (w : Nat) : BitVec 32 := BitVec.ofNat 32 (ib w 31 12 <<< 12)
/-- The J immediate. -/
def immJ (w : Nat) : BitVec 32 := simm 21 (ib w 31 31 <<< 20 + ib w 19 12 <<< 12 + ib w 20 20 <<< 11 + ib w 30 21 <<< 1)
/-- Division with the results of the M extension at its corners. -/
def rvDiv (a b : BitVec 32) : BitVec 32 := if b = 0 then BitVec.allOnes 32 else BitVec.ofInt 32 (a.toInt.tdiv b.toInt)
/-- The signed remainder. -/
def rvRem (a b : BitVec 32) : BitVec 32 := if b = 0 then a else BitVec.ofInt 32 (a.toInt.tmod b.toInt)
/-- The high half of a product. -/
def rvHigh (p : Int) : BitVec 32 := BitVec.ofInt 32 (p / 2 ^ 32)
/-- An operation of OP and OP-IMM; `alt` is bit 30. -/
def rvAlu (f3 : Nat) (alt : Bool) (a b : BitVec 32) : BitVec 32 :=
  match f3 with
  | 0 => if alt then a - b else a + b
  | 1 => a <<< (b.toNat % 32)
  | 2 => if a.toInt < b.toInt then 1 else 0
  | 3 => if a.toNat < b.toNat then 1 else 0
  | 4 => a ^^^ b
  | 5 => if alt then a.sshiftRight (b.toNat % 32) else a >>> (b.toNat % 32)
  | 6 => a ||| b
  | _ => a &&& b
/-- An operation of the M extension. -/
def rvMul (f3 : Nat) (a b : BitVec 32) : BitVec 32 :=
  match f3 with
  | 0 => a * b
  | 1 => rvHigh (a.toInt * b.toInt)
  | 2 => rvHigh (a.toInt * b.toNat)
  | 3 => rvHigh ((a.toNat : Int) * b.toNat)
  | 4 => rvDiv a b
  | 5 => if b = 0 then BitVec.allOnes 32 else a / b
  | 6 => rvRem a b
  | _ => if b = 0 then a else a % b
/-- Whether a branch is taken. -/
def rvTaken (f3 : Nat) (a b : BitVec 32) : Option Bool :=
  match f3 with
  | 0 => some (a == b)
  | 1 => some (a != b)
  | 4 => some (a.toInt < b.toInt)
  | 5 => some (!(a.toInt < b.toInt))
  | 6 => some (a.toNat < b.toNat)
  | 7 => some (!(a.toNat < b.toNat))
  | _ => none
/-- The width and signedness of a load. -/
def loadKind : Nat → Option (MemSize × Bool)
  | 0 => some (.byte, true) | 1 => some (.half, true) | 2 => some (.word, false) | 4 => some (.byte, false) | 5 => some (.half, false) | _ => none
/-- The width of a store. -/
def storeKind : Nat → Option MemSize
  | 0 => some .byte | 1 => some .half | 2 => some .word | _ => none
/-- A load into a register. -/
def rvLoad (z : MemSize) (sg : Bool) (a : BitVec 32) (rd : Nat) : RvOut := .mem { store := false, size := z, signed := sg, addr := a, data := 0, rd := Fin.ofNat 32 rd }
/-- A store of a value. -/
def rvStore (z : MemSize) (a d : BitVec 32) : RvOut := .mem { store := true, size := z, signed := false, addr := a, data := d, rd := 0 }
/-- A 32-bit instruction at `pc`. -/
def rv32 (w : Nat) (pc : BitVec 32) (x : Nat → BitVec 32) : RvOut :=
  let rd := ib w 11 7
  let f3 := ib w 14 12
  let a := x (ib w 19 15)
  let b := x (ib w 24 20)
  let f7 := ib w 31 25
  match ib w 6 0 with
  | 0x37 => .set rd (immU w)
  | 0x17 => .set rd (pc + immU w)
  | 0x6F => .jump rd (pc + 4) (pc + immJ w)
  | 0x67 => if f3 = 0 then .jump rd (pc + 4) ((a + immI w) &&& ~~~1) else .illegal
  | 0x63 => match rvTaken f3 a b with
    | none => .illegal
    | some true => .jump 0 0 (pc + immB w)
    | some false => .skip
  | 0x03 => match loadKind f3 with | none => .illegal | some k => rvLoad k.1 k.2 (a + immI w) rd
  | 0x23 => match storeKind f3 with | none => .illegal | some k => rvStore k (a + immS w) b
  | 0x13 =>
    if f3 = 1 then (if f7 = 0 then .set rd (rvAlu 1 false a (BitVec.ofNat 32 (ib w 24 20))) else .illegal)
    else if f3 = 5 then
      (if f7 = 0 || f7 = 0x20 then .set rd (rvAlu 5 (f7 = 0x20) a (BitVec.ofNat 32 (ib w 24 20))) else .illegal)
    else .set rd (rvAlu f3 false a (immI w))
  | 0x33 =>
    if f7 = 1 then .set rd (rvMul f3 a b)
    else if f7 = 0 then .set rd (rvAlu f3 false a b)
    else if f7 = 0x20 && (f3 = 0 || f3 = 5) then .set rd (rvAlu f3 true a b)
    else .illegal
  | 0x0F => if f3 = 0 then .skip else .illegal
  | _ => .illegal
/-- A 16-bit instruction at `pc`. -/
def rv16 (w : Nat) (pc : BitVec 32) (x : Nat → BitVec 32) : RvOut :=
  let rd := ib w 11 7
  let rs2 := ib w 6 2
  let p := 8 + ib w 9 7
  let q := 8 + ib w 4 2
  let i6 := simm 6 (ib w 12 12 <<< 5 + ib w 6 2)
  let lw := ib w 5 5 <<< 6 + ib w 12 10 <<< 3 + ib w 6 6 <<< 2
  let jOff := simm 12 (ib w 12 12 <<< 11 + ib w 8 8 <<< 10 + ib w 10 9 <<< 8 + ib w 6 6 <<< 7 + ib w 7 7 <<< 6 + ib w 2 2 <<< 5
    + ib w 11 11 <<< 4 + ib w 5 3 <<< 1)
  let bOff := simm 9 (ib w 12 12 <<< 8 + ib w 6 5 <<< 6 + ib w 2 2 <<< 5 + ib w 11 10 <<< 3 + ib w 4 3 <<< 1)
  let f3 := ib w 15 13
  match ib w 1 0, f3 with
  | 0, 0 =>
    let n := ib w 10 7 <<< 6 + ib w 12 11 <<< 4 + ib w 5 5 <<< 3 + ib w 6 6 <<< 2
    if n = 0 then .illegal else .set q (x 2 + BitVec.ofNat 32 n)
  | 0, 2 => rvLoad .word false (x p + BitVec.ofNat 32 lw) q
  | 0, 6 => rvStore .word (x p + BitVec.ofNat 32 lw) (x q)
  | 1, 0 => .set rd (x rd + i6)
  | 1, 1 => .jump 1 (pc + 2) (pc + jOff)
  | 1, 2 => .set rd i6
  | 1, 3 =>
    if rd = 2 then
      let n := simm 10 (ib w 12 12 <<< 9 + ib w 4 3 <<< 7 + ib w 5 5 <<< 6 + ib w 2 2 <<< 5 + ib w 6 6 <<< 4)
      if n = 0 then .illegal else .set 2 (x 2 + n)
    else if i6 = 0 then .illegal else .set rd (i6 <<< 12)
  | 1, 4 =>
    match ib w 11 10 with
    | 0 => if ib w 12 12 = 1 then .illegal else .set p (x p >>> rs2)
    | 1 => if ib w 12 12 = 1 then .illegal else .set p ((x p).sshiftRight rs2)
    | 2 => .set p (x p &&& i6)
    | _ =>
      if ib w 12 12 = 1 then .illegal
      else match ib w 6 5 with
        | 0 => .set p (x p - x q)
        | 1 => .set p (x p ^^^ x q)
        | 2 => .set p (x p ||| x q)
        | _ => .set p (x p &&& x q)
  | 1, 5 => .jump 0 0 (pc + jOff)
  | 1, 6 => if x p = 0 then .jump 0 0 (pc + bOff) else .skip
  | 1, 7 => if x p != 0 then .jump 0 0 (pc + bOff) else .skip
  | 2, 0 => if ib w 12 12 = 1 then .illegal else .set rd (x rd <<< rs2)
  | 2, 2 => if rd = 0 then .illegal else rvLoad .word false (x 2 + BitVec.ofNat 32 (ib w 3 2 <<< 6 + ib w 12 12 <<< 5 + ib w 6 4 <<< 2)) rd
  | 2, 4 =>
    if ib w 12 12 = 0 then (if rs2 = 0 then (if rd = 0 then .illegal else .jump 0 0 (x rd &&& ~~~1)) else .set rd (x rs2))
    else if rs2 = 0 then (if rd = 0 then .illegal else .jump 1 (pc + 2) (x rd &&& ~~~1))
    else .set rd (x rd + x rs2)
  | 2, 6 => rvStore .word (x 2 + BitVec.ofNat 32 (ib w 8 7 <<< 6 + ib w 12 9 <<< 2)) (x rs2)
  | _, _ => .illegal
/-- The bytes of the instruction at the program counter, 2 or 4. -/
def State.rvLen (s : State) (g : Nat) : Nat := if memNat (s.tile g).imem ((s.pc g).toNat - 0x80000000) 1 % 4 = 3 then 4 else 2
/-- One RV32IMC instruction is fetched from IMEM and executed (R220 to R222). -/
def State.seqRv (s : State) (g : Nat) : State :=
  let pc := s.pc g
  let o := pc.toNat - 0x80000000
  let n := s.rvLen g
  if pc.toNat < 0x80000000 || 0x10000 < o + n || pc.toNat % 2 != 0 then s.seqStop g fBOUNDS
  else
    let w := memNat (s.tile g).imem o n
    let s := s.coreErrors g (badIn (s.tile g).imemBad o n)
    match (if n = 4 then rv32 w pc (s.xreg g) else rv16 w pc (s.xreg g)) with
    | .illegal => s.seqStop g fDECODE
    | .set rd v => (s.putX g rd v).seqNext g n
    | .jump rd link t => (s.putX g rd link).seqJump g t
    | .mem a => s.seqAccess g a n
    | .skip => s.seqNext g n

/-! Commands that the sequencer enqueues (R224 to R230, R251 to R256). -/

/-- An entry is enqueued where its queue has room, and the queue's head acts; without room the sequencer stalls (R227). -/
def State.enqueue (s : State) (g q : Nat) (i : QItem) (len : Nat) : State :=
  if s.queueRoom g q then ((s.putQueue g q (s.queue g q ++ [i])).drain g q).seqNext g len else s.stall g 1
/-- An entry of the issue stage that is no engine command. -/
def State.plainItem (s : State) (g : Nat) (b : QBody) : QItem := { stage := (s.tile g).issue, pred := false, body := b }
/-- A bank enters PENDING (R84, R85). -/
def State.enterPending (s : State) (g : Nat) (h : PendHo) : State :=
  let r := Reg.BANK_OWN g h.bank
  (s.modTile g (fun t => { t with pend := t.pend ++ [h] })).setReg r (BANK_OWN.PEND.set (BANK_OWN.PEND_TO.set (s.reg r) h.towards.toNat) 1)
/-- HANDOVER and SCAN (R84 to R90, R100 to R102, R251 to R253): `to` is SCANNER for a SCAN. A SCAN from SEQ holds the sequencer while another
scan of the tile runs (R104, log entry 82). -/
def State.seqHandover (s : State) (g bank : Nat) (frm towards : Agent) (tally : TallyIx) (e : BitVec 32) (common scan : Bool) (len : Nat) : State :=
  if common then (s.seqRefuse g fDECODE).seqNext g len
  else match s.hoRefusal g bank frm.toNat towards.toNat scan with
    | some c => ((s.seqRefuse g c).raiseTally g tally 1).seqNext g len
    | none =>
      let h : PendHo := { bank := bank, frm := frm, towards := towards, tally := tally, e := e, scan := scan, stage := (s.tile g).issue }
      if frm = towards then (s.raiseTally g tally 1).seqNext g len
      else if frm = 0 && !s.scannerFree g h then s.stall g 5
      else if frm = 0 then ((s.pendEffect g h).drainLanding g).seqNext g len
      else if frm = 7 then (((s.enterPending g h).remoteEffects g bank).drainLanding g).seqNext g len
      else if !s.queueRoom g frm.toNat then s.stall g 1
      else (s.enterPending g h).enqueue g frm.toNat (s.plainItem g (if scan then .scan bank else .handover bank)) len
/-- SIGNAL (R254). -/
def State.seqSignal (s : State) (g : Nat) (o : SignalOps) (common : Bool) : State :=
  if common || 7 ≤ o.agent.toNat then (s.seqRefuse g fDECODE).seqNext g o.len.toNat
  else if o.agent = 0 then (s.raiseTally g o.tally o.amount.toNat).seqNext g o.len.toNat
  else s.enqueue g o.agent.toNat (s.plainItem g (.signal o.tally o.amount)) o.len.toNat
/-- The tile channels. -/
def tileChans (g : Nat) : List ChanId := (List.range 4).map (fun c => .tile (Fin.ofNat 512 g) (Fin.ofNat 4 c))
/-- A FENCE of the sequencer completes where it can (R256, R301, R302): every descriptor command has ended, and every channel's DONE has
reached its captured ISSUED. -/
def State.seqFence (s : State) (g : Nat) (tally : TallyIx) (captured : Option (List (BitVec 32))) : State :=
  let busy := [3, 4, 5, 6].any (fun q => (s.queue g q).any (fun i => match i.body with | .eng _ _ => true | _ => false))
  let wait (c : Option (List (BitVec 32))) : State :=
    (s.modTile g (fun t => { t with seqWait := some { what := .fence tally c, waitB := match t.seqWait with | some w => w.waitB | none => 0 } })).stall g 3
  if captured.isNone && busy then wait none
  else
    let c := captured.getD ((tileChans g).map (fun i => (s.chan i).issued))
    if (List.zip (tileChans g) c).all (fun e => reached (s.chan e.1).done.toNat e.2.toNat) then
      let bad := (tileChans g).zipIdx.flatMap (fun i => (s.chan i.1).nacks.map (fun n => (i.2 + 3, n.2)))
      let s := (tileChans g).foldl (fun s i => s.modChan i (fun k => { k with nacks := [] })) s
      let s := bad.foldl (fun s b => s.raiseTile g b.1 b.2.toNat (some s.stage)) s
      ((s.modTile g (fun t => { t with seqWait := none })).waitSteps g).raiseTally g tally 1
    else wait (some c)
/-- FENCE (R256). -/
def State.seqFenceCmd (s : State) (g : Nat) (agent : Agent) (tally : TallyIx) (common : Bool) (len : Nat) : State :=
  if common then (s.seqRefuse g fDECODE).seqNext g len
  else if agent = 0 then (s.seqNext g len).seqFence g tally none
  else if 3 ≤ agent.toNat && agent.toNat ≤ 6 then s.enqueue g agent.toNat (s.plainItem g (.fence tally)) len
  else (s.seqRefuse g fDECODE).seqNext g len
/-- WAIT (R230, R255). -/
def State.seqWaitCmd (s : State) (g : Nat) (tally : TallyIx) (v : BitVec 32) (len : Nat) (common : Bool) : State :=
  if common then (s.seqRefuse g fDECODE).seqNext g len
  else if s.tallyReached g tally v.toNat then s.seqNext g len
  else ((s.seqNext g len).modTile g (fun t => { t with seqWait := some { what := .tally tally v } })).stall g 2
/-- The sequencer's WAIT ends when its tally has reached the value (R255). -/
def State.seqRelease (s : State) (g : Nat) : State :=
  match (s.tile g).seqWait with
  | some w => match w.what with
    | .tally t v => if s.tallyReached g t v.toNat then (s.modTile g (fun t => { t with seqWait := none })).waitSteps g else s
    | _ => s
  | none => s
/-- A FENCE of an agent completes (R301). -/
def State.fenceEnd (s : State) (g : Nat) (agent : Agent) : State :=
  if agent = 0 then
    match (s.tile g).seqWait with
    | some w => match w.what with
      | .fence t c => s.seqFence g t c
      | _ => s
    | none => s
  else
    let q := agent.toNat
    match s.queue g q with
    | [] => s
    | i :: r => match i.body with
      | .fence t => if i.phase = .running && s.doneReached g q i.captured.toNat then ((s.putQueue g q r).fenceDone g q t).drain g q else s
      | _ => s
/-- STAGE_END (R224, R226, R230): it stalls while the issue stage is 4 or more above the work stage. -/
def State.seqStageEnd (s : State) (g len : Nat) (common : Bool) : State :=
  if common then (s.seqRefuse g fDECODE).seqNext g len
  else if 4 ≤ s.aheadOf g then s.stall g 4
  else ((s.modTile g (fun t => { t with issue := t.issue + 1 })).refreshAhead g).seqNext g len
/-- One step of a sequencer that can execute. -/
def seqStep (s : State) (g : Gt) (f : State → State) : Res := live s (fun s => if s.seqReady g then f s else s)

/-- SEQ_INSTRUCTION (R221, R222, R257): an RV32IMC instruction, or a command of the tile stream by its name. -/
def State.seqInstruction (s : State) (g : Nat) (f : SeqForm) : State :=
  match f with
  | .rv ups => (ups.foldl (fun s u => s.coreUpset g u) s).seqRv g
  | .engine h c len => s.enqueue g (engQueue c) (s.engItem g h c) len.toNat
  | .signal o common => s.seqSignal g o common
  | .fence a t common len => s.seqFenceCmd g a t common len.toNat
  | .undefinedName => ((s.waitSteps g).seqRefuse g fDECODE).fset (.SEQ_STATUS g) SEQ_STATUS.STATE 2

/-- HANDOVER -/
def execHandover (g : Gt) (h : HandoverOps) (s : State) : Res :=
  seqStep s g (fun s => s.seqHandover g h.bank.toNat h.frm h.towards h.tally h.e h.common false h.len.toNat)
/-- SCAN -/
def execScanOp (g : Gt) (h : ScanOps) (s : State) : Res :=
  seqStep s g (fun s => s.seqHandover g h.bank.toNat h.frm 8 h.tally h.e h.common true h.len.toNat)
/-- SEQ_INSTRUCTION -/
def execSeqInstruction (g : Gt) (f : SeqForm) (s : State) : Res := seqStep s g (·.seqInstruction g f)
/-- SEQ_BANK_LOAD_STORE -/
def execSeqBankLoadStore (g : Gt) (a : SeqMemOp) (s : State) : Res := seqStep s g (fun s => s.seqAccess g a (s.rvLen g))
/-- TILE_PREDICATE_STORE -/
def execTilePredicateStore (g : Gt) (hiWord : Bool) (v : BitVec 32) (s : State) : Res :=
  seqStep s g (fun s => (s.setReg (.PRED g) (BitVec.ofNat 64 (spliceWord (s.reg (.PRED g)).toNat (4 * b2n hiWord) 4 v.toNat))).seqNext g (s.rvLen g))
/-- LOOP_COUNT_STORE -/
def execLoopCountStore (g : Gt) (l : LoopLvl) (v : BitVec 32) (s : State) : Res :=
  seqStep s g (fun s => (s.putLc g l v.toNat).seqNext g (s.rvLen g))
/-- STAGE_END -/
def execStageEnd (g : Gt) (len : CmdLen) (common : Bool) (s : State) : Res := seqStep s g (·.seqStageEnd g len.toNat common)
/-- LOOP -/
def execOpenLoop (g : Gt) (o : LoopOps) (s : State) : Res := seqStep s g (·.seqLoop g o)
/-- ENDLOOP -/
def execEndLoop (g : Gt) (len : CmdLen) (common : Bool) (s : State) : Res := seqStep s g (·.seqEndLoop g len.toNat common)
/-- BREAK -/
def execBreakLoop (g : Gt) (len : CmdLen) (common : Bool) (s : State) : Res := seqStep s g (·.seqBreak g len.toNat common)
/-- SIGNAL -/
def execSignalOp (g : Gt) (o : SignalOps) (s : State) : Res := seqStep s g (·.seqSignal g o false)
/-- WAIT -/
def execWaitOp (g : Gt) (tally : TallyIx) (v : BitVec 32) (len : CmdLen) (common : Bool) (s : State) : Res :=
  seqStep s g (·.seqWaitCmd g tally v len.toNat common)
/-- WAIT_RELEASE -/
def execWaitRelease (g : Gt) (s : State) : Res := live s (fun s => if s.tilePresent g then s.seqRelease g else s)
/-- FENCE -/
def execFenceOp (g : Gt) (agent : Agent) (tally : TallyIx) (len : CmdLen) (s : State) : Res :=
  seqStep s g (·.seqFenceCmd g agent tally false len.toNat)
/-- FENCE_COMPLETE -/
def execFenceComplete (g : Gt) (agent : Agent) (s : State) : Res := live s (fun s => if s.tilePresent g then s.fenceEnd g agent else s)
/-- TALLY_WRITE (R261): only while the tile's partition is halted or has no plan loaded; otherwise discarded with TALLY_REJ. -/
def State.tallyWrite (s : State) (g t : Nat) (a : Acc) : State :=
  s.owned a.by_ (fun s =>
    if !s.tilePresent g then s
    else if s.tileIdle g then s.plainWrite (.TALLY g t) a
    else s.fset (.SEQ_STATUS g) SEQ_STATUS.TALLY_REJ 1)
/-- TALLY_WRITE -/
def execTallyWrite (g : Gt) (t : TallyIx) (a : Acc) (s : State) : Res := live s (·.tallyWrite g t a)

end Sys2Proof.Machine
end

