-- ==== Sys2Proof/Machine/Partition.lean ====
section
/-! DEFINITION. Partitions (spec/18_faults.md R521 to R526, R530, R531, spec/16_boot_image.md R494): what a halt releases and what it
holds, the values with which a partition starts, and the device stop. -/

namespace Sys2Proof.Machine

/-! The halt (R259, R280, R521). -/

/-- Ends the engine commands in progress of a queue, one after another (R521). -/
def State.endRunning (s : State) (g q : Nat) : Nat → State
  | 0 => s
  | n + 1 => (s.endEntry g q 0).endRunning g q n
/-- The engine commands in progress of a queue. -/
def runningOnly (l : List QItem) : List QItem :=
  l.filter (fun i => i.phase = .running && match i.body with | .eng _ _ => true | _ => false)
/-- A queue loses every entry that has not begun (R259). -/
def State.cutQueue (s : State) (g q : Nat) : State :=
  if (s.queue g q).isEmpty then s else s.putQueue g q (runningOnly (s.queue g q))
/-- A bank that is PENDING returns to its old owner (R521). -/
def State.revertBank (s : State) (g k : Nat) : State :=
  (s.fset (.BANK_OWN g k) BANK_OWN.PEND 0).fset (.BANK_OWN g k) BANK_OWN.PEND_TO 0
/-- A tile halts (R259, R280, R521): MXE and VEC commands in progress end, a channel keeps the descriptor that it runs, every queue
empties, loops close, the sequencer stops, and PENDING banks return, where accesses that waited meet their old owners (R87). -/
def State.haltTile (s : State) (g : Nat) : State :=
  let s := [1, 2, 3, 4, 5, 6].foldl (fun s q => s.cutQueue g q) s
  let s := [1, 2].foldl (fun s q => s.endRunning g q (s.queue g q).length) s
  let s := (List.range (s.loopDepth g)).foldl (fun s _ => s.closeLoop g) s
  let pend := (s.tile g).pend
  let s := pend.foldl (fun s h => (s.revertBank g h.bank).heldProceed g h.bank) (s.modTile g (fun t => { t with pend := [], seqWait := none }))
  let s := if s.fget (.SEQ_STATUS g) SEQ_STATUS.STATE = 0 then s
    else (s.fset (.SEQ_STATUS g) SEQ_STATUS.STATE 3).fset (.SEQ_STATUS g) SEQ_STATUS.WAIT_CAUSE 0
  s.drainLanding g
/-- Tile completion records whose stages have not committed by the halt are discarded (R523). -/
def State.dropRecords (s : State) (g : Nat) : State :=
  s.modTile g (fun t => { t with chans := t.chans.map (fun e => (e.1, { e.2 with due := [] })) })
/-- Parcels of a partition that have not entered a frame are discarded on a port (R521). -/
def State.dropParcels (s : State) (p part : Nat) : State :=
  let mine (q : TxParcel) : Bool := q.part = some part
  if (s.port p).txPlan.any mine || (s.port p).txLate.any mine then
    (s.modPort p (fun t => { t with txPlan := t.txPlan.filter (fun q => !mine q), txLate := t.txLate.filter (fun q => !mine q) })).refreshCatchup p
  else s
/-- Whether a plan gives a port a slot pattern (R319). -/
def Plan.hasSlots (pl : Plan) (p : Nat) : Bool := match pl.slots[p]? with | none => false | some t => 0 < t.plen
/-- A port runs the default pattern (R318, R319). -/
def State.defaultPattern (s : State) (p : Nat) : State :=
  (s.setPattern p defPat.1 defPat.2.1 defPat.2.2).modPort p (fun t => { t with patFrom := none })
/-- The ports of a plan return to the default pattern (R319, R521). -/
def State.freePorts (s : State) (pl : Plan) : State :=
  ((List.range 16).filter pl.hasSlots).foldl (fun s p => s.defaultPattern p) s
/-- The rate regions of a partition. -/
def State.partRgns (s : State) (p : Nat) : List Nat := (List.range 64).filter (fun n => s.partOfRgn n = some p)
/-- A region's work ends with its partition's, and with it an overstay episode in progress. -/
def State.idleRgn (s : State) (n : Nat) : State :=
  ((s.modRgn n (fun r => { r with finished := true, s0 := none })).fset (.RGN_LATE n) RGN_LATE.LATE_NS 0).fset (.RGN_LATE n) RGN_LATE.STAGES 0
/-- A partition halts (R521). -/
def State.haltPart (s : State) (p : Nat) : State :=
  let gs := (s.partTiles p).filter (fun g => s.tilePresent g)
  let s := gs.foldl (fun s g => (s.haltTile g).dropRecords g) s
  let s := (List.range 16).foldl (fun s q => s.dropParcels q p) s
  let s := match (s.part p).plan with | none => s | some pl => s.freePorts pl
  let s := (s.partRgns p).foldl (fun s n => s.idleRgn n) s
  let s := if (s.part p).fstage.isSome then s.fset (.PART_FLT p) PART_FLT.VALID 1 else s
  let s := s.modPart p (fun q => { q with haltAt := none })
  (s.setPstate p pHALTED).refreshFaultN
/-- The partitions whose halt boundary this is halt (R521). -/
def State.haltBoundary (s : State) : State :=
  (List.range 8).foldl (fun s p =>
    match (s.part p).haltAt with
    | some a => if a ≤ s.stage && s.pstate p = pRUNNING then s.haltPart p else s
    | none => s) s

/-! The start (R494, R530, R531). -/

/-- Registers in a range of a tile's window return to their reset values. -/
def State.clearWindow (s : State) (g lo hi : Nat) : State :=
  { s with regs := tdropRange s.regs (0x2000000 + g * 0x4000 + lo) (hi - lo) }
/-- The tile stream that a plan gives a tile. -/
def State.streamOf (s : State) (pl : Plan) (g : Nat) : Option Stream :=
  match s.ltOfGt g with | none => none | some lt => pl.streams.find? (fun t => t.lt = lt)
/-- A tile at the start of a plan (R174, R223, R224, R234, R235, R237, R246, R290, R407, R531): the memories of its stream, the starting
plan stage at DMEM 0x4000_FFF8, and every counter and flag at its first value. A channel keeps a descriptor in progress, which runs to its
end (R280, log entry 90). TALLY_LIMIT 0 in the manifest selects 64 (R240). -/
def State.initTile (s : State) (pl : Plan) (start c g : Nat) : State :=
  let st := s.streamOf pl g
  let s := ((s.clearWindow g 0x40 0x60).clearWindow g 0x100 0x308).clearWindow g 0x400 0x800
  let s := s.modTile g (fun t => { t with
    x := [], imem := memWrite [] 0 ((st.map (·.imem)).getD [])
    dmem := memWrite (memWrite [] 0 ((st.map (·.dmem)).getD [])) 0xFFF8 (toLe 8 c)
    imemBad := [], dmemBad := [], issue := start, loops := [], keys := [], rounds := []
    queues := (t.queues.map (fun e => (e.1, if 3 ≤ e.1 then runningOnly e.2 else []))).filter (fun e => !e.2.isEmpty)
    seqWait := none, pend := [], acc := [], accBad := []
    chans := t.chans.map (fun e => (e.1, { e.2 with seq := 0, nacks := [], due := [] })) })
  let s := [1, 2, 3, 4, 5, 6].foldl (fun s q => s.refreshEngine g q) s
  let s := s.setReg (.SEQ_PC g) 0x80000000
  let w := s.reg (.SEQ_STATUS g)
  let w := SEQ_STATUS.WORK_STAGE.set (SEQ_STATUS.WAIT_CAUSE.set (SEQ_STATUS.LOOP_DEPTH.set w 0) 0) ((start + 2 ^ 32 - 1) % 2 ^ 32)
  let s := s.setReg (.SEQ_STATUS g) (SEQ_STATUS.STATE.set w (if st.isSome then 1 else 0))
  (s.fset (.TALLY_LIMIT g) TALLY_LIMIT.LIMIT (if pl.tallyLimit = 0 then 64 else pl.tallyLimit)).refreshAhead g
/-- A region at the start of a plan. -/
def State.initRgn (s : State) (start n : Nat) : State :=
  (s.modRgn n (fun r => { r with
    next := start, finished := true, s0 := none, flagRaised := false, abortRaised := false
    overRaised := false })).setReg (.RGN_LATE n) 0
/-- A partition's machine state takes the values of a start at a stage, with plan stage `c` (R494, R530, R531). -/
def State.initPart (s : State) (p : Nat) (pl : Plan) (start c : Nat) : State :=
  let gs := (s.partTiles p).filter (fun g => s.tilePresent g)
  let s := gs.foldl (fun s g => s.initTile pl start c g) s
  let s := (s.partRgns p).foldl (fun s n => s.initRgn start n) s
  let s := ((List.range 16).filter pl.hasSlots).foldl (fun s q => s.modPort q (fun t => { t with patFrom := some p })) s
  let s := s.fset (.PART_FLT p) PART_FLT.VALID 0
  let s := s.modPart p (fun q => { q with start := start, shift := (start : Int) - c, haltAt := none, fstage := none, unloading := false })
  (s.setPstate p pLOADED).refreshFaultN
/-- The ports that a plan has claimed take its pattern at the first stage boundary (R319, R494). -/
def State.takePatterns (s : State) : State :=
  (List.range 16).foldl (fun s p =>
    match (s.port p).patFrom with
    | none => s
    | some q =>
      let s := s.modPort p (fun t => { t with patFrom := none })
      match (s.part q).plan.bind (fun pl => pl.slots[p]?) with
      | some t => (s.setPattern p t.plen t.p0 t.p1).fset (.VBL_LAT p) VBL_LAT.PLAN_NS t.planNs
      | none => s) s
/-- A LOADED partition becomes RUNNING at the start boundary of its first stage (R494, R530). -/
def State.startParts (s : State) : State :=
  (List.range 8).foldl (fun s p => if s.pstate p = pLOADED && (s.part p).start ≤ s.stage then s.setPstate p pRUNNING else s) s

/-! The device stop (R526). -/

/-- Every link breaks, and every port is DOWN whatever its ENABLE (R526). -/
def State.stopPort (s : State) (code p : Nat) : State :=
  if !s.portPresent p then s
  else if s.lstate p = lUP then s.breakLink p code
  else (s.clearLink p).fset (.VBL_STATUS p) VBL_STATUS.STATE lDOWN
/-- A fault of class DEVICE_STOP is raised (R515, R520, R526): the module stops, links break, every RUNNING partition halts at the next
boundary, and the I/O-die channels stop. A later one is only logged. -/
def State.deviceStop (s : State) (r : Raise) : State :=
  let entry := (s.reg .FLT_LOG_IDX).toNat % 256
  let s := s.raise { r with cls := cSTOP }
  if s.stopped then s
  else
    let s := (s.fset .FLT_STATUS FLT_STATUS.STOPPED 1).fset .FLT_STATUS FLT_STATUS.STOP_CODE r.code
    let s := (List.range 16).foldl (fun s p => s.stopPort r.code p) s
    let s := allParts.foldl (fun s p => s.abortPart r.code cSTOP entry s.stage p) s
    let s := (List.range 128).foldl (fun s c =>
      if s.flag (.IDMA_CTRL (c / 32) (c % 32)) IDMA_CTRL.RUN then s.fset (.IDMA_CTRL (c / 32) (c % 32)) IDMA_CTRL.RUN 0 else s) s
    s.refreshFaultN

end Sys2Proof.Machine
end

