-- ==== Sys2Proof/Machine/Lockstep.lean ====
section
/-! DEFINITION. Lock-step mode (spec/18_faults.md R534 to R538): the summary of a stage, its comparison with the partner's, and what a
mismatch or a timeout raises. -/

namespace Sys2Proof.Machine

/-- The signatures of a stage in logical tile order and in the order of the agents SEQ, MXE, VEC and DMA0 to DMA3 (R536). -/
def State.sigList (s : State) (stage : Nat) : List Word :=
  let t := tget [] s.lock.sigs stage
  (List.range s.img.tileMap.length).flatMap (fun lt => (List.range 7).map (fun a => tget 0 t (lt * 16 + a)))
/-- The summary of a stage (R536). -/
def State.summary (s : State) (stage : Nat) : Word := (s.sigList stage).foldl (fun c w => crc64 c (toLe 8 w.toNat)) 0
/-- The partner's module number: the least one that the destination table sends through P15 (log entry 28). -/
def State.partnerModule (s : State) : Nat :=
  ((List.range 65536).find? (fun m =>
    s.flag (.ROUTE_DEST m) ROUTE_DEST.VALID && s.fget (.ROUTE_DEST m) ROUTE_DEST.KIND = 0 && s.fget (.ROUTE_DEST m) ROUTE_DEST.PORT = 15)).getD 0
/-- A management packet to the partner on P15 (R536, R537; its MODULE and its payload are the model's, log entry 28). -/
def State.toPartner (s : State) (payload : Bytes) : State :=
  s.enqueuePkt 15 15 .service
    (pktBytes { hdr := s.hdr oMGMT (s.partnerModule * 2 ^ 48 + 2 ^ 46 + 4) payload.length, payload := payload })
/-- LOCKSTEP is raised for a stage, once: 2 a mismatch, 3 a timeout (R537, LS_STATUS). -/
def State.lockFail (s : State) (stage how : Nat) : State :=
  let s := { s with lock := { s.lock with failed := some stage, first := none, own := s.lock.own.filter (·.1 != stage) } }
  let s := (s.fset .LS_STATUS LS_STATUS.STATE how).fset .LS_STATUS LS_STATUS.LOCKSTEP 1
  (s.fset .LS_STATUS LS_STATUS.STAGE stage).raise { code := fLOCKSTEP, fstage := some stage, parts := allParts }
/-- A stage's summaries are compared once both stand (R537): a match is counted, and a mismatch raises LOCKSTEP and sends the
signatures. -/
def State.lockCompare (s : State) (stage : Nat) : State :=
  match s.lock.own.find? (·.1 = stage), s.lock.partner.find? (·.1 = stage) with
  | some a, some b =>
    if s.lock.matched.contains stage || s.lock.failed = some stage then s
    else if a.2 = b.2 then
      ({ s with lock := { s.lock with matched := s.lock.matched ++ [stage] } }).fadd .LS_FIRST LS_FIRST.MATCHED 1
    else
      let s := s.lockFail stage 2
      (chunksOf 4080 64 ((s.sigList stage).flatMap (fun w => toLe 8 w.toNat))).zipIdx.foldl (fun s e =>
        s.toPartner (toLe 8 stage ++ toLe 8 (e.2 * 510) ++ e.1)) s
  | _, _ => s
/-- STATE shows whether lock-step mode runs; a mismatch or a timeout stands until the mode ends (LS_STATUS). -/
def State.lockState (s : State) : State :=
  if !s.lockOn then s.fset .LS_STATUS LS_STATUS.STATE 0
  else if s.fget .LS_STATUS LS_STATUS.STATE = 0 then s.fset .LS_STATUS LS_STATUS.STATE 1 else s
/-- The end boundary of a stage (R536): its summary is formed and sent, and the signatures of the last 16 stages are kept. -/
def State.lockBoundary (s : State) (stage : Nat) : State :=
  let s := s.lockState
  if !s.lockOn then s
  else
    let v := s.summary stage
    let keep (k n : Nat) : Bool := stage < k + n
    let s := { s with lock := { s.lock with
      own := (s.lock.own ++ [(stage, v)]).filter (fun e => keep e.1 16)
      sigs := s.lock.sigs.filter (fun e => keep e.1 16), partner := s.lock.partner.filter (fun e => keep e.1 16)
      matched := s.lock.matched.filter (fun e => keep e 64) } }
    (s.toPartner (toLe 8 stage ++ toLe 8 v.toNat)).lockCompare stage
/-- A summary of the partner (R537). A first summary of a stage stands. -/
def State.lockSummary (s : State) (stage : Nat) (sum : Word) : State :=
  if !s.lockOn || s.lock.partner.any (·.1 = stage) then s
  else ({ s with lock := { s.lock with partner := s.lock.partner ++ [(stage, sum)] } }).lockCompare stage
/-- Signatures of the partner for a stage, from the one numbered `i` on (R537): the first logical tile and agent whose signatures differ. -/
def State.lockSigs (s : State) (stage i : Nat) (l : List Word) : State :=
  if s.lock.failed != some stage then s
  else
    let own := s.sigList stage
    match (List.range l.length).find? (fun k => i + k < own.length && own.getD (i + k) 0 != l.getD k 0) with
    | none => s
    | some k =>
      let n := i + k
      if s.lock.first.any (· ≤ n) then s
      else
        let s := { s with lock := { s.lock with first := some n } }
        (s.fset .LS_FIRST LS_FIRST.LT (n / 7)).fset .LS_FIRST LS_FIRST.AGENT (n % 7)
/-- A management packet with OFFSET 4 from the partner, which is at P15 (R534, R536, R537, R542): 16 bytes are a summary, more are signatures
(log entry 28). -/
def State.fromPartner (s : State) (p : Port) (k : Packet) (sigs : Bool) : State :=
  let b := k.payload
  let word (i : Nat) : Word := BitVec.ofNat 64 (leAt b (8 * i) 8)
  if sigs != (16 < b.length) || b.length < 16 then s
  else s.mgmtIn p k 4 (fun s =>
    if p.val != 15 then s
    else if sigs then s.lockSigs (word 0).toNat (word 1).toNat ((List.range ((b.length - 16) / 8)).map (fun i => word (2 + i)))
    else s.lockSummary (word 0).toNat (word 1))
/-- LOCKSTEP_TIMEOUT (R537): the end boundary of the stage and of WINDOW stages after it has passed without the partner's summary. -/
def State.lockTimeout (s : State) (stage : Nat) : State :=
  if s.lockOn && s.lock.own.any (·.1 = stage) && !s.lock.partner.any (·.1 = stage) && s.lock.failed != some stage
      && stage + s.fget .LS_CTRL LS_CTRL.WINDOW + 1 ≤ s.stage then s.lockFail stage 3
  else s
/-- A write of `LS_CTRL`: ENABLE holds while a partition is RUNNING, and a WINDOW outside 1 to 8 is discarded. -/
def State.lsCtrlWrite (s : State) (a : Acc) : State :=
  s.owned a.by_ (fun s =>
    let old := s.reg .LS_CTRL
    let v := Reg.LS_CTRL.info.write old a
    let v := if allParts.any (fun p => s.pstate p = pRUNNING) then LS_CTRL.ENABLE.set v (LS_CTRL.ENABLE.get old) else v
    let w := LS_CTRL.WINDOW.get v
    let v := if w = 0 || 8 < w then LS_CTRL.WINDOW.set v (LS_CTRL.WINDOW.get old) else v
    (s.setReg .LS_CTRL v).lockState)

/-- LOCKSTEP_SUMMARY -/
def execLockstepSummary (p : Port) (k : Packet) (s : State) : Res := live s (·.fromPartner p k false)
/-- LOCKSTEP_SIGNATURES -/
def execLockstepSignatures (p : Port) (k : Packet) (s : State) : Res := live s (·.fromPartner p k true)
/-- LOCKSTEP_TIMEOUT -/
def execLockstepTimeout (stage : Word) (s : State) : Res := live s (·.lockTimeout stage.toNat)

end Sys2Proof.Machine
end

