-- ==== Sys2Proof/Machine/Time.lean ====
section
/-! DEFINITION. Fabric time (spec/12_fabric_time.md R367 to R387) with holdover (spec/02_stages.md R70 to R72): the inputs and their
loss, the two-way exchange and its samples, the servo, and the writes that steer. Of commands that meet in one step of the time unit the
one that R379 lets apply first comes first (log entry 97). -/

namespace Sys2Proof.Machine

/-! Ages (R373, R377, R382). -/

/-- A moment within the stage in progress, which no operand gives (log entry 31). -/
def State.someNow (s : State) : Nat × State := let s := s.passSome; (s.time.ns.toNat, s)
/-- µs on the time base. -/
def usUnits (n : Nat) : Nat := n * 1000 * 2 ^ 32
/-- Whether more than `us` µs have passed since a moment. -/
def State.older (s : State) (at_ : Option Nat) (us : Nat) : Bool := match at_ with | none => false | some b => usUnits us < s.time.base - b

/-! Holdover (R70 to R72, R381, R382). -/

/-- Whether the sync input is watched (R382). -/
def State.syncWatched (s : State) : Bool := s.flag .FT_CTRL FT_CTRL.CLIENT_EN && s.flag .FT_STATUS FT_STATUS.TIME_SET
/-- Whether a holdover is in progress. -/
def State.holdover (s : State) : Bool := s.flag .STG_STATUS STG_STATUS.HOLDOVER
/-- Holdover begins, only while TIME_SET is 1 (R70, R382). -/
def State.enterHoldover (s : State) : State :=
  if s.holdover || !s.flag .FT_STATUS FT_STATUS.TIME_SET then s
  else
    let s := { s with time := { s.time with holdFrom := some s.time.base, refLost := false } }
    (s.fset .STG_STATUS STG_STATUS.HOLDOVER 1).fset .STG_STATUS STG_STATUS.HOLD_US 0
/-- Holdover ends, and HOLD_US keeps its length (R71, R382). -/
def State.endHoldover (s : State) : State :=
  if !s.holdover then s
  else
    let s := s.holdUs
    ({ s with time := { s.time with holdFrom := none } }).fset .STG_STATUS STG_STATUS.HOLDOVER 0
/-- Holdover ends where no lost input keeps it and no sample is needed (R381, R382). -/
def State.holdoverCheck (s : State) : State :=
  if !s.flag .FT_STATUS FT_STATUS.TIME_SET then s.endHoldover
  else if s.flag .STG_STATUS STG_STATUS.FREF_OK && !s.syncWatched then s.endHoldover else s
/-- FREF_LOSS (R70, R368, R382). -/
def State.frefLoss (s : State) : State := (s.passSome.fset .STG_STATUS STG_STATUS.FREF_OK 0).enterHoldover
/-- FREF_RETURN (R71, R381, R382). -/
def State.frefReturn (s : State) : State := (s.passSome.fset .STG_STATUS STG_STATUS.FREF_OK 1).holdoverCheck
/-- SYNC_TIMEOUT (R373, R382): SYNC_OK falls when the last accepted sample is older than SYNC_TO_US, and a watched sync input is lost when
what counts as a sample is. -/
def State.syncTimeout (s : State) : State :=
  let us := s.fget .FT_LIMITS FT_LIMITS.SYNC_TO_US
  let s := if s.older s.time.sampleAt us then s.fset .STG_STATUS STG_STATUS.SYNC_OK 0 else s
  if s.syncWatched && s.older s.time.countAt us then s.enterHoldover else s
/-- HOLDOVER_LIMIT_EXPIRE (R72): REF_LOSS, once for a holdover that has lasted HOLD_LIMIT. The spec does not say what holds while the inputs
stay lost after that: HOLDOVER stays 1, HOLD_US stays at the limit and the rate stays frozen until the inputs return, and holdover then ends
as it does within the limit (DESIGN CHOICE, log entry 96). -/
def State.holdExpire (s : State) : State :=
  match s.time.holdFrom with
  | none => s
  | some b =>
    if !s.holdover || s.time.refLost || s.time.base - b < usUnits (s.fget .HOLD_LIMIT HOLD_LIMIT.LIMIT_US) then s
    else
      let s := s.holdUs
      let s := { s with time := { s.time with refLost := true } }
      (s.fset .STG_STATUS STG_STATUS.REF_LOSS 1).raise { code := fREF_LOSS, parts := allParts }

/-! Time packets (R369 to R373). -/

/-- `n` bytes at an offset as a number, the first one highest, as IEEE 1588 has them. -/
def beAt (b : Bytes) (off n : Nat) : Nat := (slice b off n).foldl (fun a x => a * 256 + x.toNat) 0
/-- A PTP timestamp: 48 bits of seconds and 32 of nanoseconds. -/
def ptpTime (b : Bytes) (off : Nat) : Ts := ((beAt b off 6 * 1000000000 + beAt b (off + 6) 4) * 65536 : Nat)
/-- The length of a message of IEEE 1588-2019 with its header and body, by messageType. -/
def ptpLen (kind : Nat) : Nat := if kind = 9 || kind = 2 || kind = 3 || kind = 10 then 54 else if kind = 11 then 64 else if kind = 13 then 48 else 44
/-- What a PTP message says (R369; the layout of IEEE 1588-2019 is PRESUMED, log entry 98). -/
def ptpOf (b : Bytes) : Option PtpMsg :=
  let kind := leAt b 0 1 % 16
  if b.length < 34 then none
  else some
    { kind := kind, srcClock := BitVec.ofNat 64 (beAt b 20 8), srcPort := BitVec.ofNat 16 (beAt b 28 2), domain := BitVec.ofNat 8 (leAt b 4 1)
      seqId := BitVec.ofNat 16 (beAt b 30 2), correction := toInt 64 (beAt b 8 8), time := ptpTime b 34
      twoStep := bit (leAt b 6 1) 1, hasTlv := ptpLen kind < b.length }
/-- The GA of a time packet (R370). -/
def timeGa : Nat := 2 ^ 46 + 1
/-- Whether a packet is a time packet (R370). -/
def isTime (k : Packet) : Bool :=
  let h := k.hdr
  h.opc.toNat = oMGMT && h.ga.toNat = timeGa && h.seq = 0 && h.issuer = 0 && h.flags = 0 && h.land_ = 0 && k.payload.length ≤ 224
    && h.length.toNat = k.payload.length
/-- Whether the time client runs the exchange on a port. -/
def State.clientOn (s : State) (p : Nat) : Bool :=
  s.flag .FT_CTRL FT_CTRL.CLIENT_EN && s.stewardUp && s.lstate p = lUP && s.timePort = p
/-- Whether a message counts for the exchange (R369, R373): the master's identity and domain, and no TLVs. -/
def State.fromMaster (s : State) (m : PtpMsg) : Bool :=
  m.srcClock = s.reg .FT_MASTER && m.srcPort.toNat = (s.reg .FT_MASTER_PORT).toNat && m.domain.toNat = s.fget .FT_CTRL FT_CTRL.DOMAIN
    && !m.hasTlv
/-- A time packet with a message of some kinds arrives: the time unit takes it off the port, whatever SELF_VALID (R340, R370), it is
counted, and a message of the master reaches the client. -/
def State.timeIn (s : State) (p : Port) (k : Packet) (kinds : List Nat) (f : PtpMsg → State → State) : State :=
  if !isTime k || s.lstate p != lUP then s
  else match ptpOf k.payload with
    | none => (s.takeInbound p (pktBytes k)).fadd (.TS_COUNT p) TS_COUNT.RX 1
    | some m =>
      if !kinds.contains m.kind then s
      else
        let s := (s.takeInbound p (pktBytes k)).fadd (.TS_COUNT p) TS_COUNT.RX 1
        if s.clientOn p && s.fromMaster m then f m s else s
/-- A timestamp in units of 2^-16 ps. -/
def tsPs (t : Ts) : Int := t * 1000
/-- The exchange replaced. -/
def State.putEx (s : State) (x : Exchange) : State := { s with time := { s.time with ex := x } }
/-- SYNC_MESSAGE (R371, R373): t2, and t1 when it is one-step. A Sync begins an exchange (log entry 51). -/
def State.syncMsg (s : State) (p : Port) (m : PtpMsg) : State :=
  let r := s.nowTs
  let t2 := tsPs r.1 - (r.2.fget (.TS_CORR p) TS_CORR.INGRESS_PS : Int) * 65536
  r.2.putEx { syncSeq := some m.seqId, t1 := if m.twoStep then none else some (tsPs (m.time + m.correction)), t2 := some t2
              syncCorr := m.correction }
/-- The bytes of a Delay_Req (R369; log entry 98): the module's own port identity, which the spec does not give, is free. -/
def State.delayReqBytes (s : State) (id : BitVec 16) : Bytes × State :=
  let r := s.freeBytes 10
  ([0x01, 0x12, 0, 44, BitVec.ofNat 8 (r.2.fget .FT_CTRL FT_CTRL.DOMAIN)] ++ List.replicate 15 0 ++ r.1
    ++ [BitVec.ofNat 8 (id.toNat / 256), BitVec.ofNat 8 id.toNat, 1, 0x7F] ++ List.replicate 10 0, r.2)
/-- DELAY_REQ_SEND (R370 to R373): the client's Delay_Req waits for a SERVICE slot of its port, outside the router (R340). -/
def State.delayReq (s : State) (p : Port) (id : BitVec 16) : State :=
  if !s.clientOn p then s
  else
    let r := s.delayReqBytes id
    let s := r.2.putEx { r.2.time.ex with reqSeq := some id, t4 := none, dropped := false }
    let q := parcelsOf (pktBytes { hdr := s.hdr oMGMT timeGa r.1.length, payload := r.1 })
    s.modPort p (fun t => { t with
      txService := t.txService ++ q.map (fun x => { parcel := x, planned := none, part := none, time := some id }) })

/-! Samples (R373, R378, R380, R381). -/

/-- A quotient rounded to the nearest whole number; a tie is open. -/
def State.roundNear (s : State) (a : Int) (d : Nat) : Int × State :=
  let q := a / d
  let r := a % d
  if 2 * r < d then (q, s) else if (d : Int) < 2 * r then (q + 1, s) else s.roundOpen a d
/-- The greatest rate adjustment (R376). -/
def rateMax : Int := 56294995342
/-- From HOST to SERVO when the steering watchdog has reached WDOG_MS (R377, R378). -/
def State.watchdog (s : State) : State :=
  if s.flag .FT_STATUS FT_STATUS.MODE || s.time.base - s.time.wdFrom < usUnits (1000 * s.fget .FT_LIMITS FT_LIMITS.WDOG_MS) then s
  else
    let s := { s with time := { s.time with iTerm := s.rate } }
    (s.fset .FT_STATUS FT_STATUS.MODE 1).fset .FT_STATUS FT_STATUS.SERVO_TAKE 1
/-- The servo runs for an accepted sample (R378). -/
def State.servo (s : State) (theta : Int) : State :=
  let i := clampInt (-rateMax) rateMax (s.time.iTerm - (s.fget .FT_SERVO FT_SERVO.KI : Int) * theta)
  let r := clampInt (-rateMax) rateMax (i - (s.fget .FT_SERVO FT_SERVO.KP : Int) * theta)
  ({ s with time := { s.time with iTerm := i } }).fset .FT_RATE FT_RATE.RATE (ofInt 40 r)
/-- An offset sample (R373, R379 to R381): the watchdog's expiry comes before it; `d` is twice θ and `w` twice the path delay, in units of 2^-16 ps. -/
def State.sample (s : State) (d w : Int) : State :=
  let o := s.watchdog.roundOpen d 131072
  let w := o.2.roundOpen w 131072000
  let ps := clampInt (-(2 ^ 31 - 1)) (2 ^ 31 - 1) o.1
  let path := if w.1 < 0 then w.2.freeBelow 65536 else (min w.1.toNat 65535, w.2)
  let s := path.2
  let refused := (s.fget .FT_LIMITS FT_LIMITS.JUMP_NS : Int) * 131072000 < Int.natAbs d
  let s := s.setReg .FT_SAMPLE (BitVec.ofNat 64 (ofInt 32 ps + (b2n refused) <<< 32 + path.1 <<< 48))
  if refused then
    let s := (s.fadd .FT_STATUS FT_STATUS.REFUSED_COUNT 1).fset .FT_STATUS FT_STATUS.TIME_JUMP 1
    s.raise { code := fTIME_JUMP, cls := cFLAG }
  else
    let s := (s.fset .STG_STATUS STG_STATUS.SYNC_OK 1)
    let s := { s with time := { s.time with sampleAt := some s.time.base, countAt := some s.time.base } }
    let s := if s.flag .STG_STATUS STG_STATUS.FREF_OK then s.endHoldover else s
    if s.flag .FT_STATUS FT_STATUS.MODE && !s.holdover then
      let t := s.roundNear d 131072000
      t.2.servo t.1
    else s
/-- The exchange completes once its four times stand (R372, R373): entries of the queue are popped up to the one that is used, and an
exchange whose Delay_Req timestamp was dropped yields no sample. -/
def State.exchange (s : State) (p : Port) : State :=
  let x := s.time.ex
  match x.t1, x.t2, x.t4, x.reqSeq with
  | some t1, some t2, some t4, some id =>
    if x.dropped then s.putEx {}
    else
      let q := (s.port p).tsq
      match (q.zipIdx.filter (fun e => e.1.1 = id)).getLast? with
      | none => s
      | some e =>
        let s := ((s.modPort p (fun t => { t with tsq := q.drop (e.2 + 1) })).refreshTsq p).putEx {}
        let t3 := tsPs e.1.2 + (s.fget (.TS_CORR p) TS_CORR.EGRESS_PS : Int) * 65536
        s.sample ((t2 - t1) - (t4 - t3)) ((t2 - t1) + (t4 - t3))
  | _, _, _, _ => s
/-- FOLLOW_UP_MESSAGE (R373): t1 of a two-step Sync. -/
def State.followUp (s : State) (p : Port) (m : PtpMsg) : State :=
  let x := s.time.ex
  if x.syncSeq = some m.seqId && x.t1.isNone then
    (s.putEx { x with t1 := some (tsPs (m.time + m.correction + x.syncCorr)) }).exchange p else s
/-- DELAY_RESP_MESSAGE (R372, R373): t4. It may come before the Follow_Up. -/
def State.delayResp (s : State) (p : Port) (m : PtpMsg) : State :=
  let x := s.time.ex
  if x.reqSeq != some m.seqId then s else (s.putEx { x with t4 := some (tsPs (m.time - m.correction)) }).exchange p

/-! Writes that steer (R374 to R377, R379, R382). -/

/-- A write of `FT_STEP` (R374, R382). -/
def State.ftStep (s : State) (a : Acc) : State :=
  s.owned a.by_ (fun s =>
    if s.flag .FT_STATUS FT_STATUS.TIME_SET then
      ((s.fset .FT_STATUS FT_STATUS.STEP_REJ 1).fset .FT_STATUS FT_STATUS.TIME_JUMP 1).raise { code := fTIME_JUMP, cls := cFLAG }
    else
      let v := Reg.FT_STEP.info.write (s.reg .FT_STEP) a
      let s := s.setReg .FT_STEP v
      let s := { s with time := { s.time with ns := s.time.ns + v, countAt := some s.time.base } }
      let s := s.fset .FT_STATUS FT_STATUS.TIME_SET 1
      if s.flag .STG_STATUS STG_STATUS.FREF_OK then s else s.enterHoldover)
/-- A write of `FT_CTRL` (R375, R382). -/
def State.ftCtrl (s : State) (a : Acc) : State :=
  s.owned a.by_ (fun s =>
    let old := s.reg .FT_CTRL
    let v := Reg.FT_CTRL.info.write old a
    let reset := FT_CTRL.RESET_TIME.get v = 1
    if reset && !s.loadedParts.isEmpty then s.fset .FT_STATUS FT_STATUS.STEP_REJ 1
    else
      let was := FT_CTRL.CLIENT_EN.get old = 1
      let on := FT_CTRL.CLIENT_EN.get v = 1
      let s := s.setReg .FT_CTRL (FT_CTRL.RESET_TIME.set v 0)
      let s := if reset then s.fset .FT_STATUS FT_STATUS.TIME_SET 0 else s
      let fresh := s.time.sampleAt.isSome && !s.older s.time.sampleAt (s.fget .FT_LIMITS FT_LIMITS.SYNC_TO_US)
      let s := if on && !was then
          ({ s with time := { s.time with countAt := some s.time.base, ex := {} } }).fset .STG_STATUS STG_STATUS.SYNC_OK (b2n fresh)
        else if !on then (s.putEx {}).fset .STG_STATUS STG_STATUS.SYNC_OK 0 else s
      let s := if reset || !on then s.holdoverCheck else s
      s.refreshBackup)
/-- A write of `FT_RATE` (R376, R377): an accepted one restarts the steering watchdog. -/
def State.ftRate (s : State) (a : Acc) : State :=
  s.owned a.by_ (fun s =>
    let v := Reg.FT_RATE.info.write (s.reg .FT_RATE) a
    let r := toInt 40 (FT_RATE.RATE.get v)
    if s.holdover || r < -rateMax || rateMax < r then s.fset .FT_STATUS FT_STATUS.RATE_REJ 1
    else ({ s with time := { s.time with wdFrom := s.time.base } }.setReg .FT_RATE v).fset .FT_STATUS FT_STATUS.MODE 0)
/-- A write of `FT_LIMITS`: a field below its least value keeps its old one. -/
def State.ftLimits (s : State) (a : Acc) : State :=
  s.owned a.by_ (fun s =>
    let old := s.reg .FT_LIMITS
    let v := Reg.FT_LIMITS.info.write old a
    let v := keepField FT_LIMITS.JUMP_NS old v 20 65535
    let v := keepField FT_LIMITS.WDOG_MS old v 10 65535
    s.setReg .FT_LIMITS (keepField FT_LIMITS.SYNC_TO_US old v 100 65535))
/-- A write of `HOLD_LIMIT`: a limit outside 100 to 10,000 µs is discarded. -/
def State.holdLimit (s : State) (a : Acc) : State :=
  s.owned a.by_ (fun s =>
    let old := s.reg .HOLD_LIMIT
    s.setReg .HOLD_LIMIT (keepField HOLD_LIMIT.LIMIT_US old (Reg.HOLD_LIMIT.info.write old a) 100 10000))
/-- FT_NOW_NS_READ (R7, R386, R474): the integer part, or the half of it that the read addresses, and the fraction latched for the port. -/
def State.nowRead (s : State) (p : HostPort) (z : Sz) : State :=
  (s.modHost p (fun h => { h with frac := s.time.frac })).emit (.read p (readPart z s.time.ns))

/-- FREF_LOSS -/
def execFrefLoss (s : State) : Res := live s (·.frefLoss)
/-- FREF_RETURN -/
def execFrefReturn (s : State) : Res := live s (·.frefReturn)
/-- SYNC_TIMEOUT -/
def execSyncTimeout (t : TimeIn) (s : State) : Res := live s (·.atTime t (·.syncTimeout))
/-- HOLDOVER_LIMIT_EXPIRE -/
def execHoldoverLimitExpire (t : TimeIn) (s : State) : Res := live s (·.atTime t (·.holdExpire))
/-- SYNC_MESSAGE -/
def execSyncMessage (p : Port) (k : Packet) (t : TimeIn) (s : State) : Res :=
  live s (·.atTime t (·.timeIn p k [0] (fun m s => s.syncMsg p m)))
/-- FOLLOW_UP_MESSAGE -/
def execFollowUpMessage (p : Port) (k : Packet) (t : TimeIn) (s : State) : Res :=
  live s (·.atTime t (·.timeIn p k [8] (fun m s => s.followUp p m)))
/-- DELAY_REQ_SEND -/
def execDelayReqSend (p : Port) (seqId : BitVec 16) (s : State) : Res := live s (·.delayReq p seqId)
/-- DELAY_RESP_MESSAGE -/
def execDelayRespMessage (p : Port) (k : Packet) (t : TimeIn) (s : State) : Res :=
  live s (·.atTime t (·.timeIn p k [9] (fun m s => s.delayResp p m)))
/-- ANNOUNCE_MESSAGE (R369): recorded only. -/
def execAnnounceMessage (p : Port) (k : Packet) (s : State) : Res := live s (·.timeIn p k [11] (fun _ s => s))
/-- PTP_DISCARDED_MESSAGE (R369). -/
def execPtpDiscardedMessage (p : Port) (k : Packet) (s : State) : Res :=
  live s (·.timeIn p k [1, 2, 3, 4, 5, 6, 7, 10, 12, 13, 14, 15] (fun _ s => s))
/-- FT_STEP_WRITE -/
def execFtStepWrite (a : Acc) (t : TimeIn) (s : State) : Res := live s (·.owned a.by_ (·.atTime t (·.ftStep a)))
/-- RESET_TIME -/
def execResetTime (a : Acc) (s : State) : Res := live s (·.owned a.by_ (·.passSome.ftCtrl a))
/-- CLIENT_ENABLE -/
def execClientEnable (a : Acc) (t : TimeIn) (s : State) : Res := live s (·.owned a.by_ (·.atTime t (·.ftCtrl a)))
/-- FT_RATE_WRITE -/
def execFtRateWrite (a : Acc) (t : TimeIn) (s : State) : Res := live s (·.owned a.by_ (·.atTime t (·.ftRate a)))
/-- STEERING_WATCHDOG_EXPIRE -/
def execSteeringWatchdogExpire (t : TimeIn) (s : State) : Res := live s (·.atTime t (·.watchdog))
/-- FT_NOW_NS_READ -/
def execFtNowNsRead (p : HostPort) (z : Sz) (now : TimeIn) (s : State) : Res := live s (·.atTime now (·.nowRead p z))

end Sys2Proof.Machine
end

