-- ==== Sys2Proof/Machine/Rates.lean ====
section
/-! DEFINITION. Rate regions and lateness (spec/02_stages.md R39 to R73): pace and power monitors, budgets, rate windows, the work of
a stage and its lateness, overstay, and the service crossings. -/

namespace Sys2Proof.Machine

/-! Plans and regions. -/

/-- The catch-up horizon of a plan; 0 selects 4 (R65). -/
def Plan.h (pl : Plan) : Nat := if pl.horizon = 0 then 4 else pl.horizon
/-- The partition and plan of a region, while one is loaded. -/
def State.planOfRgn (s : State) (n : Nat) : Option (Nat × Plan) :=
  (s.partOfRgn n).bind (fun p => if s.pstate p = pNONE then none else ((s.part p).plan).map (fun pl => (p, pl)))
/-- Whether a region belongs to a RUNNING partition. -/
def State.rgnRuns (s : State) (n : Nat) : Bool := match s.partOfRgn n with | none => false | some p => s.pstate p = pRUNNING
/-- The catch-up horizon that a region's partition applies (R57, R65, R385). R57 does not say which H counts for a region whose partition has
no plan loaded: it is that of STG_CFG (DESIGN CHOICE, log entry 100). -/
def State.rgnH (s : State) (n : Nat) : Nat := match s.planOfRgn n with | none => s.fget .STG_CFG STG_CFG.HORIZON | some e => e.2.h
/-- The present tiles of a region. -/
def State.rgnTiles (s : State) (n : Nat) : List Nat := ((List.range 8).map (n * 8 + ·)).filter (fun g => s.tilePresent g)
/-- Whether the loaded plan gives a tile a stream (R34). -/
def State.hasStream (s : State) (g : Nat) : Bool := match s.planOfTile g with | none => false | some pl => (s.streamOf pl g).isSome
/-- Whether some tile of a region runs a tile stream (R34). -/
def State.rgnStreams (s : State) (n : Nat) : Bool := (s.rgnTiles n).any (fun g => s.hasStream g)
/-- Whether the work of a stage has finished in a region; a region in which no tile runs a stream finishes every stage at its start
boundary (R34). -/
def State.rgnDone (s : State) (n stage : Nat) : Bool :=
  let r := s.rgn n
  stage + 1 < r.next || (r.next = stage + 1 && r.finished) || !s.rgnStreams n

/-! The boundary (R43 to R45, R54 to R57, R512, R574). -/

/-- A sum that telemetry gathers. -/
def addWaits (a b : WaitSums) : WaitSums :=
  ⟨a.queue + b.queue, a.wait + b.wait, a.fence + b.fence, a.owner + b.owner, a.engine + b.engine, a.landing + b.landing, a.quiesce + b.quiesce⟩
/-- Whether telemetry is on: a buffer exponent of 8 to 24 (TEL_CFG). -/
def State.telOn (s : State) : Bool := let n := s.fget .TEL_CFG TEL_CFG.TEL_LOG2; 8 ≤ n && n ≤ 24
/-- A region's telemetry gathers, while telemetry is on. -/
def State.modTel (s : State) (n : Nat) (f : Tel → Tel) : State := if s.telOn then s.modRgn n (fun r => { r with tel := f r.tel }) else s
/-- A region's telemetry over one more stage `e` (R512, R513). -/
def Tel.add (t : Tel) (e : Nat) (flags : Byte) (m : RegionMeas) (pace watts : Nat) : Tel :=
  let land_ := m.landMargin.getD 0x7FFFFFFF
  let less := match t.minLand with | none => true | some v => land_ < v
  { t with stages := t.stages + 1, flags := t.flags ||| flags
           minLand := if less then some land_ else t.minLand, landAt := if less then e else t.landAt
           waits := addWaits t.waits m.waits, pace := t.pace + pace, watts := t.watts + watts }
/-- What the monitors report of a region over the stage `e` that ends (R43 to R45, R54, R55, R574). The comparison takes the exact
input power and the budget in force in that stage; the budget written last then comes into force. While the budget is 0 the comparison is
off (R53); the spec does not say what EXCESS_RUN becomes then: it returns to 0 (DESIGN CHOICE, log entry 99). -/
def State.rgnBoundary (s : State) (n e : Nat) (m : RegionMeas) : State :=
  let b := (s.rgn n).budget.toNat
  let excess := 0 < b && 88830 * b < m.power * 100000
  let w := s.roundOpen (m.power * 1000 : Nat) 846
  let watts := min w.1.toNat 65535
  let run := if excess then min (w.2.fget (.RGN_POWER n) RGN_POWER.EXCESS_RUN + 1) 255 else 0
  let s := w.2.setReg (.RGN_POWER n) (BitVec.ofNat 64 (watts + run <<< 16))
  let s := s.fset (.RGN_PACE n) RGN_PACE.PACE m.pace.toNat
  let s := match m.cal with
    | none => s
    | some c => ((s.fset (.RGN_PACE n) RGN_PACE.CAL c.toNat).fadd (.RGN_PACE n) RGN_PACE.CAL_COUNT 1).fset (.RGN_STATUS n) RGN_STATUS.CAL_STALE 0
  let loaded := (s.planOfRgn n).isSome
  let fl : Byte := (if excess then 2 else 0) ||| (if s.holdover then 4 else 0)
  let budget := BitVec.ofNat 16 (s.fget (.RGN_BUDGET n) RGN_BUDGET.WATTS)
  let s := s.modRgn n (fun r => { r with
    budget := budget
    calAge := if m.cal.isSome then 0 else r.calAge + 1
    zeroRun := if excess then 0 else r.zeroRun + 1
    flagRaised := r.flagRaised && 5 ≤ run, abortRaised := r.abortRaised && 5 ≤ run })
  if loaded then s.modTel n (fun t => t.add e fl m m.pace.toNat watts) else s
/-- The work of a stage ends in a region with a finish margin (R62, R63, R65, R512). -/
def State.rgnFinish (s : State) (n w : Nat) (margin : Int) : State :=
  let late := (-margin).toNat
  let s := s.modRgn n (fun r => { r with
    finished := true, s0 := if margin < 0 then r.s0 else none, overRaised := r.overRaised && margin < 0 })
  let s := s.modTel n (fun t =>
    let less := match t.minFinish with | none => true | some v => margin < v
    { t with late := if margin < 0 then t.late + 1 else t.late
             minFinish := if less then some margin else t.minFinish, finishAt := if less then w else t.finishAt })
  let ns := min late (2 ^ 20 - 1)
  let s := s.fset (.RGN_LATE n) RGN_LATE.LATE_NS ns
  if margin < 0 then s.fset (.RGN_LATE n) RGN_LATE.MAX_NS (max ns (s.fget (.RGN_LATE n) RGN_LATE.MAX_NS))
  else s.fset (.RGN_LATE n) RGN_LATE.STAGES 0
/-- A region whose work of the stage that ends is not finished is late (R61, R63, R65, RGN_LATE): the first such stage begins an
episode. A region without a stream has finished the stage at its start, whatever came (R34). -/
def State.lateBoundary (s : State) (n e : Nat) : State :=
  if !s.rgnRuns n then s
  else if !s.rgnStreams n then
    if (s.rgn n).next ≤ e then (s.modRgn n (fun r => { r with next := e + 1 })).rgnFinish n e s.stageNs else s
  else if s.rgnDone n e then s
  else
    let r := s.rgn n
    let w := if r.finished then r.next else r.next - 1
    let s := s.modRgn n (fun r => { r with s0 := some (r.s0.getD w) })
    s.fset (.RGN_LATE n) RGN_LATE.STAGES (min (s.fget (.RGN_LATE n) RGN_LATE.STAGES + 1) 8)
/-- The boundary's work of the rate unit over every region. A region that the command lists no measurement of draws no power. -/
def State.ratesBoundary (s : State) (e : Nat) (meas : List RegionMeas) : State :=
  (List.range 64).foldl (fun s n =>
    let m := match meas.find? (·.n.val = n) with
      | some m => m
      | none => { n := Fin.ofNat 64 n, power := 0, pace := BitVec.ofNat 16 (s.fget (.RGN_PACE n) RGN_PACE.PACE), cal := none, landMargin := none
                  waits := ⟨0, 0, 0, 0, 0, 0, 0⟩ }
    (s.rgnBoundary n e m).lateBoundary n e) s
/-- CAL_STALE (R45). -/
def State.calStale (s : State) (n : Nat) : State :=
  if 4096 ≤ (s.rgn n).calAge then s.fset (.RGN_STATUS n) RGN_STATUS.CAL_STALE 1 else s

/-! POWER and OVERSTAY (R56, R57, R65). -/

/-- A fault of a region. -/
def State.raiseRgn (s : State) (n code cls : Nat) (fstage : Option Nat) : State :=
  s.raise { code := code, cls := cls, origin := 1, id := n, fstage := fstage, parts := (s.partOfRgn n).toList }
/-- POWER_FLAG (R56). -/
def State.powerFlag (s : State) (n : Nat) : State :=
  if 5 ≤ s.fget (.RGN_POWER n) RGN_POWER.EXCESS_RUN && !(s.rgn n).flagRaised then
    ((s.modRgn n (fun r => { r with flagRaised := true })).fset (.RGN_STATUS n) RGN_STATUS.POWER 1).raiseRgn n fPOWER cFLAG none
  else s
/-- Whether POWER is due as a stage abort (R57). -/
def State.powerDue (s : State) (n : Nat) : Bool := 5 + s.rgnH n ≤ s.fget (.RGN_POWER n) RGN_POWER.EXCESS_RUN && !(s.rgn n).abortRaised
/-- A partition whose faulting stage has ended at this boundary halts now (R65, R521). -/
def State.haltEnded (s : State) (n : Nat) : State :=
  match s.partOfRgn n with
  | none => s
  | some p => match (s.part p).fstage with
    | some f => if f < s.stage && s.pstate p = pRUNNING then s.haltPart p else s
    | none => s
/-- POWER_ABORT (R57): the faulting stage is the stage that has just ended. -/
def State.powerAbort (s : State) (n : Nat) : State :=
  if s.powerDue n then
    (((s.modRgn n (fun r => { r with abortRaised := true })).fset (.RGN_STATUS n) RGN_STATUS.POWER_ABORT 1).raiseRgn n fPOWER cABORT
      (some (s.stage - 1))).haltEnded n
  else s
/-- OVERSTAY (R65): the work of `s0 + H` has not finished by its end boundary. -/
def State.overstay (s : State) (n : Nat) : State :=
  match (s.rgn n).s0 with
  | none => s
  | some e =>
    let f := e + s.rgnH n
    if s.rgnRuns n && f < s.stage && !s.rgnDone n f && !(s.rgn n).overRaised then
      let s := (s.modRgn n (fun r => { r with overRaised := true })).modTel n (fun t => { t with flags := t.flags ||| 1 })
      ((s.fset (.RGN_STATUS n) RGN_STATUS.OVERSTAY 1).raiseRgn n fOVERSTAY cABORT (some f)).haltEnded n
    else s

/-! The work of a stage (R33, R34, R61 to R63, R225, R235, R402). -/

/-- A round write takes effect at a tile: the whole predicate table and the whole key table (R235, R402). -/
def State.roundEffect (s : State) (g : Nat) (w : RoundWrite) : State :=
  let s := s.clearWindow g 0x400 0x800
  let s := (List.range 128).foldl (fun s k =>
    let v : Nat := ((w.preds.filter (fun i => i / 64 = k)).map (fun i => 2 ^ (i % 64))).sum
    if v = 0 then s else s.setReg (.SEAT_PRED g k) (BitVec.ofNat 64 v)) s
  s.modTile g (fun t => { t with keys := w.keys })
/-- A tile's work edge (R225, R235): WORK_STAGE, the round writes of the stage, and what the heads of its queues wait for. -/
def State.workEdge (s : State) (g w : Nat) : State :=
  let s := s.fset (.SEQ_STATUS g) SEQ_STATUS.WORK_STAGE (w % 2 ^ 32)
  let due := (s.tile g).rounds.filter (fun r => r.stage ≤ w)
  let s := s.modTile g (fun t => { t with rounds := t.rounds.filter (fun r => w < r.stage) })
  ((due.foldl (fun s r => s.roundEffect g r) s).refreshAhead g).drainTile g
/-- The next stage's work starts (R61, R225): the next stage's work starts once its stage has begun and the work before it has finished. A region in
which no tile runs a stream finishes it at once (R34). -/
def State.workStart (s : State) (n : Nat) : State :=
  let r := s.rgn n
  if !s.rgnRuns n || !r.finished || s.stage < r.next then s
  else
    let w := r.next
    let gs := s.rgnTiles n
    let runs := s.rgnStreams n
    let ns := s.stageNs
    let s := s.modRgn n (fun r => { r with next := w + 1, finished := false })
    let s := gs.foldl (fun s g => s.workEdge g w) s
    if runs then s else s.rgnFinish n w ns
/-- Whether a tile has finished the work of a stage (R34): its sequencer has passed the stage end, and every command of the stage has
completed, handovers and scans among them. -/
def State.tileDone (s : State) (g w : Nat) : Bool :=
  let t := s.tile g
  !s.hasStream g || (w < t.issue && t.queues.all (fun q => q.2.all (fun i => w < i.stage)) && t.pend.all (fun h => w < h.stage)
    && t.scan.all (fun c => w < c.stage))
/-- STAGE_WORK_FINISH (R34, R61 to R63): `ns` is the time since the start boundary of the stage in progress. Work that finishes in the
step of its end boundary is in time, and that boundary does not count as crossed while late. -/
def State.workFinish (s : State) (n ns : Nat) : State :=
  let r := s.rgn n
  let w := r.next - 1
  if !s.rgnRuns n || r.finished || s.stageNs < ns || !(s.rgnTiles n).all (fun g => s.tileDone g w) then s
  else s.rgnFinish n w (((w + 1 : Nat) : Int) * s.stageNs - ((s.stage : Int) * s.stageNs + ns))

/-! Rate windows (R46 to R51, R56, R58). -/

/-- Whether the plan places a rate window of a region in the stage in progress (R51): in every stage that is a plan stage, whether the
partition runs or is halted (R529). -/
def State.windowNow (s : State) (n : Nat) : Bool :=
  match s.planOfRgn n with
  | none => false
  | some e => match e.2.regions[n]? with
    | none => false
    | some r =>
      let p := s.planStage e.1 s.stage
      s.time.arrived && 0 ≤ p && 0 < r.gap && p % r.gap = r.phase
/-- A region works past the boundary of an earlier stage (R50, R61). -/
def State.overstaying (s : State) (n : Nat) : Bool := 0 < s.stage && s.rgnRuns n && !s.rgnDone n (s.stage - 1)
/-- A voltage that the rate controller moves to, in steps of 5 mV and within the limits: how far beyond the present one is its own (R49). -/
def State.goal (s : State) (v lo hi : Nat) (up : Bool) : Nat × State :=
  let room := if up then (hi - v) / 5 else (v - lo) / 5
  let r := s.freeBelow room
  (if up then max lo (v + 5 * (r.1 + 1)) else min hi (v - 5 * (r.1 + 1)), r.2)
/-- A voltage change in a rate window (R46, R47): the region is quiesced, and the voltage moves by at most 50 mV. -/
def State.changeRate (s : State) (n v goal : Nat) : State :=
  let towards := if v ≤ goal then min goal (v + 50) else max goal (v - 50)
  let s := (s.fset (.RGN_RATE n) RGN_RATE.V_NOW towards).fset (.RGN_RATE n) RGN_RATE.V_GOAL goal
  (s.fadd (.RGN_RATE n) RGN_RATE.CHANGES 1).modRgn n (fun r => { r with quiesce := true })
/-- RATE_WINDOW_OPEN (R46, R47, R49, R50, R56, R58). -/
def State.windowOpen (s : State) (n : Nat) : State :=
  if !s.windowNow n || !s.stewardUp then s
  else
    let v := s.fget (.RGN_RATE n) RGN_RATE.V_NOW
    let lo := max 600 (s.fget (.RGN_TARGET n) RGN_TARGET.VMIN)
    let hi := min 850 (s.fget (.RGN_TARGET n) RGN_TARGET.VMAX)
    let run := s.fget (.RGN_POWER n) RGN_POWER.EXCESS_RUN
    let pace := s.fget (.RGN_PACE n) RGN_PACE.PACE
    let target := s.fget (.RGN_TARGET n) RGN_TARGET.PACE
    let r := s.rgn n
    if 5 ≤ run then
      if lo < v then (s.modRgn n (fun r => { r with powerCut := true })).changeRate n v (max lo (v - 25)) else s
    else
      let up := (pace < target || v < lo) && run = 0 && v + 5 ≤ hi && (!r.powerCut || 16 ≤ r.zeroRun)
      let down := (target * 102 < pace * 100 || hi < v) && lo + 5 ≤ v
      if !up && !down then s
      else if s.overstaying n then s.fset (.RGN_STATUS n) RGN_STATUS.RATE_DEFER 1
      else
        let g := s.goal v lo hi up
        (g.2.modRgn n (fun r => { r with powerCut := r.powerCut && !up })).changeRate n v g.1
/-- RATE_WINDOW_CLOSE (R46, R48): issue resumes, and what waited is delivered. -/
def State.windowClose (s : State) (n : Nat) : State :=
  if !(s.rgn n).quiesce then s
  else (s.rgnTiles n).foldl (fun s g => (s.drainLanding g).drainTile g) (s.modRgn n (fun r => { r with quiesce := false }))

/-! Budgets (R53, R54) and reads with an effect (R41, R63, R474). -/

/-- RGN_BUDGET_WRITE (R54). -/
def State.budgetWrite (s : State) (n : Nat) (a : Acc) : State :=
  s.owned a.by_ (fun s =>
    let v := (Reg.RGN_BUDGET n).info.write (s.reg (.RGN_BUDGET n)) a
    let peak := match s.planOfRgn n with | none => 0 | some e => (e.2.power.getD n []).foldl max 0
    if RGN_BUDGET.WATTS.get v < peak then s.fset (.RGN_STATUS n) RGN_STATUS.BUDGET_REJ 1 else s.setReg (.RGN_BUDGET n) v)
/-- RGN_LATE_READ (R7, R63, R474): a read by the owner resets MAX_NS. -/
def State.lateRead (s : State) (p : HostPort) (n : Nat) (z : Sz) : State :=
  let s := s.emit (.read p (readPart z (s.reg (.RGN_LATE n))))
  if s.owner = some p.val then s.fset (.RGN_LATE n) RGN_LATE.MAX_NS 0 else s
/-- XING_FILL_READ (R7, R41, R474): a read by the owner resets MIN and MAX to FILL. -/
def State.fillRead (s : State) (p : HostPort) (c : Nat) (z : Sz) : State :=
  let s := s.emit (.read p (readPart z (s.reg (.XING_FILL c))))
  let f := s.fget (.XING_FILL c) XING_FILL.FILL
  if s.owner = some p.val then (s.fset (.XING_FILL c) XING_FILL.MIN f).fset (.XING_FILL c) XING_FILL.MAX f else s

/-! Service crossings (R41, R42). -/

/-- A fill is in the range 2 to 14. -/
def fillOk (f : Nat) : Bool := 2 ≤ f && f ≤ 14
/-- A crossing's fill moves; its extremes follow (R41). -/
def State.setFill (s : State) (c f : Nat) : State :=
  let r := Reg.XING_FILL c
  let s := s.fset r XING_FILL.FILL f
  (s.fset r XING_FILL.MIN (min f (s.fget r XING_FILL.MIN))).fset r XING_FILL.MAX (max f (s.fget r XING_FILL.MAX))
/-- XING_FILL_EXCURSION (R42): a passage out of the range raises D2D, a device stop. -/
def State.fillOut (s : State) (c f : Nat) : State :=
  if fillOk f then s
  else
    let was := fillOk (s.fget (.XING_FILL c) XING_FILL.FILL)
    let s := s.setFill c f
    if !was then s
    else (s.setReg .XING_ALARM (s.reg .XING_ALARM ||| BitVec.ofNat 64 (2 ^ c))).deviceStop { code := fD2D }
/-- XING_FILL_RETURN (R42). -/
def State.fillIn (s : State) (c f : Nat) : State := if fillOk f then s.setFill c f else s

/-- POWER_FLAG -/
def execPowerFlag (n : Rgn) (s : State) : Res := live s (·.powerFlag n)
/-- POWER_ABORT -/
def execPowerAbort (n : Rgn) (s : State) : Res := live s (·.powerAbort n)
/-- CAL_STALE -/
def execCalStale (n : Rgn) (s : State) : Res := live s (·.calStale n)
/-- STAGE_WORK_FINISH -/
def execStageWorkFinish (n : Rgn) (ns : Nat) (s : State) : Res := live s (·.workFinish n ns)
/-- OVERSTAY -/
def execOverstay (n : Rgn) (s : State) : Res := live s (·.overstay n)
/-- RATE_WINDOW_OPEN -/
def execRateWindowOpen (n : Rgn) (s : State) : Res := live s (·.windowOpen n)
/-- RATE_WINDOW_CLOSE -/
def execRateWindowClose (n : Rgn) (s : State) : Res := live s (·.windowClose n)
/-- XING_FILL_EXCURSION -/
def execXingFillExcursion (c : Xing) (fill : Fill) (s : State) : Res := live s (·.fillOut c fill)
/-- XING_FILL_RETURN -/
def execXingFillReturn (c : Xing) (fill : Fill) (s : State) : Res := live s (·.fillIn c fill)
/-- XING_FILL_READ -/
def execXingFillRead (p : HostPort) (c : Xing) (z : Sz) (s : State) : Res := live s (·.fillRead p c z)
/-- RGN_BUDGET_WRITE -/
def execRgnBudgetWrite (n : Rgn) (a : Acc) (s : State) : Res := live s (·.budgetWrite n a)
/-- RGN_LATE_READ -/
def execRgnLateRead (p : HostPort) (n : Rgn) (z : Sz) (s : State) : Res := live s (·.lateRead p n z)

end Sys2Proof.Machine
end

