-- ==== Sys2Proof/Machine/Adu.lean ====
section
/-! DEFINITION. The admission unit (spec/13_serving.md R394 to R420, spec/14_weights_kv.md R434 to R448): request and event records, token
records with their release and spill, page tables and frames, references, the end of a request, and cancellation. -/

namespace Sys2Proof.Machine

/-! The serving plan and the module's place in its shard group (R421, R434, R435, R446, R447). -/

/-- The plan of the serving partition. -/
def State.servePlan (s : State) : Option Plan := s.servingPart.bind (fun p => (s.part p).plan)
/-- A shard group of one module at index 0, for a plan that names none. -/
def Plan.group (pl : Plan) : Nat × Nat × Nat × List Nat := pl.shard.getD (1, 0, 0, [])
/-- The shard index of the module (R446). -/
def Plan.shardIx (pl : Plan) : Nat := pl.group.2.1
/-- Whether the module is a member of a shard group and not its home (R447). -/
def State.isMember (s : State) : Bool := match s.servePlan with | none => false | some pl => pl.shardIx != 0
/-- The other modules of the shard group (R448). -/
def Plan.members (pl : Plan) : List Nat :=
  let g := pl.group
  ((List.range g.1).filter (· != g.2.1)).filterMap (fun k => g.2.2.2[k]?)
/-- The bytes between page tables (R435). -/
def Plan.ptStride (pl : Plan) : Nat := (128 + 4 * (pl.stretch / 256) + 63) / 64 * 64
/-- The LPDDR5X offset of a request's page table (R435). -/
def Plan.pageTable (pl : Plan) (q : Nat) : Nat := pl.ptBase + q * pl.ptStride
/-- The offset of the entry of page `j` of the module's stretch (R435). -/
def Plan.pgOff (pl : Plan) (q j : Nat) : Nat := pl.pageTable q + 128 + 4 * j
/-- The first position of the module's stretch (R446). -/
def Plan.firstPos (pl : Plan) : Nat := pl.shardIx * pl.stretch
/-- An unused frame or id, −1. -/
def noId : Nat := 0xFFFFFFFF
/-- The admission unit writes LPDDR5X. -/
def State.aduWrite (s : State) (off : Nat) (b : Bytes) : State := s.dramWrite off b (plainWho .adu)

/-! Records (R396 to R399). -/

/-- FREE, a request state (R397). -/
def qFREE : Nat := 0
/-- WAITING -/
def qWAITING : Nat := 1
/-- PREFILL -/
def qPREFILL : Nat := 2
/-- READY -/
def qREADY : Nat := 3
/-- DECODE -/
def qDECODE : Nat := 4
/-- ENDED -/
def qENDED : Nat := 5
/-- A request record. -/
def State.req (s : State) (q : Nat) : ReqRec := tget {} s.adu.reqs q
/-- The 128 bytes of a request record (R397). -/
def reqBytes (r : ReqRec) : Bytes :=
  [BitVec.ofNat 8 r.state, BitVec.ofNat 8 (b2n r.pin + 2 * b2n r.held)] ++ toLe 2 r.account.toNat ++ toLe 4 r.ring.toNat
    ++ toLe 4 r.promptLen.toNat ++ toLe 4 r.nextFill.toNat ++ toLe 4 r.commit.toNat ++ toLe 4 r.known.toNat ++ toLe 4 r.seq.toNat
    ++ toLe 4 r.relSeq.toNat ++ toLe 4 r.maxNew.toNat ++ toLe 4 r.stopId.toNat ++ toLe 2 r.seat.toNat ++ [r.adapter.setWidth 8, r.adapterGen]
    ++ toLe 2 r.lpset.toNat ++ [BitVec.ofNat 8 r.spill.length, BitVec.ofNat 8 r.reason] ++ toLe 8 r.seed.toNat ++ toLe 8 r.prompt.toNat
    ++ toLe 8 r.admitted.toNat ++ toLe 4 r.prefixLen.toNat ++ toLe 8 r.prefixList.toNat ++ toLe 4 r.lastId.toNat ++ List.replicate 40 0
/-- A request record replaced, in the ADU area too (R397, R399). -/
def State.putReq (s : State) (q : Nat) (r : ReqRec) : State :=
  ({ s with adu := { s.adu with reqs := tput {} s.adu.reqs q r } }).aduWrite (s.img.aduOff + q * 128) (reqBytes r)
/-- A request record changed by a function. -/
def State.modReq (s : State) (q : Nat) (f : ReqRec → ReqRec) : State := s.putReq q (f (s.req q))
/-- The requests in a state, in admission order (R403). -/
def State.inState (s : State) (st : Nat) : List Nat :=
  (((s.adu.reqs.filter (fun e => e.2.state = st)).foldl (fun t e => tput 0 t e.2.admitted.toNat (e.1 + 1)) []).map (fun e => e.2 - 1))
/-- The number of requests in a state. -/
def State.countState (s : State) (st : Nat) : Nat := (s.adu.reqs.filter (fun e => e.2.state = st)).length
/-- Whether the unit is in WRR mode (R408; log entry 34). -/
def State.wrr (s : State) : Bool := 0 < s.adu.wrrLeft || s.flag .ADU_CTRL ADU_CTRL.FORCE_WRR
/-- ADU_STATUS and ADU_COUNT show what they report (R420). -/
def State.aduRefresh (s : State) : State :=
  let r := Reg.ADU_STATUS
  let s := (s.fset r ADU_STATUS.PLAN (b2n s.servingPart.isSome)).fset r ADU_STATUS.WRR (b2n (s.servingPart.isSome && s.wrr))
  let s := (s.fset r ADU_STATUS.WRR_LEFT s.adu.wrrLeft).fset r ADU_STATUS.EV_HELD (b2n (!s.adu.held.isEmpty))
  let c := Reg.ADU_COUNT
  ((s.fset c ADU_COUNT.WAITING (s.countState qWAITING)).fset c ADU_COUNT.PREFILL (s.countState qPREFILL)).fset c ADU_COUNT.DECODE
    (s.countState qREADY + s.countState qDECODE)

/-- Whether the unit may write into a ring: it has room, and no boundary of a device stop has passed (R415, R526). -/
def State.aduRoom (s : State) (n t : Nat) : Bool := s.ringIs n t && s.ringRoom n && !s.boot.sealed
/-- The event ring. -/
def State.eventRing (s : State) : Nat := s.fget .ADU_CTRL ADU_CTRL.EVENT
/-- Event records go out in order while the event ring takes them (R398). -/
def State.flushEvents (s : State) : Nat → State
  | 0 => s
  | n + 1 =>
    match s.adu.held with
    | [] => s
    | b :: r =>
      if s.flag .ADU_CTRL ADU_CTRL.EVENT_EN && s.aduRoom s.eventRing rEVENT then
        (({ s with adu := { s.adu with held := r } }).ringPut s.eventRing b).flushEvents n
      else s
/-- The unit produces an event record (R396). -/
def State.event (s : State) (kind code op req tokens : Nat) : State :=
  let b := [BitVec.ofNat 8 kind, BitVec.ofNat 8 code, BitVec.ofNat 8 op, 0] ++ toLe 4 req ++ toLe 4 (s.stage % 2 ^ 32) ++ toLe 4 tokens
    ++ List.replicate 16 0
  let s := { s with adu := { s.adu with held := s.adu.held ++ [b] } }
  s.flushEvents s.adu.held.length

/-! Accounts (R406 to R409). -/

/-- The configuration of an account that is in force (R406). -/
def State.acctCfg (s : State) (a : Nat) (f : Fld) : Nat := f.get (tget (Reg.ACCT_CFG a).info.reset s.adu.cfgLive a)
/-- An account's balance. -/
def State.balance (s : State) (a : Nat) : Int := toInt 44 (s.fget (.ACCT_BAL a) ACCT_BAL.BALANCE)
/-- An account's balance replaced; it saturates at its field (R406). -/
def State.setBalance (s : State) (a : Nat) (v : Int) : State :=
  s.fset (.ACCT_BAL a) ACCT_BAL.BALANCE (ofInt 44 (clampInt (-(2 ^ 43)) (2 ^ 43 - 1) v))
/-- An account is charged, in BUDGET mode only (R406, R408). -/
def State.charge (s : State) (a : Nat) (x : Int) : State := if s.wrr then s else s.setBalance a (s.balance a - x)

/-! Adapter slots (R428 to R432). -/

/-- Whether a request names an adapter slot. -/
def ReqRec.names (r : ReqRec) (slot : Nat) : Bool := r.state != qFREE && r.adapter.toNat < 256 && r.adapter.toNat = slot
/-- Whether a request is pinned to a slot's earlier generation (R429). -/
def State.pinned (s : State) (r : ReqRec) : Bool :=
  r.state != qFREE && r.pin && r.adapter.toNat < 256 && r.adapterGen.toNat != s.fget (.AD_STATE r.adapter.toNat) AD_STATE.GEN
/-- The pinned requests of a slot. -/
def State.pinnedCount (s : State) (slot : Nat) : Nat := (s.adu.reqs.filter (fun e => e.2.names slot && s.pinned e.2)).length
/-- A slot's counts follow its requests (AD_STATE). -/
def State.slotRefresh (s : State) (slot : Nat) : State :=
  (s.fset (.AD_STATE slot) AD_STATE.PINNED (s.pinnedCount slot)).fset (.AD_STATE slot) AD_STATE.USERS
    (s.adu.reqs.filter (fun e => e.2.names slot)).length
/-- The half of its slot that a request reads (R431). -/
def State.adapterHalf (s : State) (r : ReqRec) : Nat :=
  let h := s.fget (.AD_STATE (r.adapter.toNat % 256)) AD_STATE.HALF
  if s.pinned r then 1 - h else h
/-- A request of a slot has become FREE (R432). -/
def State.slotFreed (s : State) (slot : Nat) : State :=
  let s := s.slotRefresh slot
  if s.fget (.AD_STATE slot) AD_STATE.STATE = 2 && s.pinnedCount slot = 0 then
    (s.fset (.AD_STATE slot) AD_STATE.STATE 1).fset .WT_EVENT WT_EVENT.PIN_FREED 1
  else s

/-! Frames and page tables (R434 to R438, R441 to R445). -/

/-- KV_POOL shows the free private frames and their low mark. -/
def State.poolRefresh (s : State) : State :=
  match s.servePlan with
  | none => s
  | some pl =>
    let n := pl.frames - pl.privBase - s.adu.privUsed.length
    (s.fset .KV_POOL KV_POOL.FREE n).fset .KV_POOL KV_POOL.MIN_FREE (min n (s.fget .KV_POOL KV_POOL.MIN_FREE))
/-- The lowest free number from one on, beside a rising list of used ones. -/
def lowestFree : Nat → List (Nat × Nat) → Nat
  | f, [] => f
  | f, e :: r => if e.1 = f then lowestFree (f + 1) r else f
/-- The owner code of a private frame that a capture took (R445). -/
def capturedOwner : Nat := 262145
/-- The private frames of a request return to the pool (R438). -/
def State.freeFrames (s : State) (q : Nat) : State :=
  ({ s with adu := { s.adu with privUsed := s.adu.privUsed.filter (fun e => e.2 != q + 1) } }).poolRefresh
/-- An entry of a page table, read from LPDDR5X (R115, R435). -/
def State.pg (s : State) (pl : Plan) (q j : Nat) : Nat × State := s.dramNat (pl.pgOff q j) 4
/-- An entry of a page table written. -/
def State.setPg (s : State) (pl : Plan) (q j f : Nat) : State := s.aduWrite (pl.pgOff q j) (toLe 4 f)
/-- The pages of the module's stretch that positions `a` to `b` touch (R436). -/
def Plan.pages (pl : Plan) (a b : Nat) : List Nat :=
  let lo := max a pl.firstPos
  let hi := min b (pl.firstPos + pl.stretch - 1)
  if hi < lo then [] else (List.range ((hi - pl.firstPos) / 256 + 1 - (lo - pl.firstPos) / 256)).map (· + (lo - pl.firstPos) / 256)
/-- Private frames for the pages of a seat that have none (R436), or the pages taken so far when the pool runs out (R437). -/
def State.takeFrames (s : State) (pl : Plan) (q : Nat) : List Nat → List (Nat × Nat) → Bool × List (Nat × Nat) × State
  | [], got => (true, got, s)
  | j :: r, got =>
    let e := s.pg pl q j
    let s := e.2
    if e.1 != noId then s.takeFrames pl q r got
    else
      let f := lowestFree pl.privBase s.adu.privUsed
      if pl.frames ≤ f then (false, got, s)
      else (({ s with adu := { s.adu with privUsed := tput 0 s.adu.privUsed f (q + 1) } }).setPg pl q j f).takeFrames pl q r (got ++ [(j, f)])
/-- Frames for positions `a` to `b` of a request; frames taken return when the pool runs out (R436, R437). -/
def State.bindPages (s : State) (pl : Plan) (q a b : Nat) : Bool × State :=
  match s.takeFrames pl q (pl.pages a b) [] with
  | (true, _, s) => (true, s.poolRefresh)
  | (false, got, s) =>
    let s := got.foldl (fun s e => ({ s with adu := { s.adu with privUsed := tput 0 s.adu.privUsed e.2 0 } }).setPg pl q e.1 noId) s
    (false, (s.poolRefresh.fset .WT_EVENT WT_EVENT.POOL_DRY 1).fadd .KV_POOL KV_POOL.DRY_SEATS 1)

/-- The frames of a learned-prefix set. -/
def State.lpFramesOf (s : State) (l : Nat) : List Nat := tget [] s.adu.lpFrames l
/-- A registered frame is no longer in use. -/
def State.dropReg (s : State) (f : Nat) : State := { s with adu := { s.adu with regUsed := s.adu.regUsed.filter (· != f) } }
/-- A RELEASED learned-prefix set without references stops being VALID (R442). -/
def State.lpSettle (s : State) (l : Nat) : State :=
  let r := Reg.LP_STATE l
  if s.flag r LP_STATE.RELEASED && s.fget r LP_STATE.REFS = 0 then
    let s := (s.lpFramesOf l).foldl (fun s f => s.dropReg f) s
    ({ s with adu := { s.adu with lpFrames := tput [] s.adu.lpFrames l [] } }).setReg r 0
  else s
/-- A RELEASED handle without references stops being VALID, and its frame becomes unused (R442). -/
def State.spSettle (s : State) (h : Nat) : State :=
  let r := Reg.SP_STATE h
  if s.flag r SP_STATE.RELEASED && s.fget r SP_STATE.REFS = 0 then
    let f := s.fget r SP_STATE.FRAME
    let s := (s.dropReg f).setReg r 0
    ({ s with adu := { s.adu with privUsed := s.adu.privUsed.filter (fun e => e.1 != f || e.2 != capturedOwner) } }).poolRefresh
  else s
/-- A request drops its references (R442). -/
def State.dropRefs (s : State) (r : ReqRec) : State :=
  let s := if r.lpset.toNat < 1024 then
      (s.fset (.LP_STATE r.lpset.toNat) LP_STATE.REFS (s.fget (.LP_STATE r.lpset.toNat) LP_STATE.REFS - 1)).lpSettle r.lpset.toNat else s
  r.handles.foldl (fun s h => (s.fset (.SP_STATE h) SP_STATE.REFS (s.fget (.SP_STATE h) SP_STATE.REFS - 1)).spSettle h) s
/-- The pages of a capture (R445). -/
def ReqRec.capPages (r : ReqRec) : Nat := divUp (r.promptLen.toNat - 1) 256
/-- Whether handles from one on are all not VALID (R445). -/
def State.handlesFree (s : State) (first n : Nat) : Bool := (List.range n).all (fun i => !s.flag (.SP_STATE (first + i)) SP_STATE.VALID)
/-- The handle register of a frame. -/
def handleWord (frame fill lpset : Nat) : Nat :=
  frame + fill <<< 23 + 1 <<< 32 + (if 32768 ≤ lpset then 1 <<< 34 else (lpset % 1024) <<< 35)
/-- A capture comes to its end when its request becomes FREE (R445). -/
def State.capture (s : State) (q : Nat) : State :=
  match s.adu.captures.find? (·.1 = q), s.servePlan with
  | some c, some pl =>
    let r := s.req q
    let m := r.capPages
    let s := { s with adu := { s.adu with captures := s.adu.captures.filter (·.1 != q) } }
    if r.reason = 2 && s.handlesFree c.2 m then
      let s := (List.range m).foldl (fun s j =>
        let e := s.pg pl q j
        let f := e.1
        let s := e.2
        let fill := if j + 1 < m then 256 else r.promptLen.toNat - 1 - 256 * (m - 1)
        let s := s.setReg (.SP_STATE (c.2 + j)) (BitVec.ofNat 64 (handleWord f fill r.lpset.toNat))
        { s with adu := { s.adu with privUsed := s.adu.privUsed.map (fun e => if e.1 = f then (f, capturedOwner) else e) } }) s
      s.event 1 0 0x16 q 0
    else (s.fset .WT_EVENT WT_EVENT.CAPTURE_FAIL 1).event 1 0x0C 0x16 q 0
  | _, _ => s

/-! Mirror packets (R448). -/

/-- A mirror packet goes to every member (R448). -/
def State.mirror (s : State) (pl : Plan) (round kind count first : Nat) (records : Bytes) : State :=
  let b := toLe 8 round ++ [BitVec.ofNat 8 kind, 0] ++ toLe 2 count ++ toLe 2 first ++ List.replicate 18 0 ++ records
  pl.members.foldl (fun s m => s.sendOff .service { hdr := s.hdr oMGMT (m * 2 ^ 48 + 2 ^ 46 + 2) b.length, payload := b }) s
/-- The round whose boundary passed last. -/
def State.roundNow (s : State) : Nat := (s.reg .ADU_ROUND).toNat

/-! The end of a request (R396, R404, R405, R413). -/

/-- A request becomes FREE (R405, R432, R438, R442, R445, R448). -/
def State.becomeFree (s : State) (q : Nat) : State :=
  let r := s.req q
  let s := s.capture q
  let s := (s.freeFrames q).putReq q { r with state := qFREE, held := false, reason := 0, seat := 0xFFFF, spill := [], handles := [] }
  let s := s.dropRefs r
  let s := if r.adapter.toNat < 256 then s.slotFreed r.adapter.toNat else s
  let s := s.fset (.RING_CFG r.ring.toNat) RING_CFG.BOUND 0
  let s := s.setReg (.ADU_CANCEL (q / 64)) (s.reg (.ADU_CANCEL (q / 64)) &&& ~~~(BitVec.ofNat 64 (2 ^ (q % 64))))
  match s.servePlan with
  | none => s
  | some pl => s.mirror pl s.roundNow 2 1 0 (toLe 4 q)
/-- Requests whose final record is written and whose seat is free become FREE (R405). -/
def State.sweep (s : State) : State :=
  ((s.adu.reqs.filter (fun e => e.2.state = qENDED && e.2.finalOut && e.2.seatFreed)).map (·.1)).foldl (fun s q => s.becomeFree q) s
/-- The bindings of a request in the current round and in the halves written since (R405, R418). -/
def State.boundNow (s : State) (q : Nat) : List Nat :=
  (((s.adu.rounds.filter (fun r => s.adu.cur ≤ r.round)).flatMap (·.bindings)).filter (fun b => b.req = q)).map (·.seat)
/-- A token record is produced (R412, R414). -/
def State.produce (s : State) (q : Nat) (token : BitVec 32) (logprob flags : BitVec 16) (stage : Nat) : State :=
  let r := s.req q
  let t : TokRec := { seq := r.seq, token := token, logprob := logprob, flags := flags, stage := BitVec.ofNat 32 stage }
  ({ s with adu := { s.adu with recs := s.adu.recs ++ [(q, s.stage, t)] } }).putReq q { r with seq := r.seq + 1 }
/-- The flags of a final record (R413). -/
def finalFlags (reason : Nat) : BitVec 16 := BitVec.ofNat 16 (1 + reason <<< 4)
/-- A request is ENDED: it produces its final record and its event record (R396, R404, R405). A seat it holds or held in the current
round frees at the next round boundary. -/
def State.endReq (s : State) (q reason stage : Nat) : State :=
  let r := s.req q
  let keeps := r.seat != 0xFFFF || !(s.boundNow q).isEmpty || s.adu.privUsed.any (·.2 = q + 1)
  let s := s.produce q 0xFFFFFFFF 0 (finalFlags reason) stage
  let s := s.modReq q (fun r => { r with state := qENDED, reason := reason, held := false, seatFreed := !keeps })
  s.event 2 reason 0 q (r.known.toNat - r.promptLen.toNat)
/-- Every ENDED request's seat becomes free at a round boundary, and so do its private pages, but for those a capture takes (R405, R445). -/
def State.freeSeats (s : State) : State :=
  ((s.adu.reqs.filter (fun e => e.2.state = qENDED && !e.2.seatFreed)).map (·.1)).foldl (fun s q =>
    let s := s.modReq q (fun r => { r with seatFreed := true, seat := 0xFFFF })
    if (s.adu.captures.any (·.1 = q)) && (s.req q).reason = 2 then s else s.freeFrames q) s

/-! Release and spill (R413 to R417). -/

/-- The 16 bytes of a token record (R413). -/
def tokBytes (t : TokRec) : Bytes :=
  toLe 4 t.seq.toNat ++ toLe 4 t.token.toNat ++ toLe 2 t.logprob.toNat ++ toLe 2 t.flags.toNat ++ toLe 4 t.stage.toNat
/-- Whether a record is final. -/
def TokRec.final (t : TokRec) : Bool := t.flags.getLsbD 0
/-- A record is written into its token ring. -/
def State.toRing (s : State) (q : Nat) (t : TokRec) : State :=
  let s := s.ringPut (s.req q).ring.toNat (tokBytes t)
  if t.final then s.modReq q (fun r => { r with finalOut := true }) else s
/-- The spill area of a request in the ADU area (R399). -/
def State.spillOff (s : State) (q : Nat) : Nat := s.img.aduOff + 0x2000000 + q * 1040
/-- A record is released (R415): to the ring while it has room and nothing is spilled, else to the next entry of the spill area. -/
def State.releaseRec (s : State) (q : Nat) (t : TokRec) : State :=
  let r := s.req q
  let s := if r.spill.isEmpty && s.aduRoom r.ring.toNat rTOKEN then s.toRing q t
    else (s.aduWrite (s.spillOff q + 16 * r.spill.length) (tokBytes t)).modReq q (fun r => { r with spill := r.spill ++ [t] })
  s.modReq q (fun r => { r with relSeq := r.relSeq + 1 })
/-- An immediate clear is issued for seats of the serving partition, at every tile and every member (R235, R418, R448). -/
def State.issueClear (s : State) (seats : List Nat) : State :=
  match s.servingPart with
  | none => s
  | some p =>
    if seats.isEmpty then s
    else
      let l : SeatList := seats.map (Fin.ofNat 8192)
      let s := ((s.partTiles p).filter (fun g => s.tilePresent g)).foldl (fun s g => s.modTile g (fun t => { t with clears := t.clears ++ [l] })) s
      match (s.part p).plan with
      | none => s
      | some pl => s.mirror pl s.roundNow 3 seats.length 0 (seats.flatMap (toLe 2))
/-- A request is cancelled with a reason (R418). -/
def State.cancelReq (s : State) (q reason : Nat) : State :=
  let s := s.issueClear (s.boundNow q).eraseDups
  let s := { s with adu := { s.adu with recs := s.adu.recs.filter (·.1 != q) } }
  let s := s.modReq q (fun r => { r with seq := r.relSeq })
  let s := s.endReq q reason s.stage
  match s.adu.recs.find? (·.1 = q) with
  | none => s
  | some e => (({ s with adu := { s.adu with recs := s.adu.recs.filter (·.1 != q) } }).releaseRec q e.2.2).sweep
/-- A record due for release (R414, R417): one that has been released before is discarded, and one that would be the 65th in the spill
area is discarded and cancels its request. -/
def State.releaseDue (s : State) (q : Nat) (t : TokRec) : State :=
  let r := s.req q
  if t.seq.toNat < r.relSeq.toNat then s
  else if 64 ≤ r.spill.length && !t.final then
    ((s.cancelReq q 4).fset .ADU_STATUS ADU_STATUS.RING 1).raise { code := fRING, cls := cFLAG }
  else s.releaseRec q t
/-- The due records of one request, in order. -/
def State.releaseReq (s : State) (q : Nat) : Nat → State
  | 0 => s
  | n + 1 =>
    match s.adu.recs.find? (fun e => e.1 = q && e.2.1 < s.stage) with
    | none => s
    | some e => (({ s with adu := { s.adu with recs := s.adu.recs.erase e } }).releaseDue q e.2.2).releaseReq q n
/-- Step 4 of a boundary's work (R414): the due records of each request. -/
def State.releaseAll (s : State) : State :=
  if s.boot.sealed then s
  else
    let due := s.adu.recs.filter (fun e => e.2.1 < s.stage)
    let qs := (due.foldl (fun t e => tput 0 t e.1 1) []).map (·.1)
    qs.foldl (fun s q => s.releaseReq q due.length) s
/-- The spill area is written again from its first entry. -/
def State.writeSpill (s : State) (q : Nat) : State := s.aduWrite (s.spillOff q) ((s.req q).spill.flatMap tokBytes)
/-- Spilled records move to the ring, oldest first (R416). -/
def State.drainReq (s : State) (q : Nat) : Nat → State
  | 0 => s
  | n + 1 =>
    match (s.req q).spill with
    | [] => s
    | t :: r =>
      if s.aduRoom (s.req q).ring.toNat rTOKEN then ((s.toRing q t).modReq q (fun x => { x with spill := r })).drainReq q n else s
/-- Step 3 of a boundary's work (R414, R416). -/
def State.drainSpill (s : State) : State :=
  ((s.adu.reqs.filter (fun e => !e.2.spill.isEmpty)).map (·.1)).foldl (fun s q =>
    let n := (s.req q).spill.length
    let s := s.drainReq q n
    if (s.req q).spill.length = n then s else s.writeSpill q) s

/-! Cancellation and immediate clears (R235, R418, R419). -/

/-- ADU_CANCEL_WRITE (R418): the bits written as 1 of requests that are neither FREE nor ENDED. -/
def State.cancelWrite (s : State) (w : Nat) (a : Acc) : State :=
  s.owned a.by_ (fun s =>
    let v := accWide a &&& accMask a
    ((List.range 64).filter (fun j => v.getLsbD j)).foldl (fun s j =>
      let q := w * 64 + j
      let st := (s.req q).state
      if st = qFREE || st = qENDED then s
      else (s.setReg (.ADU_CANCEL w) (s.reg (.ADU_CANCEL w) ||| BitVec.ofNat 64 (2 ^ j))).cancelReq q 3) s |>.aduRefresh)
/-- IMMEDIATE_CLEAR_LAND (R235, R419): a clear that is on its way to the tile lands. -/
def State.clearLand (s : State) (g : Nat) (l : SeatList) : State :=
  if !(s.tile g).clears.contains l then s
  else
    let s := l.foldl (fun s i =>
      let r := Reg.SEAT_PRED g (i.val / 64)
      s.setReg r (s.reg r &&& ~~~(BitVec.ofNat 64 (2 ^ (i.val % 64))))) s
    s.modTile g (fun t => { t with
      clears := t.clears.erase l, rounds := t.rounds.map (fun r => { r with preds := r.preds.filter (fun b => !l.any (·.val = b)) }) })

/-! Writes of accounts and the read of the pool. -/

/-- ACCT_BAL_WRITE (R406): the balance waits for the next seating point. -/
def State.acctBal (s : State) (n : Nat) (a : Acc) : State :=
  s.owned a.by_ (fun s =>
    let old := match tget 0 s.adu.balWrites n with | 0 => s.reg (.ACCT_BAL n) | v + 1 => BitVec.ofNat 64 v
    { s with adu := { s.adu with balWrites := tput 0 s.adu.balWrites n (((Reg.ACCT_BAL n).info.write old a).toNat + 1) } })
/-- ACCT_CFG_WRITE (R406): a PWEIGHT outside 1 to 16 is discarded. -/
def State.acctCfgWrite (s : State) (n : Nat) (a : Acc) : State :=
  s.owned a.by_ (fun s =>
    let old := s.reg (.ACCT_CFG n)
    s.setReg (.ACCT_CFG n) (keepField ACCT_CFG.PWEIGHT old ((Reg.ACCT_CFG n).info.write old a) 1 16))
/-- KV_POOL_READ (R7, R474): a read by the owner resets MIN_FREE to FREE. -/
def State.poolRead (s : State) (p : HostPort) (z : Sz) : State :=
  let s := s.emit (.read p (readPart z (s.reg .KV_POOL)))
  if s.owner = some p.val then s.fset .KV_POOL KV_POOL.MIN_FREE (s.fget .KV_POOL KV_POOL.FREE) else s

/-- EVENT_RING_RESUME (R398) -/
def execEventRingResume (s : State) : Res := live s (fun s => (s.flushEvents s.adu.held.length).aduRefresh)
/-- ADU_CANCEL_WRITE -/
def execAduCancelWrite (w : CancelWord) (a : Acc) (s : State) : Res := live s (·.cancelWrite w a)
/-- IMMEDIATE_CLEAR_LAND -/
def execImmediateClearLand (g : Gt) (seats : SeatList) (s : State) : Res := live s (·.clearLand g seats)
/-- ACCT_BAL_WRITE -/
def execAcctBalWrite (n : Account) (a : Acc) (s : State) : Res := live s (·.acctBal n a)
/-- ACCT_CFG_WRITE -/
def execAcctCfgWrite (n : Account) (a : Acc) (s : State) : Res := live s (·.acctCfgWrite n a)
/-- KV_POOL_READ -/
def execKvPoolRead (p : HostPort) (z : Sz) (s : State) : Res := live s (·.poolRead p z)

end Sys2Proof.Machine
end

