-- ==== Sys2Proof/Machine/Commands.lean ====
section
/-! DEFINITION. The commands of the admission unit (spec/13_serving.md R394 to R398, spec/14_weights_kv.md R426 to R433, R441 to R445, R451,
R452): taking a command from a ring, the checks of each, and what an accepted one does. -/

namespace Sys2Proof.Machine

/-! Taking commands (R394, R398). -/

/-- OPCODE, a command status (R395) -/
def cOPCODE : Nat := 1
/-- FIELD -/
def cFIELD : Nat := 2
/-- NO_PLAN -/
def cNO_PLAN : Nat := 3
/-- RANGE -/
def cRANGE : Nat := 4
/-- REQ_BUSY -/
def cREQ_BUSY : Nat := 5
/-- RING -/
def cRING : Nat := 6
/-- ACCOUNT -/
def cACCOUNT : Nat := 7
/-- LENGTH -/
def cLENGTH : Nat := 8
/-- PREFIX -/
def cPREFIX : Nat := 9
/-- ADAPTER -/
def cADAPTER : Nat := 10
/-- BUSY (R452) -/
def cBUSY : Nat := 11
/-- STATE (R452) -/
def cSTATE : Nat := 12
/-- FRAME (R452) -/
def cFRAME : Nat := 13

/-- A command ring's number and whether it is in use (ADU_CTRL). -/
def State.cmdRing (s : State) : CmdRing → Nat × Bool
  | .cmd0 => (s.fget .ADU_CTRL ADU_CTRL.CMD0, s.flag .ADU_CTRL ADU_CTRL.CMD0_EN)
  | .cmd1 => (s.fget .ADU_CTRL ADU_CTRL.CMD1, s.flag .ADU_CTRL ADU_CTRL.CMD1_EN)
/-- Whether a command ring holds a command. -/
def State.holdsCmd (s : State) (c : CmdRing) : Bool :=
  let r := s.cmdRing c
  r.2 && s.ringIs r.1 rCOMMAND && 0 < s.ringHeld r.1
/-- The other command ring. -/
def otherRing : CmdRing → CmdRing
  | .cmd0 => .cmd1
  | .cmd1 => .cmd0
/-- Whether the event ring is full (R398). -/
def State.eventFull (s : State) : Bool := s.flag .ADU_CTRL ADU_CTRL.EVENT_EN && !s.aduRoom s.eventRing rEVENT
/-- Whether the unit takes its next command from a ring (R394, R398): it holds no event record, and the rings alternate while both hold
commands. Once the Steward's cores have stopped, the unit takes no command: that is the housekeeping which R501 stops (DESIGN CHOICE, log
entry 103). -/
def State.takes (s : State) (c : CmdRing) : Bool :=
  s.holdsCmd c && !s.flag .FLT_STATUS FLT_STATUS.STEWARD_UE && s.adu.held.isEmpty && !s.eventFull && (!s.holdsCmd (otherRing c) || s.adu.lastRing != some (c == .cmd1))
/-- A SUBMIT as its 64 bytes spell it (R394). -/
def submitOf (b : Bytes) : SubmitOps :=
  { flags := BitVec.ofNat 8 (leAt b 1 1), account := BitVec.ofNat 16 (leAt b 2 2), req := BitVec.ofNat 32 (leAt b 4 4)
    ring := BitVec.ofNat 32 (leAt b 8 4), promptLen := BitVec.ofNat 32 (leAt b 12 4), prompt := BitVec.ofNat 64 (leAt b 16 8)
    seed := BitVec.ofNat 64 (leAt b 24 8), maxNew := BitVec.ofNat 32 (leAt b 32 4), stopId := BitVec.ofNat 32 (leAt b 36 4)
    adapter := BitVec.ofNat 16 (leAt b 40 2), lpset := BitVec.ofNat 16 (leAt b 42 2), prefixLen := BitVec.ofNat 32 (leAt b 44 4)
    prefixList := BitVec.ofNat 64 (leAt b 48 8), tail := BitVec.ofNat 64 (leAt b 56 8) }
/-- A weight, adapter or prefix command as its 64 bytes spell it (R451). -/
def aduOpsOf (b : Bytes) : AduOps :=
  { b1 := BitVec.ofNat 8 (leAt b 1 1), b3_2 := BitVec.ofNat 16 (leAt b 2 2), b7_4 := BitVec.ofNat 32 (leAt b 4 4)
    b11_8 := BitVec.ofNat 32 (leAt b 8 4), b13_12 := BitVec.ofNat 16 (leAt b 12 2), b15_14 := BitVec.ofNat 16 (leAt b 14 2)
    b23_16 := BitVec.ofNat 64 (leAt b 16 8), tail := BitVec.ofNat 320 (leAt b 24 40) }
/-- What a row says of the entry that the unit takes: its opcode byte and the fields it uses (R394). -/
inductive CmdOps where
  | bare
  | submit (o : SubmitOps)
  | adu (o : AduOps)
  deriving DecidableEq, Repr
/-- Whether 64 bytes spell a row's command (R394). -/
def cmdMatches (b : Bytes) (op : Nat) : CmdOps → Bool
  | .bare => leAt b 0 1 = op
  | .submit o => leAt b 0 1 = op && submitOf b = o
  | .adu o => leAt b 0 1 = op && aduOpsOf b = o
/-- Whether a row's command is the next entry of a ring. The entries of a ring in this module's LPDDR5X stand there and are read (R388,
R394); those of a ring in host memory are what the row says. -/
def State.cmdEntry (s : State) (ring op : Nat) (k : CmdOps) : Bool × State :=
  if s.fget (.RING_CFG ring) RING_CFG.KIND = 1 then
    let at_ := (s.reg (.RING_BASE ring)).toNat + s.fget (.RING_IDX ring) RING_IDX.CONS % s.ringSize ring * 64
    let r := s.dramRead (at_ % 2 ^ 40) 64 (plainWho .adu)
    if cmdMatches r.1 op k then (true, r.2) else (false, s)
  else (true, s)
/-- A command's answer: its status, or none while its event record waits for its effect (R452). -/
abbrev CmdRes := Option Nat × State
/-- A command is refused with a status. -/
def State.refuseCmd (s : State) (code : Nat) : CmdRes := (some code, s)
/-- The unit takes a command from a ring and answers it with an event record (R394, R396). -/
def State.takeCmd (s : State) (c : CmdRing) (op req : Nat) (k : CmdOps) (f : State → CmdRes) : State :=
  let e := s.cmdEntry (s.cmdRing c).1 op k
  if !s.takes c || !e.1 then s
  else
    let s := e.2.ringTake (s.cmdRing c).1
    let r := f { s with adu := { s.adu with lastRing := some (c == .cmd1) } }
    let s := match r.1 with
      | none => r.2
      | some code => (if code = 0 then r.2 else r.2.fset .ADU_STATUS ADU_STATUS.CMD_REJ 1).event 1 code op req 0
    s.sweep.aduRefresh
/-- The checks that come first for every command but NOP: a member refuses it (R447), and a byte that it does not use must be 0. -/
def State.gate (s : State) (zeros : Bool) (f : Plan → State → CmdRes) : CmdRes :=
  if s.isMember then s.refuseCmd cSTATE
  else if !zeros then s.refuseCmd cFIELD
  else match s.servePlan with
    | none => s.refuseCmd cNO_PLAN
    | some pl => f pl s

/-! SUBMIT (R394, R395, R429, R435, R443, R444). -/

/-- Handles of the prefix list, or none where the list extends past LPDDR5X (R443). -/
def State.readHandles (s : State) (off n : Nat) : Option (List Nat) × State :=
  if dramSize < off + 4 * n then (none, s)
  else
    let r := s.dramRead off (4 * n) (plainWho .adu)
    (some ((List.range n).map (fun i => leAt r.1 (4 * i) 4)), r.2)
/-- Whether a handle may be a request's page `i` of `n` (R443). -/
def State.handleOk (s : State) (o : SubmitOps) (n i h : Nat) : Bool :=
  let r := Reg.SP_STATE h
  let fill := s.fget r SP_STATE.FILL
  h < 65536 && s.flag r SP_STATE.VALID && !s.flag r SP_STATE.RELEASED
    && (if s.flag r SP_STATE.LP_NONE then o.lpset.getLsbD 15 else !o.lpset.getLsbD 15 && s.fget r SP_STATE.LPSET = o.lpset.toNat)
    && (if i + 1 < n then fill = 256 else o.prefixLen.toNat - 256 * (n - 1) ≤ fill)
/-- PREFIX refusals of SUBMIT (R443): the handles of an acceptable prefix. -/
def State.prefixCheck (s : State) (pl : Plan) (o : SubmitOps) : Option (List Nat) × State :=
  let lp := Reg.LP_STATE o.lpset.toNat
  let lpOk := o.lpset.getLsbD 15 || (s.flag lp LP_STATE.VALID && !s.flag lp LP_STATE.RELEASED)
  let n := divUp o.prefixLen.toNat 256
  if !lpOk || pl.stretch < o.prefixLen.toNat then (none, s)
  else if n = 0 then (some [], s)
  else match s.readHandles o.prefixList.toNat n with
    | (none, s) => (none, s)
    | (some l, s) => if (List.range n).all (fun i => s.handleOk o n i (l.getD i 65536)) then (some l, s) else (none, s)
/-- The page table of an accepted request (R435, R444). -/
def State.pageTableBytes (s : State) (pl : Plan) (o : SubmitOps) (l : List Nat) : Bytes :=
  let none_ := o.lpset.getLsbD 15
  let lps := if none_ then [] else s.lpFramesOf o.lpset.toNat
  let lpLen := if none_ then 0 else s.fget (.LP_STATE o.lpset.toNat) LP_STATE.LEN
  let frames := l.map (fun h => s.fget (.SP_STATE h) SP_STATE.FRAME)
  let tail := o.prefixLen.toNat % 256
  let pgs := if tail = 0 then frames else frames.dropLast
  toLe 4 o.req.toNat ++ toLe 4 lpLen ++ toLe 4 o.prefixLen.toNat ++ toLe 4 (if tail = 0 then noId else frames.getLastD noId)
    ++ toLe 4 tail ++ toLe 4 pl.firstPos ++ List.replicate 40 0
    ++ (List.range 16).flatMap (fun i => toLe 4 (lps.getD i noId))
    ++ (List.range (pl.stretch / 256)).flatMap (fun j => toLe 4 (pgs.getD j noId))
/-- An INT32 id of a prompt; where the prompt lies beyond LPDDR5X the spec states none (log entry 35). -/
def State.promptId (s : State) (off : Nat) : Nat × State :=
  if off + 4 ≤ dramSize then let r := s.dramRead off 4 (plainWho .adu); (leNat r.1, r.2)
  else let r := s.freeBytes 4; (leNat r.1, r.2)
/-- A SUBMIT is accepted (R395, R429, R435, R442, R444). -/
def State.admitSubmit (s : State) (pl : Plan) (o : SubmitOps) (l : List Nat) : State :=
  let q := o.req.toNat
  let last := s.promptId (o.prompt.toNat + 4 * (o.promptLen.toNat - 1 - o.prefixLen.toNat))
  let s := last.2
  let slot := o.adapter.toNat
  let hs := l.eraseDups
  let s := s.aduWrite (pl.pageTable q) (s.pageTableBytes pl o l)
  let r : ReqRec := {
    state := qWAITING, pin := o.flags.getLsbD 0, account := o.account, ring := o.ring, promptLen := o.promptLen, nextFill := o.prefixLen
    commit := o.prefixLen, known := o.promptLen, maxNew := o.maxNew, stopId := o.stopId, adapter := o.adapter
    adapterGen := if slot < 256 then BitVec.ofNat 8 (s.fget (.AD_STATE slot) AD_STATE.GEN) else 0
    lpset := o.lpset, seed := o.seed, prompt := o.prompt, admitted := s.adu.admitNext, prefixLen := o.prefixLen, prefixList := o.prefixList
    lastId := BitVec.ofNat 32 last.1, handles := hs }
  let s := { s with adu := { s.adu with admitNext := s.adu.admitNext + 1 } }
  let s := (s.putReq q r).fadd .ADU_STATUS ADU_STATUS.SUBMITS 1
  let s := (s.fset (.RING_CFG o.ring.toNat) RING_CFG.REQ q).fset (.RING_CFG o.ring.toNat) RING_CFG.BOUND 1
  let s := if o.lpset.getLsbD 15 then s else s.fadd (.LP_STATE o.lpset.toNat) LP_STATE.REFS 1
  let s := hs.foldl (fun s h => s.fadd (.SP_STATE h) SP_STATE.REFS 1) s
  if slot < 256 then s.slotRefresh slot else s
/-- SUBMIT (R395): the first row of the status table that applies. -/
def State.submit (s : State) (o : SubmitOps) : CmdRes :=
  s.gate (o.flags &&& 0xFE == 0 && o.tail == 0) (fun pl s =>
    let ring := o.ring.toNat
    let bad (w : BitVec 16) (n : Nat) : Bool := !w.getLsbD 15 && n ≤ w.toNat
    if 262144 ≤ o.req.toNat || 4096 ≤ o.account.toNat || bad o.adapter 256 || bad o.lpset 1024 then s.refuseCmd cRANGE
    else if (s.req o.req.toNat).state != qFREE then s.refuseCmd cREQ_BUSY
    else if !s.ringIs ring rTOKEN || s.flag (.RING_CFG ring) RING_CFG.BOUND then s.refuseCmd cRING
    else if s.acctCfg o.account.toNat ACCT_CFG.WEIGHT = 0 then s.refuseCmd cACCOUNT
    else if o.promptLen = 0 || o.promptLen.toNat ≤ o.prefixLen.toNat || pl.posLimit < o.promptLen.toNat + o.maxNew.toNat then s.refuseCmd cLENGTH
    else match s.prefixCheck pl o with
      | (none, s) => s.refuseCmd cPREFIX
      | (some l, s) =>
        if !o.adapter.getLsbD 15 && s.fget (.AD_STATE o.adapter.toNat) AD_STATE.STATE = 0 then s.refuseCmd cADAPTER
        else (some 0, s.admitSubmit pl o l))

/-! Switches and slots (R426 to R433). -/

/-- The operand bytes that a command does not use are 0 (R451): one flag for each field it uses. -/
def AduOps_zeros (o : AduOps) (u32 u74 u118 u1312 u1514 u2316 : Bool) : Bool :=
  o.b1 == 0 && (u32 || o.b3_2 == 0) && (u74 || o.b7_4 == 0) && (u118 || o.b11_8 == 0) && (u1312 || o.b13_12 == 0) && (u1514 || o.b15_14 == 0)
    && (u2316 || o.b23_16 == 0) && o.tail == 0
/-- A switch becomes pending (R426). -/
def State.addSwitch (s : State) (x : Switch) : State := { s with adu := { s.adu with switches := s.adu.switches ++ [x] } }
/-- WS_SWITCH (R421, R426, R452). -/
def State.wsSwitch (s : State) (o : AduOps) : CmdRes :=
  s.gate (AduOps_zeros o true false false false false false) (fun _ s =>
    let w := o.b3_2.toNat
    if 64 ≤ w then s.refuseCmd cRANGE
    else if !s.flag (.WS_STATE w) WS_STATE.VALID || !s.flag (.WS_STATE w) WS_STATE.TWO then s.refuseCmd cSTATE
    else if s.flag (.WS_STATE w) WS_STATE.PENDING then s.refuseCmd cBUSY
    else (none, (s.addSwitch (.ws w)).fset (.WS_STATE w) WS_STATE.PENDING 1))
/-- AD_SWITCH (R430). -/
def State.adSwitch (s : State) (o : AduOps) : CmdRes :=
  s.gate (AduOps_zeros o true false false false false false) (fun _ s =>
    let x := o.b3_2.toNat
    if 256 ≤ x then s.refuseCmd cRANGE
    else if s.flag (.AD_STATE x) AD_STATE.PENDING || s.fget (.AD_STATE x) AD_STATE.STATE = 2 then s.refuseCmd cBUSY
    else (none, (s.addSwitch (.ad x)).fset (.AD_STATE x) AD_STATE.PENDING 1))
/-- AD_CLEAR (R433): the slot becomes EMPTY and keeps its generation. -/
def State.adClear (s : State) (o : AduOps) : CmdRes :=
  s.gate (AduOps_zeros o true false false false false false) (fun _ s =>
    let x := o.b3_2.toNat
    if 256 ≤ x then s.refuseCmd cRANGE
    else if s.flag (.AD_STATE x) AD_STATE.PENDING || s.adu.reqs.any (fun e => e.2.names x) then s.refuseCmd cBUSY
    else (some 0, s.fset (.AD_STATE x) AD_STATE.STATE 0))
/-- A pending switch takes effect at a seating point (R426, R430), and its event record is produced. -/
def State.applySwitch (s : State) : Switch → State
  | .ws w =>
    let r := Reg.WS_STATE w
    ((s.fset r WS_STATE.HALF (1 - s.fget r WS_STATE.HALF)).fadd r WS_STATE.GEN 1).fset r WS_STATE.PENDING 0
  | .ad x =>
    let r := Reg.AD_STATE x
    let s := s.fset r AD_STATE.PENDING 0
    if s.fget r AD_STATE.STATE = 0 then (((s.fset r AD_STATE.STATE 1).fset r AD_STATE.HALF 0).fset r AD_STATE.GEN 1).slotRefresh x
    else
      let s := ((s.fadd r AD_STATE.GEN 1).fset r AD_STATE.HALF (1 - s.fget r AD_STATE.HALF)).slotRefresh x
      s.fset r AD_STATE.STATE (if 0 < s.pinnedCount x then 2 else 1)
/-- The opcode of a switch. -/
def switchOp : Switch → Nat
  | .ws _ => 0x10
  | .ad _ => 0x11

/-! Learned prefixes and handles (R441 to R445). -/

/-- Whether a frame is a registered frame not in use (R434, R452). -/
def State.frameFree (s : State) (pl : Plan) (f : Nat) : Bool := f < pl.privBase && !s.adu.regUsed.contains f
/-- Registered frames are taken into use. -/
def State.useReg (s : State) (l : List Nat) : State := { s with adu := { s.adu with regUsed := s.adu.regUsed ++ l } }
/-- LP_REGISTER (R441). -/
def State.lpRegister (s : State) (o : AduOps) : CmdRes :=
  s.gate (AduOps_zeros o true true false false false true) (fun pl s =>
    let l := o.b3_2.toNat
    let len := o.b7_4.toNat
    let n := divUp len 256
    let off := o.b23_16.toNat
    if 1024 ≤ l || len = 0 || 4096 < len then s.refuseCmd cRANGE
    else if s.flag (.LP_STATE l) LP_STATE.VALID then s.refuseCmd cSTATE
    else if dramSize < off + 4 * n then s.refuseCmd cFRAME
    else
      let r := s.dramRead off (4 * n) (plainWho .adu)
      let fs := (List.range n).map (fun i => leAt r.1 (4 * i) 4)
      let s := r.2
      if !fs.all (fun f => s.frameFree pl f) || fs.eraseDups.length != n then s.refuseCmd cFRAME
      else
        let s := { s.useReg fs with adu := { (s.useReg fs).adu with lpFrames := tput [] s.adu.lpFrames l fs } }
        (some 0, (s.setReg (.LP_STATE l) 0).fset (.LP_STATE l) LP_STATE.VALID 1 |>.fset (.LP_STATE l) LP_STATE.LEN len))
/-- LP_RELEASE (R442). -/
def State.lpRelease (s : State) (o : AduOps) : CmdRes :=
  s.gate (AduOps_zeros o true false false false false false) (fun _ s =>
    let l := o.b3_2.toNat
    if 1024 ≤ l then s.refuseCmd cRANGE
    else if !s.flag (.LP_STATE l) LP_STATE.VALID || s.flag (.LP_STATE l) LP_STATE.RELEASED then s.refuseCmd cSTATE
    else (some 0, (s.fset (.LP_STATE l) LP_STATE.RELEASED 1).lpSettle l))
/-- SP_REGISTER (R441). -/
def State.spRegister (s : State) (o : AduOps) : CmdRes :=
  s.gate (AduOps_zeros o false true true true true false) (fun pl s =>
    let h := o.b7_4.toNat
    let f := o.b11_8.toNat
    let fill := o.b13_12.toNat
    if 65536 ≤ h || fill = 0 || 256 < fill || (!o.b15_14.getLsbD 15 && 1024 ≤ o.b15_14.toNat) then s.refuseCmd cRANGE
    else if s.flag (.SP_STATE h) SP_STATE.VALID then s.refuseCmd cSTATE
    else if !s.frameFree pl f then s.refuseCmd cFRAME
    else (some 0, (s.useReg [f]).setReg (.SP_STATE h) (BitVec.ofNat 64 (handleWord f fill o.b15_14.toNat))))
/-- SP_CAPTURE (R445). -/
def State.spCapture (s : State) (o : AduOps) : CmdRes :=
  s.gate (AduOps_zeros o false true true false false false) (fun pl s =>
    let q := o.b7_4.toNat
    let first := o.b11_8.toNat
    let r := s.req q
    let m := r.capPages
    if 262144 ≤ q || 65536 ≤ first then s.refuseCmd cRANGE
    else if !(r.state = qWAITING || r.state = qPREFILL) || r.prefixLen != 0 || r.maxNew != 0 || r.promptLen.toNat < 2 || 1 < pl.group.1
        || s.adu.captures.any (·.1 = q) then s.refuseCmd cSTATE
    else if 65536 < first + m then s.refuseCmd cRANGE
    else if !s.handlesFree first m then s.refuseCmd cSTATE
    else (none, { s with adu := { s.adu with captures := s.adu.captures ++ [(q, first)] } }))
/-- SP_RELEASE (R442). -/
def State.spRelease (s : State) (o : AduOps) : CmdRes :=
  s.gate (AduOps_zeros o false true false false false false) (fun _ s =>
    let h := o.b7_4.toNat
    if 65536 ≤ h then s.refuseCmd cRANGE
    else if !s.flag (.SP_STATE h) SP_STATE.VALID || s.flag (.SP_STATE h) SP_STATE.RELEASED then s.refuseCmd cSTATE
    else (some 0, (s.fset (.SP_STATE h) SP_STATE.RELEASED 1).spSettle h))
/-- An opcode that no command has (R394, R451). -/
def State.reservedOp (s : State) : CmdRes := if s.isMember then s.refuseCmd cSTATE else s.refuseCmd cOPCODE
/-- Whether an opcode is reserved. -/
def opReserved (op : Nat) : Bool := !(op ≤ 1 || (0x10 ≤ op && op ≤ 0x17))

/-- NOP (R394, R396): it produces no event record. -/
def execNop (c : CmdRing) (s : State) : Res := live s (·.takeCmd c 0 noId .bare (fun s => (none, s)))
/-- SUBMIT -/
def execSubmit (c : CmdRing) (o : SubmitOps) (s : State) : Res := live s (·.takeCmd c 1 o.req.toNat (.submit o) (·.submit o))
/-- ADU_RESERVED_OPCODE -/
def execAduReservedOpcode (c : CmdRing) (op : Byte) (s : State) : Res :=
  live s (fun s => if opReserved op.toNat then s.takeCmd c op.toNat noId .bare (·.reservedOp) else s)
/-- WS_SWITCH -/
def execWsSwitch (c : CmdRing) (o : AduOps) (s : State) : Res := live s (·.takeCmd c 0x10 noId (.adu o) (·.wsSwitch o))
/-- AD_SWITCH -/
def execAdSwitch (c : CmdRing) (o : AduOps) (s : State) : Res := live s (·.takeCmd c 0x11 noId (.adu o) (·.adSwitch o))
/-- AD_CLEAR -/
def execAdClear (c : CmdRing) (o : AduOps) (s : State) : Res := live s (·.takeCmd c 0x12 noId (.adu o) (·.adClear o))
/-- LP_REGISTER -/
def execLpRegister (c : CmdRing) (o : AduOps) (s : State) : Res := live s (·.takeCmd c 0x13 noId (.adu o) (·.lpRegister o))
/-- LP_RELEASE -/
def execLpRelease (c : CmdRing) (o : AduOps) (s : State) : Res := live s (·.takeCmd c 0x14 noId (.adu o) (·.lpRelease o))
/-- SP_REGISTER -/
def execSpRegister (c : CmdRing) (o : AduOps) (s : State) : Res := live s (·.takeCmd c 0x15 noId (.adu o) (·.spRegister o))
/-- SP_CAPTURE -/
def execSpCapture (c : CmdRing) (o : AduOps) (s : State) : Res := live s (·.takeCmd c 0x16 o.b7_4.toNat (.adu o) (·.spCapture o))
/-- SP_RELEASE -/
def execSpRelease (c : CmdRing) (o : AduOps) (s : State) : Res := live s (·.takeCmd c 0x17 noId (.adu o) (·.spRelease o))

end Sys2Proof.Machine
end

