-- ==== Sys2Proof/Machine/Seating.lean ====
section
/-! DEFINITION. Rounds (spec/13_serving.md R400 to R414, spec/14_weights_kv.md R425 to R427, R436, R437, R448, R449, spec/18_faults.md R532):
seating points, commits and results, mirrored rounds at a member, and what a load, an unload and a resume do to the admission unit. -/

namespace Sys2Proof.Machine

/-! Where the serving partition stands (R400, R529, R588). -/

/-- The number of the boundary that has just passed: the stage that it starts, or a negative number before the module epoch. -/
def State.boundaryIx (s : State) : Option Int :=
  if !s.time.epochSet then none
  else if s.time.arrived then some s.stage
  else some ((s.time.ns.toNat - (s.reg .FT_EPOCH).toNat : Int) / s.stageNs)
/-- The serving partition with its plan and round template, while it is LOADED or RUNNING. -/
def State.serving (s : State) : Option (Nat × Plan × RoundT) :=
  match s.servingPart with
  | none => none
  | some p => match (s.part p).plan with
    | none => none
    | some pl => match pl.round with
      | none => none
      | some rt => if s.pstate p = pHALTED then none else some (p, pl, rt)
/-- The round whose seating point the boundary is (R401, R532). -/
def State.seatingRound (s : State) : Option (Nat × Plan × RoundT × Nat) :=
  match s.boundaryIx, s.serving with
  | some i, some (p, pl, rt) =>
    let ps := i - (s.part p).shift + rt.lead
    if ((s.part p).start : Int) ≤ i + rt.lead && 0 ≤ ps && ps % rt.len = 0 then some (p, pl, rt, (ps / rt.len).toNat) else none
  | _, _ => none
/-- The stage with which a round begins. -/
def State.roundStage (s : State) (p : Nat) (rt : RoundT) (r : Nat) : Nat := ((r * rt.len : Nat) + (s.part p).shift : Int).toNat
/-- At a round boundary ADU_ROUND takes the round, and the seats of ENDED requests become free (R405, ADU_ROUND). A member keeps a round
until every region has passed the work edge of its first stage (R449). -/
def State.roundBoundary (s : State) : State :=
  match s.serving with
  | none => s
  | some (p, _, rt) =>
    let ps := s.planStage p s.stage
    if s.pstate p = pRUNNING && s.time.arrived && 0 ≤ ps && ps % rt.len = 0 then
      let r := (ps / rt.len).toNat
      let s := (s.setReg .ADU_ROUND (BitVec.ofNat 64 r)).freeSeats
      let edge (x : RoundSt) : Bool := (s.partRgns p).any (fun n => (s.rgn n).next ≤ s.roundStage p rt x.round)
      let keep (x : RoundSt) : Bool := !x.done || r ≤ x.round + 1 || (s.isMember && edge x)
      ({ s with adu := { s.adu with cur := r, rounds := s.adu.rounds.filter keep } }).sweep
    else s

/-! Account writes and switches (R406, R427). -/

/-- Account writes take effect (R406). -/
def State.applyAccounts (s : State) : State :=
  let bal := s.adu.balWrites
  let s := bal.foldl (fun s e => s.setReg (.ACCT_BAL e.1) (BitVec.ofNat 64 (e.2 - 1))) s
  let r0 := (Reg.ACCT_CFG 0).info.reset
  let live_ := (List.range 4096).filterMap (fun a => let v := s.reg (.ACCT_CFG a); if v = r0 then none else some (a, v))
  { s with adu := { s.adu with balWrites := [], rem := bal.foldl (fun t e => tput 0 t e.1 0) s.adu.rem, cfgLive := live_ } }
/-- The selector half of a round (R425). -/
def State.selectorBytes (s : State) : Bytes :=
  (List.range 64).flatMap (fun w =>
    let r := Reg.WS_STATE w
    if s.flag r WS_STATE.VALID then toLe 8 (s.fget r WS_STATE.HALF + 2 + s.fget r WS_STATE.GEN <<< 8) else toLe 8 0)
/-- Pending switches take effect in the order of their acceptance, the selector half is written, and their event records follow (R425 to
R427). -/
def State.applySwitches (s : State) (pl : Plan) (r : Nat) : State :=
  let l := s.adu.switches
  let s := l.foldl (fun s x => s.applySwitch x) { s with adu := { s.adu with switches := [] } }
  let s := s.aduWrite (pl.selBase + r % 2 * 0x200) s.selectorBytes
  l.foldl (fun s x => s.event 1 0 (switchOp x) noId 0) s

/-! Rationing and picks (R406 to R409). -/

/-- Accounts are refilled (R406). -/
def State.refill (s : State) (rt : RoundT) : State :=
  let roundNs := rt.len * s.stageNs
  s.adu.cfgLive.foldl (fun s e =>
    let a := e.1
    if s.acctCfg a ACCT_CFG.WEIGHT = 0 then s
    else
      let rate := s.acctCfg a ACCT_CFG.RATE
      let x := rate * 16 * roundNs + tget 0 s.adu.rem a
      let s := s.setBalance a (min (s.balance a + (x / 1000000000 : Nat)) (rate * 16 : Nat))
      { s with adu := { s.adu with rem := tput 0 s.adu.rem a (x % 1000000000) } }) s
/-- Whether an account is eligible for admission and prefill (R407, R408). -/
def State.eligible (s : State) (a : Nat) : Bool := if s.wrr then 0 < s.acctCfg a ACCT_CFG.WEIGHT else 0 < s.balance a
/-- The distinct eligible accounts of some requests, rising. -/
def State.eligAccounts (s : State) (qs : List Nat) : List Nat :=
  ((qs.map (fun q => (s.req q).account.toNat)).foldl (fun t a => tput 0 t a 1) []).map (·.1) |>.filter (fun a => s.eligible a)
/-- The account picked from the eligible ones, and the current values after the pick (R409). -/
def pickAccount (w : Nat → Nat) (e : List Nat) (cur : List (Nat × Int)) : Option (Nat × List (Nat × Int)) :=
  let cur := e.foldl (fun t a => tput 0 t a (tget 0 t a + (w a : Int))) cur
  let total : Nat := (e.map w).sum
  match e with
  | [] => none
  | a0 :: r =>
    let a := r.foldl (fun b a => if tget 0 cur b < tget 0 cur a then a else b) a0
    some (a, tput 0 cur a (tget 0 cur a - (total : Int)))

/-! The steps of a seating point (R403). -/

/-- Decode seats that no request holds (R403, R405). -/
def State.freeDecode (s : State) (rt : RoundT) : List Nat :=
  (List.range rt.seats.length).filter (fun i =>
    (match rt.seats[i]? with | some t => !t.prefill | none => false) && !s.adu.reqs.any (fun e => e.2.state != qFREE && e.2.seat.toNat = i))
/-- A READY request takes the lowest free decode seat; one with MAX_NEW 0 ends instead (R403, R404). -/
def State.takeSeat (s : State) (rt : RoundT) (q : Nat) : State :=
  if (s.req q).maxNew = 0 then s.endReq q 2 s.stage
  else match s.freeDecode rt with
    | [] => s
    | i :: _ => s.modReq q (fun r => { r with state := qDECODE, seat := BitVec.ofNat 16 i })
/-- PREFILL requests whose last chunk has committed become READY, and READY ones take seats in admission order (R403 step 3, R404). -/
def State.seatReady (s : State) (rt : RoundT) : State :=
  let s := ((s.inState qPREFILL).filter (fun q => (s.req q).filled)).foldl (fun s q => s.modReq q (fun r => { r with state := qREADY })) s
  (s.inState qREADY).foldl (fun s q => s.takeSeat rt q) s
/-- Admission (R403 step 4), with `fuel` admissions at most. -/
def State.admission (s : State) (rt : RoundT) : Nat → State
  | 0 => s
  | n + 1 =>
    if (s.freeDecode rt).length ≤ s.countState qPREFILL then s
    else
      let waiting := s.inState qWAITING
      match pickAccount (fun a => s.acctCfg a ACCT_CFG.WEIGHT) (s.eligAccounts waiting) s.adu.curAdmit with
      | none => s
      | some (a, cur) =>
        let s := { s with adu := { s.adu with curAdmit := cur } }
        match waiting.find? (fun q => (s.req q).account.toNat = a) with
        | none => s
        | some q =>
          let r := s.req q
          let s := if r.prefixLen + 1 = r.promptLen then (s.putReq q { r with state := qREADY }).takeSeat rt q
            else s.putReq q { r with state := qPREFILL }
          s.admission rt n
/-- One prefill seat takes a chunk (R403 step 5, R406). -/
def State.prefillSeat (s : State) (i chunk : Nat) (bs : List Binding) : List Binding × State :=
  let work := (s.inState qPREFILL).filter (fun q => !bs.any (·.req = q) && (s.req q).nextFill.toNat + 1 < (s.req q).promptLen.toNat)
  match pickAccount (fun a => s.acctCfg a ACCT_CFG.WEIGHT) (s.eligAccounts work) s.adu.curFill with
  | none => (bs, s)
  | some (a, cur) =>
    let s := { s with adu := { s.adu with curFill := cur } }
    match work.find? (fun q => (s.req q).account.toNat = a) with
    | none => (bs, s)
    | some q =>
      let r := s.req q
      let start := r.nextFill.toNat
      let n := min chunk (r.promptLen.toNat - 1 - start)
      let x : Int := if s.wrr then 0 else (n * s.acctCfg a ACCT_CFG.PWEIGHT : Nat)
      let s := (s.putReq q { r with nextFill := BitVec.ofNat 32 (start + n) }).charge a x
      (bs ++ [{ seat := i, req := q, prefill := true, active := true, start := start, count := n, seed := r.seed, charge := x }], s)
/-- Whether a prefill seat is bound in the current round, or later, to a request that has ENDED and keeps it until the round boundary (R405). -/
def State.fillBlocked (s : State) (i : Nat) : Bool :=
  (s.adu.rounds.filter (fun r => s.adu.cur ≤ r.round)).any (fun r =>
    r.bindings.any (fun b => b.seat = i && (s.req b.req).state = qENDED && !(s.req b.req).seatFreed))
/-- The prefill seats in ascending order (R403 step 5). -/
def State.prefillSeats (s : State) (rt : RoundT) : List Binding × State :=
  (List.range rt.seats.length).foldl (fun (x : List Binding × State) i =>
    match rt.seats[i]? with
    | some t => if t.prefill && !x.2.fillBlocked i then x.2.prefillSeat i t.chunk x.1 else x
    | none => x) ([], s)
/-- Whether a DECODE request is held (R407, R412): its account has reached its floor, or its last result has not committed. -/
def State.heldNow (s : State) (q : Nat) : Bool :=
  let a := (s.req q).account.toNat
  (!s.wrr && s.balance a ≤ -((16 * s.acctCfg a ACCT_CFG.FLOOR : Nat) : Int))
    || s.adu.rounds.any (fun r => !r.done && r.bindings.any (fun b => b.req = q && b.active && !b.prefill))
/-- The decode seats of DECODE requests (R403 steps 2, 3 and 6). -/
def State.decodeSeats (s : State) (rt : RoundT) : List Binding × State :=
  (List.range rt.seats.length).foldl (fun (x : List Binding × State) i =>
    match rt.seats[i]?, x.2.adu.reqs.find? (fun e => e.2.state = qDECODE && e.2.seat.toNat = i) with
    | some t, some e =>
      let held := x.2.heldNow e.1
      (x.1 ++ [{ seat := i, req := e.1, prefill := false, active := !held, start := e.2.known.toNat, count := t.ncand, seed := e.2.seed, charge := 0 }],
        x.2.modReq e.1 (fun r => { r with held := held }))
    | _, _ => x) ([], s)
/-- A bound seat gets its frames, or is not bound for the round (R436, R437). -/
def State.seatPages (s : State) (pl : Plan) (b : Binding) : List Binding × State :=
  let x := if b.prefill then s.bindPages pl b.req b.start (b.start + b.count - 1) else s.bindPages pl b.req (b.start - 1) (b.start + b.count - 2)
  match x with
  | (true, s) => ([b], s)
  | (false, s) =>
    if b.prefill then
      ([], (s.modReq b.req (fun r => { r with nextFill := BitVec.ofNat 32 b.start })).charge (s.req b.req).account.toNat (-b.charge))
    else ([], s.modReq b.req (fun r => { r with held := true }))

/-! What a round writes (R235, R401, R402, R431, R440, R448). -/

/-- The 64 bytes of a binding record (R401). -/
def State.bindingBytes (s : State) (pl : Plan) (b : Binding) : Bytes :=
  let r := s.req b.req
  toLe 4 b.req ++ [BitVec.ofNat 8 (b2n b.prefill), BitVec.ofNat 8 (b2n b.active)] ++ toLe 2 r.account.toNat ++ toLe 4 b.start ++ toLe 4 b.count
    ++ toLe 4 (if b.prefill then b.start else b.start - 1) ++ toLe 4 (if b.prefill then 0 else r.lastId.toNat) ++ toLe 8 r.seed.toNat
    ++ toLe 8 (if b.prefill then r.prompt.toNat + 4 * (b.start - r.prefixLen.toNat) else 0) ++ toLe 8 (pl.pageTable b.req)
    ++ [r.adapter.setWidth 8, BitVec.ofNat 8 (s.adapterHalf r)] ++ toLe 2 (if r.lpset.getLsbD 15 then 0xFFFF else r.lpset.toNat)
    ++ List.replicate 12 0
/-- The record of a seat without a request. -/
def emptyBinding : Bytes := toLe 4 noId ++ List.replicate 60 0
/-- Where a binding half lies (R399). -/
def State.bindingOff (s : State) (r : Nat) : Nat := s.img.aduOff + 0x12400000 + r % 2 * 0x80000
/-- A round write reaches every tile of the partition (R235, R401, R402). -/
def State.issueRound (s : State) (p stage : Nat) (bs : List Binding) : State :=
  let w : RoundWrite := {
    stage := stage, preds := (bs.filter (·.active)).map (·.seat)
    keys := bs.map (fun b => (b.seat, { req := some (BitVec.ofNat 32 b.req), seed := b.seed, start := BitVec.ofNat 32 b.start })) }
  ((s.partTiles p).filter (fun g => s.tilePresent g)).foldl (fun s g => s.modTile g (fun t => { t with rounds := t.rounds ++ [w] })) s
/-- Runs of consecutive seats, of at most 63 (R448). -/
def seatRuns : List Binding → List (List Binding)
  | [] => []
  | b :: r =>
    match seatRuns r with
    | [] => [[b]]
    | x :: l => match x with
      | [] => [b] :: l
      | c :: _ => if c.seat = b.seat + 1 && x.length < 63 then (b :: x) :: l else [b] :: x :: l
/-- The mirror packets of a round: its binding records and its selector half (R448). -/
def State.mirrorRound (s : State) (pl : Plan) (r : Nat) (bs : List Binding) : State :=
  let s := (seatRuns bs).foldl (fun s x => s.mirror pl r 0 x.length ((x.head?.map (·.seat)).getD 0) (x.flatMap (fun b => s.bindingBytes pl b))) s
  s.mirror pl r 1 1 0 s.selectorBytes
/-- A binding in seat order. -/
def insertSeat (b : Binding) : List Binding → List Binding
  | [] => [b]
  | c :: r => if c.seat < b.seat then c :: insertSeat b r else b :: c :: r
/-- The seating point of a round at the home (R401, R403, R406, R408, R425 to R427, R436, R448). -/
def State.seat (s : State) (p : Nat) (pl : Plan) (rt : RoundT) (r : Nat) : State :=
  let s := (s.applyAccounts).applySwitches pl r
  let s := if s.wrr then s else s.refill rt
  let s := s.seatReady rt
  let s := s.admission rt (s.countState qWAITING)
  let x := s.prefillSeats rt
  let y := x.2.decodeSeats rt
  let bs := y.1.foldl (fun l b => insertSeat b l) x.1
  let z : List Binding × State := bs.foldl (fun (a : List Binding × State) b => let c := a.2.seatPages pl b; (a.1 ++ c.1, c.2)) ([], y.2)
  let bs := z.1
  let s := z.2
  let half := (List.range rt.seats.length).flatMap (fun i => match bs.find? (·.seat = i) with | some b => s.bindingBytes pl b | none => emptyBinding)
  let s := s.aduWrite (s.bindingOff r) half
  let old := s.adu.rounds.filter (fun x => x.round != r)
  let new : RoundSt := { round := r, bindings := bs, done := false, issued := true }
  let s := { s with adu := { s.adu with rounds := old ++ [new], wrrLeft := s.adu.wrrLeft - 1 } }
  (s.issueRound p (s.roundStage p rt r) bs).mirrorRound pl r bs
/-- Step 5 of a boundary's work (R403, R414, R524): a seating point of the home. -/
def State.seatingPoint (s : State) : State :=
  match s.seatingRound with
  | none => s
  | some (p, pl, rt, r) => if s.isMember then s else s.seat p pl rt r

/-! Results (R410 to R412). -/

/-- The results of one seat (R412): `cand` gives each candidate's id and LOGPROB, from the one it has reached. -/
def State.takeCands (s : State) (q stage : Nat) : List (BitVec 32 × BitVec 16) → State
  | [] => s
  | c :: l =>
    if c.1 = 0xFFFFFFFF then s.endReq q 5 stage
    else
      let s := s.produce q c.1 c.2 0 stage
      let s := (s.modReq q (fun r => { r with known := r.known + 1, lastId := c.1 })).charge (s.req q).account.toNat 16
      let r := s.req q
      if c.1 = r.stopId then s.endReq q 1 stage
      else if r.known - r.promptLen = r.maxNew then s.endReq q 2 stage
      else s.takeCands q stage l
/-- The number of drafts accepted (R412): `drafts` from DRAFT[1] on, against the candidates. -/
def accepted : List (BitVec 32) → List (BitVec 32 × BitVec 16) → Nat
  | d :: dr, c :: cr => if d = c.1 then 1 + accepted dr cr else 0
  | _, _ => 0
/-- The result entry of a decode seat is processed (R410, R412): only its first NCAND candidates and NCAND − 1 drafts are read. -/
def State.result (s : State) (r stage : Nat) (b : Binding) : State :=
  let at_ := s.img.aduOff + 0x12500000 + r % 2 * 0x240000 + b.seat * 288
  let d := s.dramRead (at_ + 4) (4 * (b.count - 1)) (plainWho .adu)
  let e := d.2.dramRead (at_ + 32) (32 * b.count) (plainWho .adu)
  let i32 (x : Bytes) (o : Nat) : BitVec 32 := BitVec.ofNat 32 (leAt x o 4)
  let cands := (List.range b.count).map (fun j => (i32 e.1 (32 * j + 4), BitVec.ofNat 16 (leAt e.1 (32 * j + 20) 2)))
  let drafts := (List.range (b.count - 1)).map (fun j => i32 d.1 (4 * j))
  let s := e.2.takeCands b.req stage (cands.take (accepted drafts cands + 1))
  s.modReq b.req (fun q => { q with commit := q.known - 1 })
/-- A prefill chunk commits (R404, R440). -/
def State.chunkDone (s : State) (b : Binding) : State :=
  let r := s.req b.req
  if r.state != qPREFILL then s
  else
    let last := b.start + b.count + 1 = r.promptLen.toNat && r.nextFill.toNat + 1 = r.promptLen.toNat
    s.putReq b.req { r with commit := BitVec.ofNat 32 (b.start + b.count), filled := r.filled || last, state := if last && r.maxNew != 0 then qREADY else qPREFILL }
/-- The result stage of a round has committed (R412). -/
def State.results (s : State) (r stage : Nat) : State :=
  match s.adu.rounds.find? (fun x => x.round = r && !x.done) with
  | none => s
  | some x =>
    let s := x.bindings.foldl (fun s b =>
      if b.prefill then s.chunkDone b
      else if b.active && (s.req b.req).state = qDECODE && (s.req b.req).seat.toNat = b.seat then s.result r stage b else s) s
    { s with adu := { s.adu with rounds := s.adu.rounds.map (fun y => if y.round = r then { y with done := true } else y) } }

/-! Commits (R411, R522, R538). -/

/-- Whether a stage of a RUNNING partition commits at this boundary. A fault whose time has come and that its command has not reported
yet counts as raised (log entry 30). -/
def State.commits (s : State) (p st : Nat) : Bool :=
  let q := s.part p
  st < s.stage && (s.partRgns p).all (fun n => s.rgnDone n st) && (match q.fstage with | none => true | some f => st < f)
    && !((s.partRgns p).any (fun n => s.powerDue n && s.stage ≤ st + 1)) && (!s.lockOn || s.lock.matched.contains st)
/-- Stages of a partition commit in order (R411, R414): PART_CMT takes each plan stage, and a committed result stage of the home is processed. -/
def State.commitPart (s : State) (p : Nat) : Nat → State
  | 0 => s
  | n + 1 =>
    let c := (s.part p).commitC
    let st := ((c : Int) + (s.part p).shift).toNat
    if s.pstate p != pRUNNING || !s.commits p st then s
    else
      let s := (s.modPart p (fun q => { q with commitC := c + 1 })).setReg (.PART_CMT p) (BitVec.ofNat 64 c)
      let s := match s.serving with
        | some (sp, _, rt) => if sp = p && c % rt.len = rt.result && !s.isMember then s.results (c / rt.len) st else s
        | none => s
      s.commitPart p n
/-- Steps 1 and 2 of a boundary's work (R414), for every partition. -/
def State.commitAll (s : State) : State := allParts.foldl (fun s p => s.commitPart p (s.stage + 1)) s

/-! Members (R447 to R449). -/

/-- The round of a member that a mirror packet names. -/
def State.memberRound (s : State) (r : Nat) : RoundSt :=
  (s.adu.rounds.find? (fun (y : RoundSt) => y.round = r)).getD { round := r, bindings := [], done := true, issued := false }
/-- A member's round replaced. -/
def State.putRound (s : State) (x : RoundSt) : State :=
  { s with adu := { s.adu with rounds := s.adu.rounds.filter (·.round != x.round) ++ [x] } }
/-- A mirror packet's payload (R448). -/
def mirrorOf (b : Bytes) : MirrorPkt :=
  { round := BitVec.ofNat 64 (leAt b 0 8), count := BitVec.ofNat 16 (leAt b 10 2), first := BitVec.ofNat 16 (leAt b 12 2), records := b.drop 32 }
/-- A mirror packet of a kind arrives at a member (R340, R341, R448, R449, R542): a management packet with OFFSET 2. -/
def State.mirrorIn (s : State) (p : Port) (k : Packet) (kind : Nat) (f : MirrorPkt → Nat → Plan → RoundT → State → State) : State :=
  if k.payload.length < 32 || leAt k.payload 8 1 != kind then s
  else s.mgmtIn p k 2 (fun s => match s.serving with
    | some (q, pl, rt) => if s.isMember then f (mirrorOf k.payload) q pl rt s else s
    | none => s)
/-- A page table at a member, for a request that it has not seen (log entry 36): every page without a frame. -/
def State.memberTable (s : State) (pl : Plan) (q : Nat) : State :=
  if s.adu.tables.contains q then s
  else
    let b := toLe 4 q ++ List.replicate 8 0 ++ toLe 4 noId ++ toLe 4 0 ++ toLe 4 pl.firstPos ++ List.replicate 40 0 ++ (List.range 16).flatMap (fun _ => toLe 4 noId)
      ++ (List.range (pl.stretch / 256)).flatMap (fun _ => toLe 4 noId)
    ({ s with adu := { s.adu with tables := s.adu.tables ++ [q] } }).aduWrite (pl.pageTable q) b
/-- A bound seat at a member gets its frames of the member's stretch, and one for which the pool runs dry is not bound there for the round
(R437, R449): its record becomes that of an empty seat. -/
def State.mirrorSeat (s : State) (pl : Plan) (r : Nat) (b : Binding) : List Binding × State :=
  let s := s.memberTable pl b.req
  let a := if b.prefill then b.start else b.start - 1
  match s.bindPages pl b.req a (a + b.count - 1) with
  | (true, s) => ([b], s)
  | (false, s) => ([], s.aduWrite (s.bindingOff r + b.seat * 64) emptyBinding)
/-- MIRROR_BINDING (R449): the records go to the binding half, and each bound seat gets its frames. -/
def State.mirrorBinding (s : State) (p : Port) (k : Packet) : State :=
  s.mirrorIn p k 0 (fun m _ pl rt s =>
    let r := m.round.toNat
    let x := s.memberRound r
    let s := if x.bindings.isEmpty && !x.issued then s.aduWrite (s.bindingOff r) ((List.range rt.seats.length).flatMap (fun _ => emptyBinding)) else s
    let s := s.aduWrite (s.bindingOff r + m.first.toNat * 64) m.records
    let bs : List Binding := (List.range (m.records.length / 64)).map (fun i =>
      let b := slice m.records (64 * i) 64
      { seat := m.first.toNat + i, req := leAt b 0 4, prefill := leAt b 4 1 = 1, active := leAt b 5 1 = 1, start := leAt b 8 4, count := leAt b 12 4
        seed := BitVec.ofNat 64 (leAt b 24 8), charge := 0 })
    let z : List Binding × State := bs.foldl (fun (a : List Binding × State) b => let c := a.2.mirrorSeat pl r b; (a.1 ++ c.1, c.2)) ([], s)
    z.2.putRound { x with bindings := x.bindings ++ z.1 })
/-- MIRROR_SELECTOR (R449): the selector half is written, and the round write is issued. -/
def State.mirrorSelector (s : State) (p : Port) (k : Packet) : State :=
  s.mirrorIn p k 1 (fun m q pl rt s =>
    let r := m.round.toNat
    let x := s.memberRound r
    let s := s.aduWrite (pl.selBase + r % 2 * 0x200) (m.records.take 512)
    let s := if x.bindings.isEmpty then s.aduWrite (s.bindingOff r) ((List.range rt.seats.length).flatMap (fun _ => emptyBinding)) else s
    if x.issued then s else (s.issueRound q (s.roundStage q rt r) x.bindings).putRound { x with issued := true })
/-- MIRROR_END_NOTICE (R449): the frames of each request return. -/
def State.mirrorEnd (s : State) (p : Port) (k : Packet) : State :=
  s.mirrorIn p k 2 (fun m _ _ _ s =>
    (List.range m.count.toNat).foldl (fun s i =>
      let q := leAt m.records (4 * i) 4
      let s := s.freeFrames q
      { s with adu := { s.adu with tables := s.adu.tables.filter (· != q) } }) s)
/-- MIRROR_IMMEDIATE_CLEAR (R449): the clear goes to every tile of the partition (R235). -/
def State.mirrorClear (s : State) (p : Port) (k : Packet) : State :=
  s.mirrorIn p k 3 (fun m q _ _ s =>
    let l : SeatList := (List.range m.count.toNat).map (fun i => Fin.ofNat 8192 (leAt m.records (2 * i) 2))
    ((s.partTiles q).filter (fun g => s.tilePresent g)).foldl (fun s g => s.modTile g (fun t => { t with clears := t.clears ++ [l] })) s)
/-- Whether a member's region must wait with a work edge for the round write of the stage's round (R449). -/
def State.mirrorWaits (s : State) (n w : Nat) : Bool :=
  match s.serving with
  | some (p, _, rt) =>
    let ps := s.planStage p w
    s.isMember && s.partOfRgn n = some p && 0 ≤ ps && ps % rt.len = 0 && !(s.memberRound (ps / rt.len).toNat).issued
  | none => false
/-- STAGE_WORK_START (R61, R225, R449). A work edge that must wait for a mirrored round write is counted once. -/
def State.workStartRow (s : State) (n : Nat) : State :=
  let r := s.rgn n
  if s.rgnRuns n && r.finished && r.next ≤ s.stage && s.mirrorWaits n r.next then
    if r.mirrorHeld then s else (s.modRgn n (fun r => { r with mirrorHeld := true })).fadd .SHARD_CFG SHARD_CFG.MIRROR_WAITS 1
  else (if r.mirrorHeld then s.modRgn n (fun r => { r with mirrorHeld := false }) else s).workStart n

/-! Load, unload, resume (R395, R408, R409, R428, R453, R494, R495, R532). -/

/-- The registers of the serving plan return to the values without one. -/
def State.aduRegsClear (s : State) : State :=
  let s := (((s.resetReg .ADU_TEMPLATE).resetReg .ADU_ROUND).resetReg .KV_CFG).resetReg .KV_POOL
  let s := s.resetReg .SHARD_CFG
  { s with regs := tdropRange s.regs 0xD10000 0x1F0000 }
/-- A serving plan is loaded: the admission unit takes its first values. -/
def State.aduLoad (s : State) (pl : Plan) (rt : RoundT) : State :=
  let s := s.aduRegsClear
  let s := { s with adu := { s.adu with
    reqs := [], view := [], recs := [], admitNext := 0, curAdmit := [], curFill := [], rounds := [], switches := [], lpFrames := [], captures := []
    privUsed := [], regUsed := [], tables := [], wrrLeft := 64, cur := 0 } }
  let g := pl.group
  let home := (g.2.2.2[0]?).getD s.self
  let s := s.setRegs [
    (.ADU_TEMPLATE, BitVec.ofNat 64 (rt.seats.length + rt.len <<< 14 + rt.result <<< 23 + rt.lead <<< 31)),
    (.KV_CFG, BitVec.ofNat 64 (pl.frames + pl.privBase <<< 23 + (pl.stretch / 256) <<< 46)),
    (.KV_POOL, BitVec.ofNat 64 ((pl.frames - pl.privBase) + (pl.frames - pl.privBase) <<< 23)),
    (.SHARD_CFG, BitVec.ofNat 64 (g.1 + g.2.1 <<< 8 + home <<< 16))]
  let s := pl.weights.foldl (fun s w =>
    s.setReg (.WS_STATE w.set_) (BitVec.ofNat 64 (1 + 2 * b2n w.stream + 4 * b2n (w.halves = 2) + 8 * w.startHalf))) s
  s.aduRefresh
/-- The serving plan is unloaded (R432, R495): every request becomes FREE, a PINNED slot with its last pinned one among them, and no final
record is written. -/
def State.aduUnload (s : State) : State :=
  let s := s.adu.reqs.foldl (fun s e =>
    if e.2.state = qFREE then s
    else
      let s := s.fset (.RING_CFG e.2.ring.toNat) RING_CFG.BOUND 0
      let s := (s.setReg (.ADU_CANCEL (e.1 / 64)) 0).putReq e.1 { e.2 with state := qFREE, held := false, reason := 0, seat := 0xFFFF, spill := [], handles := [] }
      if e.2.adapter.toNat < 256 then s.slotFreed e.2.adapter.toNat else s) s
  let s := { s with adu := { s.adu with
    reqs := [], view := [], recs := [], rounds := [], switches := [], lpFrames := [], captures := [], privUsed := [], regUsed := [], tables := [], wrrLeft := 0 } }
  s.aduRegsClear.aduRefresh
/-- A resume at plan stage `c` reaches the admission unit (R408, R532). -/
def State.aduResume (s : State) (rt : RoundT) (c : Nat) : State :=
  let lo := c / rt.len
  let s := ((s.adu.rounds.filter (fun x => lo ≤ x.round)).flatMap (fun x => x.bindings.filter (·.prefill))).foldl (fun s b =>
    let r := s.req b.req
    let s := s.setBalance r.account.toNat (s.balance r.account.toNat + b.charge)
    if r.state = qFREE || r.state = qENDED then s
    else
      let nf := min r.nextFill.toNat b.start
      s.putReq b.req { r with nextFill := BitVec.ofNat 32 nf, filled := r.filled && nf + 1 = r.promptLen.toNat }) s
  let s := (s.adu.reqs.filter (·.2.held)).foldl (fun s e => s.modReq e.1 (fun r => { r with held := false })) s
  ({ s with adu := { s.adu with rounds := s.adu.rounds.filter (fun x => x.round < lo), wrrLeft := 64, cur := lo } }).aduRefresh

/-! The boundary's work of the admission unit (R414, R427, R524). -/

/-- After commits: spill areas, due records, FREE transitions, the seating point, and the view of the requests (R397, R414, R427). -/
def State.aduBoundary (s : State) : State :=
  let s := (s.drainSpill.releaseAll).sweep
  let s := (s.seatingPoint).aduRefresh
  { s with adu := { s.adu with view := s.adu.reqs } }

/-- STAGE_WORK_START -/
def execStageWorkStart (n : Rgn) (s : State) : Res := live s (·.workStartRow n)
/-- MIRROR_BINDING -/
def execMirrorBinding (p : Port) (k : Packet) (s : State) : Res := live s (fun s => (s.mirrorBinding p k).aduRefresh)
/-- MIRROR_SELECTOR -/
def execMirrorSelector (p : Port) (k : Packet) (s : State) : Res := live s (·.mirrorSelector p k)
/-- MIRROR_END_NOTICE -/
def execMirrorEndNotice (p : Port) (k : Packet) (s : State) : Res := live s (fun s => (s.mirrorEnd p k).aduRefresh)
/-- MIRROR_IMMEDIATE_CLEAR -/
def execMirrorImmediateClear (p : Port) (k : Packet) (s : State) : Res := live s (·.mirrorClear p k)

end Sys2Proof.Machine
end

