-- ==== Sys2Proof/Machine/Host.lean ====
section
/-! DEFINITION. Host ports and ownership (spec/15_host_ports.md R454 to R475): links, the aperture, MSI-X, ownership, the value that a
read of any register returns, and register reads by management packet (spec/18_faults.md R542, R543). -/

namespace Sys2Proof.Machine

/-! Ownership (R465 to R473). -/

/-- A write discarded although its port may write (R466, R469): DISCARDS counts it, and DISCARD, which tells of R465, stays (R475). -/
def State.dropWrite (s : State) : Writer → State
  | .steward => s
  | .host p => s.fadd (.HP_COUNT p) HP_COUNT.DISCARDS 1
/-- OWN_REQUEST takes a value, and OWN_STATUS.REQ with it. -/
def State.setRequest (s : State) (v : Word) : State := (s.setReg .OWN_REQUEST v).fset .OWN_STATUS OWN_STATUS.REQ (b2n (v != 0))
/-- Ownership changes: the new owner or none, and the stored nonce (R466, R469, R470, R472). -/
def State.setOwner (s : State) (p : Option Nat) (nonce : Word) : State :=
  let s := s.fset .OWN_STATUS OWN_STATUS.OWNED (b2n p.isSome)
  let s := (s.fset .OWN_STATUS OWN_STATUS.OWNER (p.getD 0)).fadd .OWN_STATUS OWN_STATUS.CHANGES 1
  let s := (s.fset .OWN_STATUS OWN_STATUS.LAPSE_LEFT_MS 0).setReg .OWN_CLAIM nonce
  ({ s with lapseFrom := none }).setRequest 0
/-- Whether a port's link is up. -/
def State.linkUp (s : State) (p : Nat) : Bool := s.flag (.HP_STATUS p) HP_STATUS.LINK_UP
/-- The owner's link is down: the count of LAPSE_MS runs (R472). -/
def State.startLapse (s : State) : State :=
  let s := s.passSome
  let ms := s.fget .OWN_LAPSE OWN_LAPSE.LAPSE_MS
  ({ s with lapseFrom := some s.time.base, lapseMs := BitVec.ofNat 16 ms }).fset .OWN_STATUS OWN_STATUS.LAPSE_LEFT_MS ms
/-- Whether the count of the owner's link has ended (R472). -/
def State.lapseDue (s : State) : Bool :=
  match s.lapseFrom with
  | none => false
  | some b => s.lapseMs.toNat * 1000000 * 2 ^ 32 ≤ s.time.base - b
/-- OWN_CLAIM (R466, R468). -/
def State.ownClaim (s : State) (a : Acc) : State :=
  match a.by_ with
  | .steward => s
  | .host p =>
    if a.size != .full then s.dropWrite a.by_
    else if s.owner.isSome || a.val = 0 then s
    else
      let s := s.setOwner (some p.val) a.val
      if s.linkUp p then s else s.startLapse
/-- OWN_REQUEST (R465, R469). -/
def State.ownRequest (s : State) (a : Acc) : State :=
  let v := accOver a (s.reg .OWN_REQUEST)
  match s.owner with
  | none => s.discard a.by_
  | some o =>
    if a.by_ = .host (if o = 0 then 0 else 1) && v != 0 then s.dropWrite a.by_
    else if a.by_ = .steward && v != 0 then s else s.setRequest v
/-- OWN_HANDOVER (R470, R473): it takes effect toward the other port, with its request held and its link up. -/
def State.ownHandover (s : State) (a : Acc) : State :=
  s.owned a.by_ (fun s =>
    match s.owner with
    | none => s
    | some o =>
      let towards := OWN_HANDOVER.TO.get (accWide a)
      let n := s.reg .OWN_REQUEST
      if a.size = .hi then s
      else if towards != o && n != 0 && s.linkUp towards then (s.setOwner (some towards) n).fset .OWN_STATUS OWN_STATUS.HAND_REJ 0
      else s.fset .OWN_STATUS OWN_STATUS.HAND_REJ 1)
/-- OWN_LAPSE_WRITE (R473): a value outside 100 to 60,000 is discarded. -/
def State.ownLapse (s : State) (a : Acc) : State :=
  s.owned a.by_ (fun s =>
    let v := Reg.OWN_LAPSE.info.write (s.reg .OWN_LAPSE) a
    let n := OWN_LAPSE.LAPSE_MS.get v
    if n < 100 || 60000 < n then s else s.setReg .OWN_LAPSE v)
/-- OWNERSHIP_LAPSE (R472): once the count has ended, the module becomes UNOWNED and raises HOST_DOWN. -/
def State.lapse (s : State) : State :=
  match s.owner with
  | none => s
  | some o =>
    if s.linkUp o || !s.lapseDue then s
    else ((s.setOwner none 0).fset (.HP_STATUS o) HP_STATUS.LAPSED 1).raise { code := fHOST_DOWN, cls := cFLAG }

/-! Links (R456, R472). -/

/-- HOST_LINK_DOWN (R279, R456, R464, R472): the port's configuration space, MSI-X table and PBA are reset, its descriptors end, and the
lapse count of the owner starts. -/
def State.hostDown (s : State) (p : HostPort) : State :=
  if !s.linkUp p then s
  else
    let r := Reg.HP_STATUS p
    let s := ((s.fset r HP_STATUS.LINK_UP 0).fset r HP_STATUS.SPEED 0).fset r HP_STATUS.WIDTH 0
    let s := (s.fset r HP_STATUS.ACTIVE 0).fset r HP_STATUS.LINK_DOWN 1
    let s := s.modHost p (fun h => { h with msixEn := false, fmask := false, msix := [], pba := [] })
    let s := s.hostStop p
    if s.owner = some p.val then s.startLapse else s
/-- HOST_LINK_UP (R456, R472, R475). -/
def State.hostUp (s : State) (p : HostPort) (m : LinkMode) : State :=
  let r := Reg.HP_STATUS p
  let s := (s.fset r HP_STATUS.LINK_UP 1).fset r HP_STATUS.SPEED m.speed.toNat
  let s := (s.fset r HP_STATUS.WIDTH m.width.toNat).fset r HP_STATUS.ACTIVE m.active.toNat
  if s.owner = some p.val then ({ s with lapseFrom := none }).fset .OWN_STATUS OWN_STATUS.LAPSE_LEFT_MS 0 else s

/-! The aperture (R458 to R461). -/

/-- APER_WIN_WRITE (R461). -/
def State.aperWrite (s : State) (w : Nat) (a : Acc) : State :=
  s.owned a.by_ (fun s =>
    let v := (Reg.APER_WIN w).info.write (s.reg (.APER_WIN w)) a
    let z := APER_WIN.SIZE_LOG2.get v
    let base := APER_WIN.BASE.get v * 2 ^ 20
    if APER_WIN.ENABLE.get v = 1 && (z < 20 || 30 < z || base % 2 ^ z != 0 || 2 ≤ gaSpace base) then s else s.setReg (.APER_WIN w) v)
/-- The global address that an aperture offset reaches, or none (R458). -/
def State.aperGa (s : State) (off : Nat) : Option Nat :=
  let r := Reg.APER_WIN (off / 2 ^ 30)
  let o := off % 2 ^ 30
  if s.flag r APER_WIN.ENABLE && o < 2 ^ s.fget r APER_WIN.SIZE_LOG2 then some (s.fget r APER_WIN.BASE * 2 ^ 20 + o) else none
/-- An aperture access at a bank, as REMOTE (R88, R459, R460). -/
def State.aperBank (s : State) (p : HostPort) (ga : Nat) (data : Bytes) (readLen : Nat) : State :=
  match s.tileOfGa false (gaTile ga) with
  | none => s.aperRefused p readLen
  | some g =>
    let k := gaBank ga
    match s.bankBounds g k (gaOff ga) (data.length + readLen) with
    | .refused c => (s.bankEvent g c).aperRefused p readLen
    | _ =>
      if !gaZeros ga then s.aperRefused p readLen
      else
        let it : LandItem := { bank := k, off := gaOff ga, view := 0, data := data, readLen := readLen, land_ := none, ack := none, aper := some p, counts := false }
        match s.arrive g it with
        | (.refused _, s) => s.aperRefused p readLen
        | (_, s) => s
/-- APERTURE_READ (R458 to R460, R479, R518). -/
def State.aperRead (s : State) (p : HostPort) (off len : Nat) : State :=
  match (if s.boot_ = 0 then none else s.aperGa off) with
  | none => s.emit (.readBytes p (List.replicate len 0))
  | some ga =>
    if gaSpace ga = 1 then
      if !gaZeros ga || dramSize < gaDram ga + len then s.aperRefused p len
      else let r := s.dramRead (gaDram ga) len (plainWho (.aperture p)); r.2.emit (.readBytes p r.1)
    else s.aperBank p ga [] len
/-- APERTURE_WRITE (R458 to R460, R465, R479). -/
def State.aperPut (s : State) (p : HostPort) (off : Nat) (data : Bytes) : State :=
  s.owned (.host p) (fun s =>
    match (if s.boot_ = 0 then none else s.aperGa off) with
    | none => s
    | some ga =>
      if gaSpace ga = 1 then
        if !gaZeros ga || dramSize < gaDram ga + data.length then s.aperRefused p 0
        else s.dramWrite (gaDram ga) data (plainWho (.aperture p))
      else s.aperBank p ga data 0)

/-! MSI-X (R463, R464). -/

/-- MSIX_PENDING_SEND (R464): the pending message goes out once Enable is set and both masks are clear. That the row comes about tells
that the port's configuration space has Enable set and Function Mask clear (log entry 37). -/
def State.msixPending (s : State) (p : HostPort) (v : Nat) : State :=
  let h := s.host p
  if !h.pba.contains v || !s.linkUp p || (tget 0x100000000 h.msix (2 * v + 1)).toNat.testBit 32 then s
  else (s.modHost p (fun h => { h with msixEn := true, fmask := false, pba := h.pba.filter (· != v) })).emit (.msix p v)
/-- The reset value of a word of the MSI-X table: the Mask bit of every vector is set (log entry 4). -/
def msixDef (i : Nat) : Word := if i % 2 = 1 then 0x100000000 else 0
/-- A write of a port's own MSI-X table (R463). -/
def State.msixWrite (s : State) (i : Nat) (a : Acc) : State :=
  match a.by_ with
  | .steward => s
  | .host p =>
    s.modHost p (fun h => { h with msix := tput (msixDef i) h.msix i (accOver a (tget (msixDef i) h.msix i)) })

/-! Reads (R5 to R9, R474, R543). -/

/-- Who reads a register: a port, or a management packet. -/
abbrev Reader := Option HostPort
/-- Sixty-four flags of consecutive interrupt sources. -/
def State.srcBits (s : State) (w : Nat) (f : IrqSrc → Bool) : Word :=
  BitVec.ofNat 64 (((List.range 64).filter (fun i => f (s.src (64 * w + i)))).map (2 ^ ·)).sum
/-- INT_SRC of a source (R514). -/
def State.srcWord (s : State) (n : Nat) : Word :=
  let q := s.src n
  BitVec.ofNat 64 (q.prio.toNat + q.target.toNat <<< 4 + b2n q.pend <<< 16 + b2n q.active <<< 17 + b2n q.line <<< 18 + b2n q.reentered <<< 19
    + q.edges.toNat <<< 32)
/-- The sources that a core has claimed and not completed, innermost first, with their levels (R505). -/
def State.claims (s : State) (c : Nat) : List (Nat × BitVec 4) := tget [] s.cores c
/-- The running level of a core (R505). -/
def State.runLevel (s : State) (c : Nat) : Nat := match s.claims c with | [] => 0 | e :: _ => e.2.toNat
/-- Whether a source leads another for a target (R505, R507): the higher level, then a re-entered source, then the lower number. -/
def leads (a b : Nat × IrqSrc) : Bool :=
  b.2.prio.toNat < a.2.prio.toNat
    || (a.2.prio = b.2.prio && ((a.2.reentered && !b.2.reentered) || (a.2.reentered == b.2.reentered && a.1 < b.1)))
/-- The pending source that leads for a target code above a level (R504, R505, R509). -/
def State.candidate (s : State) (target level : Nat) : Option (Nat × IrqSrc) :=
  let l := s.irq.filter (fun e => e.2.pend && !e.2.active && e.2.target.toNat = target && level < e.2.prio.toNat)
  l.foldl (fun b e => match b with | none => some e | some x => if leads e x then some e else b) none
/-- The best candidate of a core (R505). -/
def State.coreBest (s : State) (c : Nat) : Option (Nat × IrqSrc) :=
  s.candidate c (max (s.fget (.CORE_THRESH c) CORE_THRESH.THRESH) (s.runLevel c))
/-- A core's machine external interrupt: asserted while the core has a candidate (R505). -/
def State.coreIrq (s : State) (c : Core) : Bool := (s.coreBest c).isSome
/-- QUEUE_FILL of a tile. -/
def State.queueFill (s : State) (g : Nat) : Word :=
  let n (q : Nat) : Nat := (s.queue g q).length
  BitVec.ofNat 64 (n 1 + n 2 <<< 10 + n 3 <<< 20 + n 4 <<< 29 + n 5 <<< 38 + n 6 <<< 47)
/-- The word of a request's record that ADU_REQ_VIEW shows (R397, R420). -/
def State.reqView (s : State) (k : Nat) : Word :=
  match s.adu.view.find? (·.1 = s.fget .ADU_REQ_SEL ADU_REQ_SEL.REQ) with
  | none => 0
  | some e => BitVec.ofNat 64 (leAt (reqBytes e.2) (8 * k) 8)
/-- The part number that ID_PART reports: the module's grade, ports and tiles. -/
def State.idPart (s : State) : Word :=
  let w := ID_PART.GRADE.set (s.reg .ID_PART) s.fuses.grade.toNat
  let w := ID_PART.SI_REV.set w s.fuses.siRev.toNat
  ID_PART.TILES.set (ID_PART.PORTS.set w s.fuses.ports.toNat) s.presentTiles
/-- OWN_STATUS through a port (R475), or as a non-owner sees it by management packet (R543). -/
def State.ownStatus (s : State) (by_ : Reader) : Word × State :=
  let w := s.reg .OWN_STATUS
  match by_ with
  | some p => (OWN_STATUS.IS_OWNER.set (OWN_STATUS.SELF.set w p.val) (b2n (s.owner = some p.val)), s)
  | none =>
    let n := s.freeBelow 2
    match s.owner with
    | some o => (OWN_STATUS.SELF.set w (1 - o), s)
    | none => (OWN_STATUS.SELF.set w n.1, n.2)
/-- Whether a register lies in the window of a fused tile or an absent port (R2). -/
def State.regAbsent (s : State) (r : Reg) : Bool :=
  let o := r.off
  (0x2000000 ≤ o && o < 0x2800000 && !s.tilePresent ((o - 0x2000000) / 0x4000)) || (0x400000 ≤ o && o < 0x500000 && !s.portPresent ((o - 0x400000) / 0x10000))
/-- The value that a read of a register returns, without the effects of R474: the registers that show what State holds elsewhere, and else
the stored value. By management packet, a port's own registers read as free values (log entry 38). -/
def State.regRead (s : State) (by_ : Reader) (r : Reg) : Word × State :=
  if s.regAbsent r then (0, s)
  else match r with
  | .ID_PART => (s.idPart, s)
  | .ID_SERIAL => (s.fuses.serial, s)
  | .ID_TILES d => (s.fuses.tiles.getD d 0, s)
  | .ROOT_HASH k => (BitVec.ofNat 64 (leAt s.fuses.rootHash (8 * k) 8), s)
  | .FW_INFO => (FW_INFO.MIN_SVN.set (s.reg .FW_INFO) s.fuses.minSvn.toNat, s)
  | .OWN_STATUS => s.ownStatus by_
  | .MSIX_TABLE i =>
    match by_ with
    | some p => (tget (msixDef i) (s.host p).msix i, s)
    | none => let b := s.freeBytes 8; (BitVec.ofNat 64 (leNat b.1), b.2)
  | .MSIX_PBA k =>
    match by_ with
    | some p => (BitVec.ofNat 64 ((((s.host p).pba.filter (fun v => v / 64 = k)).map (fun v => 2 ^ (v % 64))).sum), s)
    | none => let b := s.freeBytes 8; (BitVec.ofNat 64 (leNat b.1), b.2)
  | .FT_NOW_NS => let n := s.someNow; (BitVec.ofNat 64 n.1, n.2)
  | .FT_NOW_FRAC =>
    match by_ with
    | some p => ((s.host p).frac.setWidth 64, s)
    | none => let b := s.freeBytes 4; (BitVec.ofNat 64 (leNat b.1), b.2)
  | .INT_SRC n => (s.srcWord n, s)
  | .INT_PEND w => (s.srcBits w (·.pend), s)
  | .INT_ACT w => (s.srcBits w (·.active), s)
  | .CORE_CLAIM c => (match s.coreBest c with | none => BitVec.ofNat 64 (2 ^ 10) | some e => BitVec.ofNat 64 e.1, s)
  | .CORE_LEVEL c => (s.reg (.CORE_LEVEL c) ||| BitVec.ofNat 64 (s.runLevel c + (s.claims c).length <<< 4), s)
  | .QUEUE_FILL g => (s.queueFill g, s)
  | .IDMA_STATUS i c => (IDMA_STATUS.STATE.set (s.reg r) (s.ioState i c), s)
  | .ADU_REQ_VIEW k => (s.reqView k, s)
  | .LS_STATUS => (s.lockState.reg .LS_STATUS, s)
  | _ => (s.reg r, s)
/-- The bytes of BAR0 from an offset on, as a management packet reads them: an unassigned offset reads 0 (R543). -/
def State.readRegs (s : State) (off : Nat) : Nat → Bytes × State
  | 0 => ([], s)
  | n + 1 =>
    let v : Word × State := match Reg.ofOff off with | none => (0, s) | some r => s.regRead none r
    let rest := v.2.readRegs (off + 8) n
    (toLe 8 v.1.toNat ++ rest.1, rest.2)
/-- The part of a register that a read of some bytes at an offset addresses; none for another size or alignment (R7, R9). -/
def readSz (off bytes : Nat) : Option Sz :=
  if bytes = 8 && off % 8 = 0 then some .full
  else if bytes = 4 && off % 4 = 0 then some (if off % 8 = 0 then .lo else .hi)
  else none
/-- A read of BAR0 through a port (R7, R9, R474, R479): the addressed part of the register with the read's effect, and 0 for another size or
alignment and for an unassigned offset. The table has rows for the reads with an effect only (log entry 104). -/
def State.bar0Read (s : State) (p : HostPort) (off : BitVec 26) (bytes : Nat) : State :=
  match readSz off.toNat bytes, Reg.ofOff (off.toNat / 8 * 8) with
  | some z, some r =>
    match r with
    | .XING_FILL c => s.fillRead p c z
    | .RGN_LATE n => s.lateRead p n z
    | .VBL_CATCHUP q => s.catchupRead p (Fin.ofNat 16 q) z
    | .KV_POOL => s.poolRead p z
    | .FT_NOW_NS => s.passSome.nowRead p z
    | r => let v := s.regRead (some p) r; v.2.emit (.read p (readPart z v.1))
  | _, _ => s.emit (.read p 0)
/-- A read of a doorbell through a port, the owner's or not (R462, R474): the ring's PROD in bits 31:0, and 0 until calibration has ended
(R479). The table has no row for it (log entry 104). -/
def State.doorbellRead (s : State) (p : HostPort) (n : RingIx) (z : Sz) : State :=
  s.emit (.read p (if s.boot_ = 0 then 0 else readPart z (BitVec.ofNat 64 (s.fget (.RING_IDX n) RING_IDX.PROD))))
/-- A Steward core asks another module for `len` bytes of its register space (R287, R500, R543). The table has no row for what the firmware
does of its own (log entry 104). -/
def State.stewardAsk (s : State) (m : BitVec 16) (off : BitVec 26) (len : Nat) (tag : BitVec 32) : State :=
  if !s.stewardUp then s
  else s.sendOff .service
    { hdr := s.hdr oMGMT (m.toNat * 2 ^ 48 + 2 ^ 47 + off.toNat) 8, payload := toLe 4 len ++ toLe 4 tag.toNat }

/-- An arrived management packet is discarded and counted (R542). -/
def State.mgmtBad (s : State) : State := s.fadd .FLT_STATUS FLT_STATUS.MGMT_BAD 1
/-- Whether a global address in register space names a BAR0 offset (R284, R457): its other bits are 0, and BAR0 has 64 MiB. -/
def bar0Ga (ga : Nat) : Bool := gaZeros ga && bits ga 31 26 = 0
/-- REGISTER_READ_REQUEST (R284, R287, R543). A request with another LENGTH, or whose GA names no BAR0 offset, is no packet of the table of
R542. -/
def State.regReadReq (s : State) (p : Port) (k : Packet) : State :=
  let ga := k.hdr.ga.toNat
  if k.hdr.opc.toNat != oMGMT || gaSpace ga != 2 then s
  else
    let f (s : State) : State :=
      let len := leAt k.payload 0 4
      if k.payload.length != 8 || len < 8 || 4064 < len || len % 8 != 0 || !bar0Ga ga || bits ga 31 0 % 8 != 0 then s.mgmtBad
      else
        let b := s.readRegs (bits ga 31 0) (len / 8)
        let payload := slice k.payload 4 4 ++ toLe 4 0 ++ b.1
        b.2.sendOff .service { hdr := s.hdr oMGMT (k.hdr.src.toNat * 2 ^ 48 + ga % 2 ^ 48) payload.length, payload := payload }
    s.acceptIn p k f (fun _ s => f s)
/-- Whether a management packet is one of the table of R542. -/
def mgmtKnown (ga : Nat) : Bool := (gaSpace ga = 1 && bits ga 45 0 ≤ 4) || (gaSpace ga = 2 && bar0Ga ga)
/-- MANAGEMENT_DISCARD (R287, R341, R542): a packet of the table of R542 is discarded only where it is for another module. -/
def State.mgmtDiscard (s : State) (p : Port) (k : Packet) : State :=
  let ga := k.hdr.ga.toNat
  if k.hdr.opc.toNat != oMGMT || (mgmtKnown ga && (gaModule ga = s.self || s.isGroup (gaModule ga))) then s
  else s.acceptIn p k (·.mgmtBad) (fun _ s => s.mgmtBad)

/-- HOST_LINK_DOWN -/
def execHostLinkDown (p : HostPort) (s : State) : Res := live s (·.hostDown p)
/-- HOST_LINK_UP -/
def execHostLinkUp (p : HostPort) (m : LinkMode) (s : State) : Res := live s (·.hostUp p m)
/-- OWN_CLAIM -/
def execOwnClaim (a : Acc) (s : State) : Res := live s (·.ownClaim a)
/-- OWN_REQUEST -/
def execOwnRequest (a : Acc) (s : State) : Res := live s (·.ownRequest a)
/-- OWN_HANDOVER -/
def execOwnHandover (a : Acc) (s : State) : Res := live s (·.ownHandover a)
/-- OWN_LAPSE_WRITE -/
def execOwnLapseWrite (a : Acc) (s : State) : Res := live s (·.ownLapse a)
/-- OWNERSHIP_LAPSE -/
def execOwnershipLapse (t : TimeIn) (s : State) : Res := live s (·.atTime t (·.lapse))
/-- APER_WIN_WRITE -/
def execAperWinWrite (w : AperWin) (a : Acc) (s : State) : Res := live s (·.aperWrite w a)
/-- APERTURE_READ -/
def execApertureRead (p : HostPort) (off : AperOff) (len : Nat) (s : State) : Res := live s (·.aperRead p off.toNat len)
/-- APERTURE_WRITE -/
def execApertureWrite (p : HostPort) (off : AperOff) (data : Bytes) (s : State) : Res := live s (·.aperPut p off.toNat data)
/-- MSIX_PENDING_SEND -/
def execMsixPendingSend (p : HostPort) (v : MsixVec) (s : State) : Res := live s (·.msixPending p v)
/-- REGISTER_READ_REQUEST -/
def execRegisterReadRequest (p : Port) (k : Packet) (s : State) : Res := live s (·.regReadReq p k)
/-- MANAGEMENT_DISCARD -/
def execManagementDiscard (p : Port) (k : Packet) (s : State) : Res := live s (·.mgmtDiscard p k)

end Sys2Proof.Machine
end

