-- ==== Sys2Proof/Machine/Irq.lean ====
section
/-! DEFINITION. The Steward and the interrupt controller (spec/17_interrupts.md R500 to R514): claims and completions, software sources,
writes of sources, forwarding, the mailbox, and telemetry. -/

namespace Sys2Proof.Machine

/-! Claims and completions (R505 to R507). -/

/-- Whether the Steward's cores may run: no uncorrectable error has stopped them (R501). -/
def State.coresRun (s : State) : Bool := !s.flag .FLT_STATUS FLT_STATUS.STEWARD_UE
/-- A source is taken: its PEND is cleared and it is ACTIVE (R505, R509). -/
def IrqSrc.take (q : IrqSrc) : IrqSrc := { q with pend := false, active := true, reentered := false }
/-- A source is no longer ACTIVE; one that is pending is re-entered (R507). -/
def IrqSrc.complete (q : IrqSrc) : IrqSrc := { q with active := false, reentered := q.pend }
/-- CORE_CLAIM (R505). -/
def State.coreClaim (s : State) (c : Core) : State :=
  if !s.coresRun then s
  else match s.coreBest c with
    | none => s.emit (.claim c none)
    | some e =>
      let s := s.putSrc e.1 (s.src e.1).take
      ({ s with cores := tput [] s.cores c ((e.1, e.2.prio) :: s.claims c) }).emit (.claim c (some e.1))
/-- CORE_COMPLETE (R506): it must name the innermost source claimed. -/
def State.coreComplete (s : State) (c : Core) (n : SrcIx) : State :=
  if !s.coresRun then s
  else match s.claims c with
    | [] => s.fset (.CORE_LEVEL c) CORE_LEVEL.COMP_REJ 1
    | e :: r =>
      if e.1 = n.val then { s.putSrc n (s.src n).complete with cores := tput [] s.cores c r }
      else s.fset (.CORE_LEVEL c) CORE_LEVEL.COMP_REJ 1

/-! Sources and forwarding (R502, R504, R508, R509). -/

/-- INT_SET (R502): a software source has an edge. -/
def State.intSet (s : State) (a : Acc) : State :=
  s.owned a.by_ (fun s =>
    let n := INT_SET.SOURCE.get (accWide a)
    if a.size = .hi || n < 768 then s else s.pulse n)
/-- INT_SRC_WRITE (R504, R507 to R509): a host clears ACTIVE only of a source whose TARGET is a forwarding target. -/
def State.srcWrite (s : State) (n : Nat) (a : Acc) : State :=
  s.owned a.by_ (fun s =>
    let q := s.src n
    let v := accOver a (s.srcWord n)
    let ones := accWide a &&& accMask a
    let mayClear := a.by_ = .steward || 32 ≤ q.target.toNat
    let q' := { q with prio := BitVec.ofNat 4 (INT_SRC.PRIO.get v), target := BitVec.ofNat 6 (INT_SRC.TARGET.get v) }
    let q' := if INT_SRC.PEND.get ones = 1 then { q' with pend := false, reentered := false } else q'
    s.putSrc n (if INT_SRC.ACTIVE.get ones = 1 && mayClear && q'.active then q'.complete else q'))
/-- FORWARD_SEND (R509): the source that leads the forwarding target is sent and becomes ACTIVE. -/
def State.forwardSend (s : State) (f : Nat) : State :=
  let r := Reg.FWD f
  if !s.flag r FWD.ENABLE then s
  else match s.candidate (32 + f) (s.fget r FWD.THRESH) with
    | none => s
    | some e =>
      let p := s.fget r FWD.PORT
      let s := s.putSrc e.1 (s.src e.1).take
      let s := if s.linkUp p then s.fadd r FWD.SENT 1 else s
      s.sendMsix p (s.fget r FWD.VECTOR)

/-! The mailbox (R511). -/

/-- A write of `MB_CTRL` (R511). -/
def State.mbCtrlWrite (s : State) (a : Acc) : State :=
  s.owned a.by_ (fun s =>
    let r := Reg.MB_CTRL
    let old := s.reg r
    let v := r.info.write old a
    let go := MB_CTRL.GO.get (accOver a 0) = 1
    let len := MB_CTRL.LEN.get v
    if !go then s.setReg r (MB_CTRL.GO.set v 0)
    else if MB_CTRL.BUSY.get old = 1 || len = 0 || 256 < len then s.setReg r (MB_CTRL.MB_REJ.set old 1)
    else (s.setReg r (MB_CTRL.BUSY.set (MB_CTRL.GO.set v 0) 1)).pulse 612)
/-- MB_REPLY (R511): the firmware's reply to the request that waits. -/
def State.mbReply (s : State) (tag : Byte) (reply : Bytes) : State :=
  if !s.stewardUp || !s.flag .MB_CTRL MB_CTRL.BUSY || reply.isEmpty || 256 < reply.length then s
  else
    let words := divUp reply.length 8
    let s := (List.range words).foldl (fun s k =>
      let b := slice reply (8 * k) 8
      let old := toLe 8 (s.reg (.MB_RSP k)).toNat
      s.setReg (.MB_RSP k) (BitVec.ofNat 64 (leNat (b ++ old.drop b.length)))) s
    let s := (s.fset .MB_CTRL MB_CTRL.RSP_LEN reply.length).fset .MB_CTRL MB_CTRL.RSP_TAG tag.toNat
    (s.fset .MB_CTRL MB_CTRL.BUSY 0).pulse 611

/-! Telemetry (R512, R513). -/

/-- A number of a region's interval that the spec states only for an interval with a measured stage; else free bytes. -/
def State.telField (s : State) (n : Nat) : Option Nat → Bytes × State
  | some v => (toLe n v, s)
  | none => s.freeBytes n
/-- A sum saturates at 2^32 − 1 (R513). -/
def sat32 (v : Nat) : Nat := min v (2 ^ 32 - 1)
/-- The 64 bytes of a region's telemetry record (R513). -/
def State.telRecord (s : State) (n : Nat) : Bytes × State :=
  let t := (s.rgn n).tel
  let any := t.stages != 0
  let first := s.stage - 2 ^ s.fget .TEL_CFG TEL_CFG.TLOG2
  let fin := s.telField 4 (t.minFinish.map (ofInt 32))
  let fat := fin.2.telField 2 (t.minFinish.map (fun _ => (t.finishAt - first) % 65536))
  let lan := fat.2.telField 4 (t.minLand.map (ofInt 32))
  let lat := lan.2.telField 2 (t.minLand.map (fun _ => (t.landAt - first) % 65536))
  let pace := if any then lat.2.roundOpen t.pace t.stages else (0, lat.2)
  let pb := pace.2.telField 2 (if any then some pace.1.toNat else none)
  let watts := if any then pb.2.roundOpen t.watts t.stages else (0, pb.2)
  let wb := watts.2.telField 2 (if any then some watts.1.toNat else none)
  let w := t.waits
  (toLe 8 first ++ [BitVec.ofNat 8 n, t.flags] ++ toLe 2 (min t.late 65535) ++ fin.1 ++ lan.1 ++ fat.1 ++ lat.1
    ++ toLe 4 (sat32 w.queue) ++ toLe 4 (sat32 w.wait) ++ toLe 4 (sat32 w.fence) ++ toLe 4 (sat32 w.owner) ++ toLe 4 (sat32 w.engine)
    ++ toLe 4 (sat32 w.landing) ++ toLe 4 (sat32 w.quiesce) ++ pb.1 ++ wb.1 ++ List.replicate 8 0, wb.2)
/-- TELEMETRY_INTERVAL_END (R513): one record for each region with a budget above 0; records of the interval before that are not written
yet are lost. -/
def State.telEnd (s : State) : State :=
  if !s.telOn || s.stage % 2 ^ s.fget .TEL_CFG TEL_CFG.TLOG2 != 0 || s.tel.last = some s.stage then s
  else
    let s := s.fadd .TEL_CFG TEL_CFG.LOST s.tel.latched.length
    let ns := (List.range 64).filter (fun n => (s.rgn n).budget != 0)
    let x := ns.foldl (fun (x : List Bytes × State) n => let r := x.2.telRecord n; (x.1 ++ [r.1], r.2)) ([], s)
    let s := (List.range 64).foldl (fun s n => s.modRgn n (fun r => { r with tel := {} })) x.2
    { s with tel := { latched := x.1, base := BitVec.ofNat 64 (s.fget .TEL_CFG TEL_CFG.TEL_BASE * 16), last := some s.stage } }
/-- TELEMETRY_RECORD_WRITE (R513): the Steward writes the latched records to the buffer. -/
def State.telWrite (s : State) : State :=
  if !s.stewardUp || s.tel.latched.isEmpty then s
  else
    let s' := s.tel.latched.foldl (fun s b =>
      let i := (s.reg .TEL_IDX).toNat
      let s := s.dramWrite ((s.tel.base.toNat + i % 2 ^ s.fget .TEL_CFG TEL_CFG.TEL_LOG2 * 64) % dramSize) b (plainWho .steward)
      s.setReg .TEL_IDX (BitVec.ofNat 64 (i + 1))) s
    ({ s' with tel := { s'.tel with latched := [] } }).pulse 613
/-- A write of `TEL_CFG`: a TLOG2 above 16 is discarded. One that turns telemetry on or off or changes TLOG2 leaves nothing gathered
(DESIGN CHOICE, log entry 101). -/
def State.telCfgWrite (s : State) (a : Acc) : State :=
  s.owned a.by_ (fun s =>
    let old := s.reg .TEL_CFG
    let v := keepField TEL_CFG.TLOG2 old (Reg.TEL_CFG.info.write old a) 0 16
    let was := s.telOn
    let s := s.setReg .TEL_CFG v
    if was = s.telOn && TEL_CFG.TLOG2.get old = TEL_CFG.TLOG2.get v then s
    else (List.range 64).foldl (fun s n => s.modRgn n (fun r => { r with tel := {} })) s)

/-- An error in a word of Steward memory (R501, R518). A single-bit one is corrected and counted. With an uncorrectable one all four cores
stop, `FAULT_N` is asserted and stays so, and SRAM_UE is raised as FLAG. That the table's one row brings both is DESIGN CHOICE (log entry
104). -/
def State.stewardUpset (s : State) (u : Upset) : State :=
  if !u.ue then s.fadd .STW_STATUS STW_STATUS.CE_COUNT 1
  else
  let w := u.word % 262144
  let s := { s with stw := { s.stw with mem := memWrite s.stw.mem (w * 8) (toLe 8 (memNat s.stw.mem (w * 8) 8 ^^^ u.flip.toNat)), bad := tput 0 s.stw.bad w 2 } }
  let s := (s.fset .STW_STATUS STW_STATUS.RUNNING 0).fset .FLT_STATUS FLT_STATUS.STEWARD_UE 1
  (s.raise { code := fSRAM_UE, cls := cFLAG, origin := 5 }).refreshFaultN

/-- CORE_CLAIM -/
def execCoreClaim (c : Core) (s : State) : Res := live s (·.coreClaim c)
/-- CORE_COMPLETE -/
def execCoreComplete (c : Core) (n : SrcIx) (s : State) : Res := live s (·.coreComplete c n)
/-- INT_SET -/
def execIntSet (a : Acc) (s : State) : Res := live s (·.intSet a)
/-- INT_SRC_WRITE -/
def execIntSrcWrite (n : SrcIx) (a : Acc) (s : State) : Res := live s (·.srcWrite n a)
/-- FORWARD_SEND -/
def execForwardSend (f : FwdIx) (s : State) : Res := live s (·.forwardSend f)
/-- MB_REQUEST -/
def execMbRequest (a : Acc) (s : State) : Res := live s (·.mbCtrlWrite a)
/-- MB_REPLY -/
def execMbReply (tag : Byte) (reply : Bytes) (s : State) : Res := live s (·.mbReply tag reply)
/-- TELEMETRY_INTERVAL_END -/
def execTelemetryIntervalEnd (s : State) : Res := live s (·.telEnd)
/-- TELEMETRY_RECORD_WRITE -/
def execTelemetryRecordWrite (s : State) : Res := live s (·.telWrite)
/-- STEWARD_MEMORY_UE -/
def execStewardMemoryUe (u : Upset) (s : State) : Res := live s (·.stewardUpset u)

end Sys2Proof.Machine
end

