-- ==== Sys2Proof/Machine/Images.lean ====
section
/-! DEFINITION. Containers (spec/16_boot_image.md R483 to R493): the framing, the firmware image, the structure image and the plan, as
what the loader reads from their bytes and the checks that refuse them. -/

namespace Sys2Proof.Machine

/-- The status of a refusal, with the section and the offset of its failure where they are known (`BOOT_RESULT`). -/
abbrev LoadFail := Nat × Option (Nat × Nat)

/-! Load status (`BOOT_RESULT`.STATUS). -/

/-- STATE -/
def lSTATE : Nat := 1
/-- RANGE -/
def lRANGE : Nat := 2
/-- FORMAT -/
def lFORMAT : Nat := 3
/-- KEY -/
def lKEY : Nat := 4
/-- SIGNATURE -/
def lSIGNATURE : Nat := 5
/-- ROLLBACK -/
def lROLLBACK : Nat := 6
/-- ECC -/
def lECC : Nat := 7
/-- CONTENT -/
def lCONTENT : Nat := 8
/-- CONFLICT -/
def lCONFLICT : Nat := 9
/-- BUDGET -/
def lBUDGET : Nat := 10
/-- TIME -/
def lTIME : Nat := 11
/-- ENCODING -/
def lENCODING : Nat := 12
/-- CERT -/
def lCERT : Nat := 13

/-! Framing (R487, R488). -/

/-- An entry of the section table (R487). -/
structure Sect where
  ix : Nat
  type : Nat
  flags : Nat
  zero : Nat
  off : Nat
  len : Nat
  deriving DecidableEq, Repr

/-- Entry `i` of a container's section table. -/
def sectAt (c : Bytes) (i : Nat) : Sect :=
  let e := 32 + 16 * i
  { ix := i, type := leAt c e 2, flags := leAt c (e + 2) 1, zero := leAt c (e + 3) 1, off := leAt c (e + 4) 4, len := leAt c (e + 8) 8 }
/-- The section table of a container. -/
def sectsOf (c : Bytes) : List Sect := (List.range (leAt c 8 4)).map (sectAt c)
/-- Whether the container header is right (R487). -/
def headerOk (magic : Nat) (c : Bytes) : Bool :=
  let n := leAt c 8 4
  leAt c 0 4 = magic && leAt c 4 4 = 1 && 1 ≤ n && n ≤ 1024 && leAt c 12 4 = 0 && leAt c 16 8 = c.length && leAt c 24 8 = 0 && 32 + 16 * n ≤ c.length
/-- Whether two sections share a byte. -/
def Sect.overlaps (x y : Sect) : Bool := 0 < x.len && 0 < y.len && x.off < y.off + y.len && y.off < x.off + x.len
/-- Whether a table entry refuses the container (R487, R488): `multi` may appear more than once. -/
def Sect.bad (known multi : List Nat) (all : List Sect) (total : Nat) (x : Sect) : Bool :=
  1 < x.flags || x.zero != 0 || x.off % 8 != 0 || total < x.off + x.len || (0 < x.len && x.off < 32 + 16 * all.length)
    || all.any (fun y => y.ix != x.ix && x.overlaps y)
    || (!known.contains x.type && x.flags = 0)
    || (known.contains x.type && !multi.contains x.type && all.any (fun y => y.ix < x.ix && y.type = x.type))
/-- The bytes of a section. -/
def sectBytes (c : Bytes) (x : Sect) : Bytes := slice c x.off x.len
/-- The section of a type. -/
def findSect (ss : List Sect) (type : Nat) : Option Sect := ss.find? (·.type = type)
/-- The bytes of the section of a type; none without one. -/
def bytesOf (c : Bytes) (ss : List Sect) (type : Nat) : Bytes := ((findSect ss type).map (sectBytes c)).getD []
/-- The framing check (R488), with the length that each known section must have: the first failing section, or a failure that no
section locates. -/
def frameFail (magic : Nat) (known required multi : List Nat) (lenOk : Nat → Bytes → Bool) (c : Bytes) : Option LoadFail :=
  if !headerOk magic c then some (lFORMAT, none)
  else
    let ss := sectsOf c
    match ss.find? (fun x => x.bad known multi ss c.length || (known.contains x.type && !lenOk x.type (sectBytes c x))) with
    | some x => some (lFORMAT, some (x.ix, 0))
    | none => if required.all (fun t => (findSect ss t).isSome) then none else some (lFORMAT, none)
/-- The offset of the first record that fails: `n` records of `size` bytes from `base` on. -/
def badRec (n size base : Nat) (bad : Nat → Bool) : Option Nat := ((List.range n).find? bad).map (fun i => base + size * i)

/-! The structure image (R489, R490). -/

/-- Bytes of the ADU area (R399). -/
def aduAreaSize : Nat := 0x12980000
/-- Whether two dies are linked. -/
def linked (a b : Nat) : Bool := dieLinks.any (fun e => e = (a, b) || e = (b, a))
/-- Whether every consecutive pair of a path is linked. -/
def pathOk : List Nat → Bool
  | a :: b :: r => linked a b && pathOk (b :: r)
  | _ => true
/-- Whether a router record is a path from its first die to its last (R490). -/
def routerOk (i v : Nat) : Bool :=
  let a := i / 11
  let r := i % 11
  let b := if r < a then r else r + 1
  let n := v % 16
  let path := a :: ((List.range n).map (fun j => bits v (4 * j + 7) (4 * j + 4))) ++ [b]
  n ≤ 6 && v >>> (4 * n + 4) = 0 && pathOk path && path.eraseDups.length = path.length
/-- The types of a structure image's sections. -/
def structTypes : List Nat := (List.range 11).map (· + 1)
/-- Present tiles by global number. -/
def State.tilesHere (s : State) : List Nat := (List.range 512).filter (fun g => s.tilePresent g)
/-- Whether a structure section has the length of its layout (R489). -/
def structLen (n type : Nat) (b : Bytes) : Bool :=
  match type with
  | 1 => b.length = 64
  | 2 => b.length % 2 = 0
  | 3 => b.length = 72 * n
  | 4 => b.length = 1056
  | 5 => b.length = 256
  | 6 => b.length = 16
  | 7 => b.length % 32 = 0
  | 8 => b.length = 64
  | 9 => 8 ≤ b.length && (b.length - 8) % 16 = 0 && b.length ≤ 264
  | 10 => 16 ≤ b.length && b.length = 16 + 16 * (leAt b 4 4 + leAt b 8 4)
  | 11 => 16 ≤ b.length && b.length = 16 + 136 * leAt b 1 1
  | _ => true
/-- The ADU area and the reserved extents of an AREAS section, as offset and length. -/
def areasOf (b : Bytes) : List (Nat × Nat) :=
  (leAt b 0 8, aduAreaSize) :: (List.range ((b.length - 8) / 16)).map (fun i => (leAt b (8 + 16 * i) 8, leAt b (16 + 16 * i) 8))
/-- Whether two extents share a byte. -/
def extOverlap (x y : Nat × Nat) : Bool := 0 < x.2 && 0 < y.2 && x.1 < y.1 + y.2 && y.1 < x.1 + x.2
/-- The first record of a structure section that fails its check (R489, R490). -/
def State.structBad (s : State) (type : Nat) (b : Bytes) : Option Nat :=
  match type with
  | 1 => badRec 8 8 0 (fun i => (List.range i).any (fun j => leAt b (8 * i) 8 &&& leAt b (8 * j) 8 != 0))
  | 2 =>
    let n := b.length / 2
    if n != s.tilesHere.length then some 0
    else badRec n 2 0 (fun i => !s.tilePresent (leAt b (2 * i) 2) || (List.range i).any (fun j => leAt b (2 * j) 2 = leAt b (2 * i) 2))
  | 3 => badRec b.length 1 0 (fun i => 7 < leAt b i 1)
  | 4 => badRec 132 8 0 (fun i => !routerOk i (leAt b (8 * i) 8))
  | 5 => badRec 64 4 0 (fun i =>
      let lo := leAt b (4 * i) 2
      let hi := leAt b (4 * i + 2) 2
      lo % 5 != 0 || hi % 5 != 0 || lo < 600 || hi < lo || 850 < hi)
  | 6 => badRec 16 1 0 (fun p => let r := leAt b p 1; 2 < r || (r != 0 && !s.portPresent p) || (r = 2 && p != 15))
  | 7 => badRec (b.length / 32) 32 0 (fun i =>
      let n := leAt b (32 * i) 4
      262144 ≤ n || (List.range i).any (fun j => leAt b (32 * j) 4 = n)
        || !ringCfgOk (BitVec.ofNat 64 (leAt b (32 * i + 24) 8)) (BitVec.ofNat 64 (leAt b (32 * i + 8) 8)))
  | 9 =>
    let l := areasOf b
    let bad (i : Nat) : Bool :=
      let x := l.getD i (0, 0)
      dramSize < x.1 + x.2 || (List.range i).any (fun j => extOverlap x (l.getD j (0, 0)))
    if leAt b 0 8 % 65536 != 0 || bad 0 then some 0 else badRec (l.length - 1) 16 8 (fun i => bad (i + 1))
  | 10 =>
    let d := leAt b 4 4
    let m := leAt b 8 4
    let key (i : Nat) : Nat := leAt b (16 + 16 * i) 2
    match badRec d 16 16 (fun i => (List.range i).any (fun j => key j = key i)) with
    | some x => some x
    | none => badRec m 16 (16 + 16 * d) (fun i => 4096 ≤ key (d + i) || (List.range i).any (fun j => key (d + j) = key (d + i)))
  | 11 =>
    let k := leAt b 0 1
    let nk := leAt b 1 1
    if 7 < nk then some 1
    else if (nk = 0 && k != 0) || (nk != 0 && (k = 0 || nk < k)) then some 0
    else badRec nk 136 16 (fun i => (pointOf (slice b (16 + 136 * i) 133)).isNone)
  | _ => none
/-- Why a structure image is refused, if it is (R488, R489). -/
def State.structFail (s : State) (c : Bytes) : Option LoadFail :=
  match frameFail 0x49535754 structTypes structTypes [] (structLen s.tilesHere.length) c with
  | some f => some f
  | none => (sectsOf c).findSome? (fun x => (s.structBad x.type (sectBytes c x)).map (fun d => (lCONTENT, some (x.ix, d))))
/-- The words of `n` bytes each of a section. -/
def recs (b : Bytes) (base size n : Nat) : List Nat := (List.range ((b.length - base) / size)).map (fun i => leAt b (base + size * i) n)
/-- What a structure image gives (R489). -/
def imageOf (c : Bytes) : Image :=
  let get := bytesOf c (sectsOf c)
  let rg := get 10
  let d := leAt rg 4 4
  let m := leAt rg 8 4
  let mg := get 11
  let entry (i : Nat) : Nat × Word := (leAt rg (16 + 16 * i) 2, BitVec.ofNat 64 (leAt rg (24 + 16 * i) 8))
  { masks := (recs (get 1) 0 8 8).map (BitVec.ofNat 64)
    tileMap := recs (get 2) 0 2 2
    banks := recs (get 3) 0 1 1
    router := (recs (get 4) 0 8 8).map (BitVec.ofNat 64)
    limits := (recs (get 5) 0 4 4).map (fun v => (bits v 15 0, bits v 31 16))
    roles := recs (get 6) 0 1 1
    rings := (List.range ((get 7).length / 32)).map (fun i =>
      (leAt (get 7) (32 * i) 4, BitVec.ofNat 64 (leAt (get 7) (32 * i + 8) 8), BitVec.ofNat 64 (leAt (get 7) (32 * i + 16) 8),
        BitVec.ofNat 64 (leAt (get 7) (32 * i + 24) 8)))
    windows := (List.range 8).map (fun p => ⟨leAt (get 8) (8 * p) 2, leAt (get 8) (8 * p + 2) 2, leAt (get 8) (8 * p + 4) 1⟩)
    aduOff := leAt (get 9) 0 8
    reserved := (areasOf (get 9)).drop 1
    routeSelf := BitVec.ofNat 64 (leAt rg 0 2 + leAt rg 2 1 % 2 * 65536)
    routeDest := (List.range d).map entry
    routeMc := (List.range m).map (fun i => entry (d + i))
    routeBytes := rg
    quorum := leAt mg 0 1
    epochMin := BitVec.ofNat 64 (leAt mg 8 8)
    keys := (List.range (leAt mg 1 1)).map (fun i => slice mg (16 + 136 * i) 133) }

/-! The plan (R492, R493). -/

/-- The types of a plan's sections. -/
def planTypes : List Nat := (List.range 11).map (· + 0x101) ++ [0x200]
/-- Whether a plan section has the length of its layout (R492); CHANNELS has 32 bytes for each logical tile of the manifest. -/
def planLen (ltCount type : Nat) (b : Bytes) : Bool :=
  match type with
  | 0x101 => b.length = 128
  | 0x102 => b.length = 512
  | 0x103 => 8 ≤ b.length && b.length = 8 + 128 * leAt b 0 4
  | 0x104 => b.length = 768
  | 0x105 => b.length = 32 * ltCount
  | 0x106 => 8 ≤ b.length && b.length = 8 + 8 * leAt b 2 2
  | 0x108 => b.length % 16 = 0
  | 0x109 => b.length % 16 = 0
  | 0x10A => b.length = 136
  | 0x10B => 8 ≤ b.length && b.length = 8 + 8 * leAt b 4 4
  | 0x200 => 16 ≤ b.length && b.length = 16 + leAt b 4 4 + leAt b 8 4
  | _ => true
/-- The weight sets of a WEIGHTS section (R492), each with its offset and its MODE byte; none where the section ends within a set. -/
def weightsOf (b : Bytes) : Nat → Nat → Option (List (Nat × Nat × WSet))
  | 0, _ => if b.isEmpty then some [] else none
  | fuel + 1, o =>
    if b.length ≤ o then some []
    else
      let c0 := leAt b (o + 4) 2
      let c1 := leAt b (o + 6) 2
      let n := 8 + 16 * (c0 + c1)
      if b.length < o + n then none
      else
        let ext (i : Nat) : Nat × Nat := (leAt b (o + 8 + 16 * i) 8, leAt b (o + 16 + 16 * i) 8)
        let w : WSet :=
          { set_ := leAt b o 1, stream := leAt b (o + 1) 1 = 1, halves := leAt b (o + 2) 1, startHalf := leAt b (o + 3) 1
            extents := [(List.range c0).map ext, (List.range c1).map (fun i => ext (c0 + i))] }
        (weightsOf b fuel (o + n)).map (fun r => (o, leAt b (o + 1) 1, w) :: r)
/-- The weight sets of a section. -/
def weightSets (b : Bytes) : Option (List (Nat × Nat × WSet)) := weightsOf b (b.length / 8) 0
/-- A pattern word pair with the slots at or beyond PLEN 0 (`VBL_PATTERN0`). -/
def patOf (b : Bytes) (i : Nat) : SlotPat :=
  let o := 24 * i
  let n := min (leAt b o 1) 64
  let m (lo : Nat) : Nat := 4 ^ (min (n - lo) 32)
  { plen := leAt b o 1, planNs := leAt b (o + 2) 2, p0 := BitVec.ofNat 64 (leAt b (o + 8) 8 % m 0), p1 := BitVec.ofNat 64 (leAt b (o + 16) 8 % m 32) }
/-- What a plan container gives (R492). -/
def planOf (c : Bytes) : Plan :=
  let ss := sectsOf c
  let get := bytesOf c ss
  let mf := get 0x101
  let f (o n : Nat) : Nat := leAt mf o n
  let rg := get 0x102
  let pw := get 0x103
  let rd := get 0x106
  let sh := get 0x10A
  let rf := get 0x10B
  { partition := f 0 1
    serving := f 1 1 % 2 = 1
    lenCode := f 2 1
    horizon := f 3 1
    tallyLimit := f 4 1
    landingLag := f 5 1
    ltBase := f 8 2
    ltCount := f 10 2
    phaseNs := f 12 4
    epochNs := f 16 8
    seed := BitVec.ofNat 64 (f 24 8)
    selBase := f 32 8
    ptBase := f 40 8
    frames := f 48 4
    privBase := f 52 4
    stretch := f 56 4
    posLimit := f 60 4
    mirrorNs := f 64 4
    serviceShare := (List.range 4).map (fun i => f (68 + 2 * i) 2)
    regions := (List.range 64).map (fun n => ⟨leAt rg (8 * n) 2, leAt rg (8 * n + 2) 1, leAt rg (8 * n + 3) 1, leAt rg (8 * n + 4) 2⟩)
    power := (List.range 64).map (fun n => (List.range (leAt pw 0 4)).map (fun r => leAt pw (8 + 128 * r + 2 * n) 2))
    slots := (List.range 16).map (fun p => patOf (get 0x104) (2 * p))
    chans := (List.range ((get 0x105).length / 8)).map (fun i => (leAt (get 0x105) (8 * i) 2, BitVec.ofNat 32 (leAt (get 0x105) (8 * i + 4) 4)))
    round := if (findSect ss 0x106).isSome then
        some { len := leAt rd 0 2, lead := leAt rd 4 2, result := leAt rd 6 2
               seats := (List.range (leAt rd 2 2)).map (fun i => ⟨leAt rd (8 + 8 * i) 1 = 1, leAt rd (9 + 8 * i) 1, leAt rd (12 + 8 * i) 4⟩) }
      else none
    weights := ((weightSets (get 0x107)).getD []).map (fun e => e.2.2)
    kv := (List.range ((get 0x108).length / 16)).map (fun i => (leAt (get 0x108) (16 * i) 8, leAt (get 0x108) (16 * i + 8) 4))
    adapters := (List.range ((get 0x109).length / 16)).map (fun i => (leAt (get 0x109) (16 * i) 8, leAt (get 0x109) (16 * i + 8) 4))
    shard := if (findSect ss 0x10A).isSome then
        some (leAt sh 0 1, leAt sh 1 1, leAt sh 2 2, (List.range (leAt sh 0 1)).map (fun i => leAt sh (8 + 2 * i) 2)) else none
    refPeriod := leAt rf 0 4
    refresh := (List.range ((rf.length - 8) / 8)).map (fun i => ⟨leAt rf (8 + 8 * i) 2, leAt rf (10 + 8 * i) 1, leAt rf (11 + 8 * i) 1, leAt rf (12 + 8 * i) 2⟩)
    streams := (ss.filter (·.type = 0x200)).map (fun x =>
      let b := sectBytes c x
      ⟨leAt b 0 2, leAt b 2 2, slice b 16 (leAt b 4 4), slice b (16 + leAt b 4 4) (leAt b 8 4)⟩) }
/-- The logical tiles of a plan. -/
def Plan.lts (pl : Plan) : List Nat := (List.range pl.ltCount).map (· + pl.ltBase)
/-- The rate regions that a plan gives work. -/
def State.workRgns (s : State) (pl : Plan) : List Nat := ((s.planTiles pl).map (· / 8)).eraseDups
/-- The highest position limit (R395, R446). -/
def Plan.posMax (pl : Plan) : Nat := min (pl.group.1 * pl.stretch) 16777216
/-- Check 3 of R493, the manifest: the offset of the first field that fails (R51, R400, R425, R434, R435, R446). -/
def State.manifestBad (s : State) (part : Nat) (mf : Bytes) (pl : Plan) : Option Nat :=
  let inPart (lt : Nat) : Bool := match s.gtOfLt lt with | none => false | some g => ((s.img.masks.getD part 0).toNat.testBit (g / 8))
  let checks : List (Nat × Bool) :=
    [(0, pl.partition = part), (1, leAt mf 1 1 ≤ 1), (2, pl.lenCode ≤ 4), (3, pl.horizon ≤ 8), (5, pl.landingLag ≤ 8), (6, leAt mf 6 2 = 0),
      (8, pl.ltBase + pl.ltCount ≤ s.img.tileMap.length && pl.lts.all inPart), (10, 1 ≤ pl.ltCount && pl.ltCount ≤ 512),
      (32, pl.selBase % 1024 = 0 && pl.selBase + 1024 ≤ dramSize), (40, pl.ptBase % 64 = 0 && (!pl.serving || pl.pageTable 262144 ≤ dramSize)),
      (48, pl.frames ≤ 4194304 && (!pl.serving || 1 ≤ pl.frames)), (52, pl.privBase ≤ pl.frames),
      (56, !pl.serving || (pl.stretch % 256 = 0 && 256 ≤ pl.stretch && pl.stretch ≤ 2097152)), (60, !pl.serving || pl.posLimit ≤ pl.posMax)]
  let checks := checks ++ (List.range 4).map (fun i => (68 + 2 * i, decide (pl.serviceShare.getD i 0 ≤ 256))) ++ [(76, allZero (slice mf 76 52))]
  (checks.find? (fun e => !e.2)).map (·.1)
/-- Check 3 of R493, REGIONS: the first record that fails R51. -/
def State.regionsBad (s : State) (rg : Bytes) (pl : Plan) : Option Nat :=
  let work := s.workRgns pl
  badRec 64 8 0 (fun n =>
    match pl.regions[n]? with
    | none => true
    | some r => 16 < r.gap || leAt rg (8 * n + 6) 2 != 0
        || (if r.gap = 0 then work.contains n else r.gap ≤ r.phase || lenNs pl.lenCode < r.offNs + 320))
/-- Check 3 of R493, REFRESH: the first field or record that fails R122. -/
def refreshBad (rf : Bytes) (pl : Plan) : Option Nat :=
  if pl.refPeriod = 0 || 4096 < pl.refPeriod then some 0
  else badRec pl.refresh.length 8 8 (fun i =>
    match pl.refresh[i]? with
    | none => true
    | some r => pl.refPeriod ≤ r.t || 3 < r.iod || 15 < r.k || lenNs pl.lenCode < r.offNs + 160 || leAt rf (14 + 8 * i) 2 != 0)
/-- The fields of CHANNELS: a share of at most 256 in each record and of 256 in a tile, and a ring number or none (R272, R492). -/
def channelsBad (b : Bytes) (pl : Plan) : Option Nat :=
  let share (i : Nat) : Nat := (pl.chans.getD i (0, 0)).1
  badRec pl.chans.length 8 0 (fun i =>
    256 < ((List.range (i % 4 + 1)).map (fun j => share (i / 4 * 4 + j))).sum || leAt b (8 * i + 2) 2 != 0
      || !(leAt b (8 * i + 7) 1 / 128 = 1 || leAt b (8 * i + 4) 4 < 262144))
/-- A port's slot patterns that check 8 refuses (R315, R316, R318, R493): both directions have a pattern with the slots that the stage
length and the partition's WINDOWS record require, or neither has. -/
def slotsBad (w : WindowsRec) (b : Bytes) (pl : Plan) : Option Nat :=
  badRec 32 24 0 (fun i =>
    let t := patOf b i
    let other := patOf b (if i % 2 = 0 then i + 1 else i - 1)
    let count (cls : Nat) : Nat := patCount t.plen t.p0 t.p1 (slotsOf pl.lenCode) cls
    if t.plen = 0 then other.plen != 0
    else 64 < t.plen || count 0 < max w.repair (minRepair pl.lenCode) || count 1 < max w.catchup (minCatchup pl.lenCode))
/-- Whether a plan gives a port a pattern in either direction (R319). -/
def portUsed (b : Bytes) (p : Nat) : Bool := leAt b (48 * p) 1 != 0 || leAt b (48 * p + 24) 1 != 0
/-- The offset of the first field of the ROUND section that R400 and R450 refuse. -/
def roundBad (b : Bytes) (pl : Plan) (rt : RoundT) : Option Nat :=
  let n := rt.seats.length
  let lead := rt.lead * lenNs pl.lenCode
  if rt.len = 0 || 256 < rt.len then some 0
  else if n = 0 || 8192 < n || rt.seats.all (·.prefill) then some 2
  else if rt.lead = 0 || 8 < rt.lead || lead < 1000 + n + (if pl.shard.isSome then pl.mirrorNs else 0) then some 4
  else if rt.len < rt.result + 1 + rt.lead then some 6
  else badRec n 8 8 (fun i =>
    match rt.seats[i]? with
    | none => true
    | some t => 1 < leAt b (8 + 8 * i) 1 || leAt b (10 + 8 * i) 2 != 0
        || (if t.prefill then t.chunk = 0 || 65536 < t.chunk else t.ncand = 0 || 8 < t.ncand))
/-- The extents of a plan's weight sets. -/
def Plan.weightExts (pl : Plan) : List (Nat × Nat) := pl.weights.flatMap (fun w => w.extents.flatMap (fun l => l.map (fun e => (e.1 % 2 ^ 48, e.2))))
/-- The extents of a plan's KV regions (R434). -/
def Plan.kvExts (pl : Plan) : List (Nat × Nat) := pl.kv.map (fun r => (r.1 % 2 ^ 48, pl.frames * r.2))
/-- The extent of a serving plan's page tables (R435). -/
def Plan.ptExts (pl : Plan) : List (Nat × Nat) := if pl.serving then [(2 ^ 46 + pl.ptBase, 262144 * pl.ptStride)] else []
/-- The AREAS extents and the ADU area as global addresses of this module (R489). -/
def State.areaExts (s : State) : List (Nat × Nat) := ((s.img.aduOff, aduAreaSize) :: s.img.reserved).map (fun e => (2 ^ 46 + e.1, e.2))
/-- Whether a list of extents overlaps another. -/
def hits (a b : List (Nat × Nat)) : Bool := a.any (fun x => b.any (extOverlap x))
/-- Whether extents overlap one another. -/
def selfHits : List (Nat × Nat) → Bool
  | [] => false
  | x :: r => r.any (extOverlap x) || selfHits r
/-- The first weight set whose fields fail (R421, R492). -/
def weightsBad (ws : List (Nat × Nat × WSet)) : Option Nat :=
  ((List.range ws.length).find? (fun i =>
    match ws[i]? with
    | none => true
    | some (_, mode, w) => 63 < w.set_ || 1 < mode || w.halves = 0 || 2 < w.halves || w.halves ≤ w.startHalf
        || (w.halves = 1 && !(w.extents.getD 1 []).isEmpty) || (ws.take i).any (fun e => e.2.2.set_ = w.set_))).map (fun i => (ws.getD i (0, 0, ⟨0, false, 0, 0, []⟩)).1)
/-- The SHARD fields that fail (R446): a group of 1 to 64 modules and an index in it. -/
def shardBad (b : Bytes) : Option Nat :=
  let n := leAt b 0 1
  if n = 0 || 64 < n then some 0 else if n ≤ leAt b 1 1 then some 1 else none
/-- Why a plan is refused, if it is, in the order of R493; `now` is fabric time at the load. -/
def State.planFail (s : State) (part now : Nat) (c : Bytes) : Option LoadFail :=
  let ss := sectsOf c
  let get := bytesOf c ss
  let has (t : Nat) : Bool := (findSect ss t).isSome
  let pl := planOf c
  let at_ (t : Nat) (d : Nat) : Option (Nat × Nat) := (findSect ss t).map (fun x => (x.ix, d))
  let bad (status t : Nat) (d : Option Nat) : Option LoadFail := d.map (fun d => (status, at_ t d))
  let when_ (status t : Nat) (on : Bool) : Option LoadFail := if on then some (status, at_ t 0) else none
  let others := s.loadedParts.filter (· != part)
  let plans := others.filterMap (fun p => (s.part p).plan)
  let work := s.workRgns pl
  let peak (n : Nat) : Nat := (pl.power.getD n []).foldl max 0
  let streams := ss.filter (·.type = 0x200)
  let lt (x : Sect) : Nat := leAt (sectBytes c x) 0 2
  -- 1: framing
  (frameFail 0x4C505754 planTypes [0x101, 0x102, 0x103, 0x104, 0x105] [0x200] (planLen (leAt (get 0x101) 10 2)) c)
    <|> (when_ lFORMAT 0x106 (pl.serving != has 0x106))
    <|> (when_ lFORMAT 0x107 (weightSets (get 0x107)).isNone)
  -- 2: the partition
    <|> (if s.img.masks.getD part 0 = 0 || s.pstate part != pNONE then some (lSTATE, none) else none)
  -- 3: content
    <|> (bad lCONTENT 0x101 (s.manifestBad part (get 0x101) pl))
    <|> ((streams.find? (fun x => !pl.lts.contains (lt x) || streams.any (fun y => y.ix < x.ix && lt y = lt x)
          || 65536 < leAt (sectBytes c x) 4 4 || 65536 < leAt (sectBytes c x) 8 4 || leAt (sectBytes c x) 12 4 != 0)).map (fun x => (lCONTENT, some (x.ix, 0))))
    <|> (if pl.lts.all (fun l => streams.any (fun x => lt x = l)) then none else some (lCONTENT, none))
    <|> (bad lCONTENT 0x102 (s.regionsBad (get 0x102) pl))
    <|> (if has 0x10B then bad lCONTENT 0x10B (refreshBad (get 0x10B) pl) else none)
    <|> (when_ lCONTENT 0x103 ((pl.power.getD 0 []).isEmpty || 4096 < (pl.power.getD 0 []).length))
    <|> (bad lCONTENT 0x105 (channelsBad (get 0x105) pl))
  -- 4: encoding revisions
    <|> ((streams.find? (fun x => leAt (sectBytes c x) 2 2 != 1)).map (fun x => (lENCODING, some (x.ix, 2))))
  -- 5: conflicts
    <|> (if plans.any (fun q => q.lenCode != pl.lenCode || q.phaseNs != pl.phaseNs || (List.range 16).any (fun p => portUsed (get 0x104) p && q.hasSlots p))
          || (s.time.epochSet && pl.epochNs < (s.reg .FT_EPOCH).toNat) then some (lCONFLICT, none) else none)
  -- 6: time
    <|> (if !s.flag .FT_STATUS FT_STATUS.TIME_SET || lenNs pl.lenCode ≤ pl.phaseNs || pl.epochNs % lenNs pl.lenCode != pl.phaseNs || pl.epochNs ≤ now
        then some (lTIME, none) else none)
  -- 7: budgets as they stand
    <|> (if (List.range 64).any (fun n => s.fget (.RGN_BUDGET n) RGN_BUDGET.WATTS < peak n || (work.contains n && s.fget (.RGN_BUDGET n) RGN_BUDGET.WATTS = 0))
        then some (lBUDGET, none) else none)
  -- 8: slots and windows
    <|> (bad lCONTENT 0x104 (slotsBad (s.img.windows.getD part ⟨0, 0, 0⟩) (get 0x104) pl))
    <|> (bad lCONTENT 0x102 (badRec 64 8 0 (fun n =>
          match pl.regions[n]? with | none => true | some r => (s.img.windows.getD part ⟨0, 0, 0⟩).gap < r.gap)))
  -- 9: the round and the extents
    <|> (match pl.round with
        | none => none
        | some rt => (bad lCONTENT 0x106 (roundBad (get 0x106) pl rt)) <|> (if plans.any (·.serving) then some (lCONFLICT, none) else none))
    <|> (if has 0x10A then bad lCONTENT 0x10A (shardBad (get 0x10A)) else none)
    <|> (bad lCONTENT 0x107 (weightsBad ((weightSets (get 0x107)).getD [])))
    <|> (when_ lCONTENT 0x107 (selfHits pl.weightExts || hits pl.weightExts pl.kvExts || hits pl.weightExts s.areaExts))
    <|> (when_ lCONTENT 0x108 (hits pl.kvExts s.areaExts))
    <|> (if hits pl.ptExts s.areaExts then some (lCONTENT, at_ 0x101 40) else none)

/-! The firmware image (R484, R485). -/

/-- Why a firmware image is refused, if it is, in the order of R485. -/
def State.firmwareFail (s : State) (c : Bytes) : Option LoadFail :=
  let n := leAt c 12 4
  let e := leAt c 16 4
  let key := slice c 24 133
  if leAt c 0 4 != 0x57465754 || leAt c 4 4 != 1 || n < 8 || 1048576 < n || n % 8 != 0 || e % 4 != 0 || n ≤ e || leAt c 20 4 != 0
      || !allZero (slice c 157 99) || c.length != 388 + n then some (lFORMAT, none)
  else if sha512 key != s.fuses.rootHash then some (lKEY, none)
  else if !ecdsaOk key (c.take (256 + n)) (c.drop (256 + n)) then some (lSIGNATURE, none)
  else if leAt c 8 4 < s.fuses.minSvn.toNat then some (lROLLBACK, none)
  else none

/-! The certificate chain (R497): the SPDM chain header and the leaf's public key. The layout is that of DSP0274 and X.509 (PRESUMED,
log entry 40). -/

/-- The tag, the length of the head and the length of the body of a DER element. -/
def derHead (b : Bytes) : Option (Nat × Nat × Nat) :=
  match b with
  | t :: l :: r =>
    if l.toNat < 128 then some (t.toNat, 2, l.toNat)
    else
      let k := l.toNat - 128
      if k = 0 || 3 < k || r.length < k then none else some (t.toNat, 2 + k, beNat (r.take k))
  | _ => none
/-- The body of the first element, which has a tag, and the bytes after it. -/
def derTake (tag : Nat) (b : Bytes) : Option (Bytes × Bytes) :=
  match derHead b with
  | none => none
  | some (t, h, n) => if t = tag && h + n ≤ b.length then some (slice b h n, b.drop (h + n)) else none
/-- The bytes after the first element. -/
def derSkip (b : Bytes) : Option Bytes := (derHead b).bind (fun x => if x.2.1 + x.2.2 ≤ b.length then some (b.drop (x.2.1 + x.2.2)) else none)
/-- The certificates of a chain, whole. -/
def certsOf : Nat → Bytes → Option (List Bytes)
  | 0, b => if b.isEmpty then some [] else none
  | fuel + 1, b =>
    if b.isEmpty then some []
    else (derTake 0x30 b).bind (fun x => (certsOf fuel x.2).map (fun r => x.1 :: r))
/-- The public key bytes of a certificate's body: its subjectPublicKeyInfo's bit string. -/
def certKey (cert : Bytes) : Option Bytes := do
  let tbs ← derTake 0x30 cert
  let body := tbs.1
  let body ← if body.head? = some 0xA0 then derSkip body else some body
  let body ← derSkip body
  let body ← derSkip body
  let body ← derSkip body
  let body ← derSkip body
  let body ← derSkip body
  let spki ← derTake 0x30 body
  let rest ← derSkip spki.1
  let key ← derTake 0x03 rest
  return key.1.drop 1
/-- The leaf's public key of a chain in the SPDM format; none where it does not parse. -/
def leafKey (c : Bytes) : Option Bytes :=
  if c.length < 68 || leAt c 0 2 != c.length || leAt c 2 2 != 0 then none
  else (certsOf c.length (c.drop 68)).bind (fun l => l.getLast?.bind certKey)
/-- The 133 bytes of the device key's public point, as `DEV_KEY` holds them. -/
def State.devKey (s : State) : Bytes := ((List.range 17).flatMap (fun k => toLe 8 (s.reg (.DEV_KEY k)).toNat)).take 133
/-- Why a chain is refused, if it is (R497). -/
def State.certFail (s : State) (c : Bytes) : Option LoadFail :=
  match leafKey c with
  | none => some (lFORMAT, none)
  | some k => if k = s.devKey then none else some (lCERT, none)

end Sys2Proof.Machine
end

