-- ==== Sys2Proof/Machine/Boot.lean ====
section
/-! DEFINITION. Power-up and loads (spec/16_boot_image.md R476 to R495): calibration, the load registers, commits and UNLOAD, and the
firmware's report. -/

namespace Sys2Proof.Machine

/-! Calibration (R478, R486, R39, R40, R81, R99). -/

/-- `BOOT_STATE` takes a state and a cause. -/
def State.setBoot (s : State) (v cause : Nat) : State :=
  ((s.fset .BOOT_STATE BOOT_STATE.STATE v).fset .BOOT_STATE BOOT_STATE.CAUSE cause).refreshFaultN
/-- Phase 1: the device key's public point (R486). -/
def State.calKey (s : State) : State :=
  let k := deviceKey s.fuses.keySeed s.fuses.serial ++ [0, 0, 0]
  (List.range 17).foldl (fun s i => s.setReg (.DEV_KEY i) (BitVec.ofNat 64 (leAt k (8 * i) 8))) s
/-- Phase 2: skew trims, crossing latencies, and the fill of every crossing centred at 8 (R39 to R41). -/
def State.calLinks (s : State) (c : CalResult) : State :=
  let s := c.trims.foldl (fun s e => s.fset (.SKEW_TRIM e.1) SKEW_TRIM.TRIM_PS e.2.toNat) s
  let s := c.lats.foldl (fun s e => s.fset (.XING_FILL e.1) XING_FILL.LAT_NS e.2.toNat) s
  (List.range 36).foldl (fun s n => s.setFill n 8) s
/-- Phase 3: bad spares, and zeros in every bank, accumulator buffer, IMEM and DMEM (R81, R99, R174). -/
def State.calSram (s : State) (c : CalResult) : State :=
  let s := { s with sram := [], sramBad := [] }
  let s := s.tilesHere.foldl (fun s g => s.modTile g (fun t => { t with imem := [], dmem := [], acc := [], accBad := [] })) s
  c.badSpares.foldl (fun s e =>
    if s.tilePresent e.1 then (s.modTile e.1 (fun t => { t with badSpares := t.badSpares ||| BitVec.ofNat 4 (2 ^ e.2.val) })).refreshSpares e.1 else s) s
/-- Phase 4: LPDDR5X trained and zeroed (R81). -/
def State.calDram (s : State) : State :=
  (List.range 4).foldl (fun s i => (s.fset (.DR_STATUS i) DR_STATUS.TRAINED 1).fset (.DR_STATUS i) DR_STATUS.ZEROED 1) { s with dram := [], dramBad := [] }
/-- CALIBRATION_COMPLETE (R478): the phases before a failing one take effect. -/
def State.calibrated (s : State) (c : CalResult) : State :=
  if s.boot_ != 0 then s
  else
    let n := match c.failed with | none => 5 | some k => k.val
    let s := if 0 < n then s.calKey else s
    let s := if 1 < n then s.calLinks c else s
    let s := if 2 < n then s.calSram c else s
    let s := if 3 < n then s.calDram else s
    let s := s.fset .BOOT_STATE BOOT_STATE.CAL_MS c.calMs.toNat
    match c.failed with
    | none => s.setBoot 1 0
    | some k => s.setBoot 7 (k.val + 1)

/-! Commits (R491, R494). -/

/-- A port that loses its role ignores ENABLE (R491): its link ends. -/
def State.setRole (s : State) (p : Nat) : State :=
  if s.img.roles.getD p 0 != 0 || s.lstate p = lDISABLED || !s.portPresent p then s
  else
    let s := if s.lstate p = lUP then s.breakLink p 0 else s.clearLink p
    (s.fset (.VBL_STATUS p) VBL_STATUS.STATE (if s.stopped then lDOWN else lDISABLED)).fset (.VBL_CTRL p) VBL_CTRL.ENABLE 0
/-- The rings of a structure image (R491): every ring leaves its previous state, and a listed one is enabled. -/
def State.setRings (s : State) : State :=
  let s := { s with regs := tdropRange s.regs 0x1000000 0x1000000, ringIrq := [] }
  s.img.rings.foldl (fun s r =>
    let n := r.1
    let cfg := (Reg.RING_CFG n).info.write (Reg.RING_CFG n).info.reset ⟨.steward, .full, r.2.2.2⟩
    s.setRegs [(.RING_BASE n, r.2.1), (.RING_SHADOW n, r.2.2.1), (.RING_CFG n, RING_CFG.ENABLE.set cfg 1)]) s
/-- The routing section (R351): with an equal hash the tables stay; else they hold the section's entries and no other. -/
def State.setRouting (s : State) : State :=
  let h := sha512 s.img.routeBytes
  let words := (List.range 8).map (fun k => (Reg.ROUTE_HASH k, BitVec.ofNat 64 (leAt h (8 * k) 8)))
  if s.flag .ROUTE_STATUS ROUTE_STATUS.HASH_VALID && words.all (fun e => s.reg e.1 = e.2) then s
  else
    let put (r : Reg) (w : Word) (s : State) : State := s.setReg r (r.info.write r.info.reset ⟨.steward, .full, w⟩)
    let s := { s with regs := tdropRange s.regs 0x800000 0x90000 }
    let s := s.img.routeDest.foldl (fun s e => put (.ROUTE_DEST e.1) e.2 s) s
    let s := s.img.routeMc.foldl (fun s e => put (.ROUTE_MC e.1) e.2 s) s
    let s := put .ROUTE_SELF s.img.routeSelf s
    (s.setRegs words).fset .ROUTE_STATUS ROUTE_STATUS.HASH_VALID 1
/-- Bank owners (R92): of each logical tile the listed codes, with every count of remote writes 0 and nothing PENDING. -/
def State.setBanks (s : State) : State :=
  (List.range s.img.tileMap.length).foldl (fun s lt =>
    match s.gtOfLt lt with
    | none => s
    | some g => (List.range 72).foldl (fun s k => s.setReg (.BANK_OWN g k) (BitVec.ofNat 64 (s.img.banks.getD (72 * lt + k) 0))) s) s
/-- A structure image commits (R491). -/
def State.commitStructure (s : State) (i : Image) (meas : Bytes) : State :=
  let s := { s with img := i, boot := { s.boot with measImg := meas }, parts := [] }
  let s := allParts.foldl (fun s p =>
    let s := s.setPstate p pNONE
    s.setReg (.PART_STATE p) (PART_STATE.DEFINED.set 0 (b2n (i.masks.getD p 0 != 0)))) s
  let s := s.setBanks
  let s := (List.range 64).foldl (fun s n =>
    let l := i.limits.getD n (600, 850)
    (s.fset (.RGN_TARGET n) RGN_TARGET.VMIN l.1).fset (.RGN_TARGET n) RGN_TARGET.VMAX l.2) s
  let s := (List.range 16).foldl (fun s p => s.setRole p) s
  (s.setRings.setRouting).setBoot 4 0
/-- The slots of a stage follow the stage length on every port (R315). -/
def State.refreshSlots (s : State) : State :=
  (List.range 16).foldl (fun s p => s.setPattern p (s.fget (.VBL_SLOTS p) VBL_SLOTS.PLEN) (s.reg (.VBL_PATTERN0 p)) (s.reg (.VBL_PATTERN1 p))) s
/-- A module epoch is set (R385, R588): boundaries move to its grid, and the stage counter is 0 until it arrives. -/
def State.setEpoch (s : State) (pl : Plan) : State :=
  let s := s.setRegs [(.FT_EPOCH, BitVec.ofNat 64 pl.epochNs), (.STG_COUNT, 0),
    (.STG_CFG, BitVec.ofNat 64 (pl.lenCode + pl.h <<< 8 + pl.phaseNs <<< 16))]
  ({ s with time := { s.time with epochSet := true, arrived := false } }).refreshSlots
/-- The module epoch is cleared (R385, R588). -/
def State.clearEpoch (s : State) : State :=
  let s := s.setRegs [(.FT_EPOCH, 0), (.STG_COUNT, 0), (.STG_CFG, Reg.STG_CFG.info.reset)]
  ({ s with time := { s.time with epochSet := false, arrived := false } }).refreshSlots
/-- The service shares of the loaded plans limit the I/O-die channels (R283): the least of them, and 256 with no plan. -/
def State.setLimits (s : State) : State :=
  let plans := s.loadedParts.filterMap (fun p => (s.part p).plan)
  (List.range 4).foldl (fun s i => s.fset (.IDMA_SUM i) IDMA_SUM.LIMIT ((plans.map (fun pl => pl.serviceShare.getD i 256)).foldl min 256)) s
/-- The tile channels' shares and completion rings (R272). -/
def State.setChannels (s : State) (pl : Plan) : State :=
  (List.range pl.chans.length).foldl (fun s i =>
    match s.gtOfLt (pl.ltBase + i / 4), pl.chans[i]? with
    | some g, some e =>
      let ring := if e.2.getLsbD 31 then 0 else (e.2.toNat % 262144) <<< 16 + 1 <<< 34
      s.setReg (.TDMA_CFG g (i % 4)) (BitVec.ofNat 64 (e.1 + ring))
    | _, _ => s) s
/-- The target paces of the partition's regions that the plan uses. -/
def State.setPaces (s : State) (p : Nat) (pl : Plan) : State :=
  (s.partRgns p).foldl (fun s n =>
    match pl.regions[n]? with
    | some r => if r.gap = 0 then s else s.fset (.RGN_TARGET n) RGN_TARGET.PACE r.pace
    | none => s) s
/-- The packets of the I/O-die channels count from 0 again (R290, R494). They belong to no partition, so every plan load does it (DESIGN
CHOICE, log entry 106). -/
def State.restartSeqs (s : State) : State :=
  { s with idma := s.idma.foldl (fun t e => tput {} t e.1 { e.2 with seq := 0 }) [] }
/-- Whether a plan that was to commit comes too late (R383, R385): fabric time is unset again, or its epoch has passed since the load
began. The time at load is that of the commit (DEDUCED, log entry 107). -/
def State.planLate (s : State) (pl : Plan) : Bool := !s.flag .FT_STATUS FT_STATUS.TIME_SET || pl.epochNs ≤ s.time.ns.toNat
/-- A plan commits (R385, R494, R529): the partition is LOADED at its epoch offset. -/
def State.commitPlan (s : State) (p : Nat) (pl : Plan) (meas : Bytes) : State :=
  let s := (if s.time.epochSet then s else s.setEpoch pl).restartSeqs
  let e := (pl.epochNs - (s.reg .FT_EPOCH).toNat) / s.stageNs
  let s := s.modPart p (fun q => { q with plan := some pl, meas := meas, offset := e, commitC := 0 })
  let s := s.initPart p pl e 0
  let s := s.setReg (.PART_CMT p) (Reg.PART_CMT p).info.reset
  let s := (s.fset (.PART_STATE p) PART_STATE.SERVING (b2n pl.serving)).fset (.PART_STATE p) PART_STATE.HORIZON pl.h
  let s := ((s.setPaces p pl).setChannels pl).setLimits
  match pl.round with
  | some rt => s.aduLoad pl rt
  | none => s
/-- A firmware image commits (R485): VERIFYING, with the payload at the start of Steward memory and all four cores started at ENTRY, which
is taken as an address of Steward memory (DEDUCED, log entry 104). The table of `FW_INFO` has no field for PAYLOAD_LEN, which is kept beside
it (log entry 105). -/
def State.commitFirmware (s : State) (svn entry : BitVec 32) (meas payload : Bytes) : State :=
  let s := { s with boot := { s.boot with measFw := meas, fwLen := payload.length } }
  let s := { s with stw := { s.stw with
    mem := memWrite s.stw.mem 0 payload
    bad := s.stw.bad.filter (fun e => payload.length ≤ e.1 * 8)
    cores := (List.range 4).foldl (fun t c => tmod {} t c (fun k => { k with pc := entry.setWidth 64 })) s.stw.cores } }
  ((s.setReg .FW_INFO (svn.setWidth 64)).fset .STW_STATUS STW_STATUS.RUNNING 0xF).setBoot 2 0

/-! UNLOAD (R495). -/

/-- A tile of a partition that becomes NONE: nothing runs and no plan's share is left (R272, SEQ_STATUS). -/
def State.clearTile (s : State) (g : Nat) : State :=
  let s := ((s.haltTile g).dropRecords g).fset (.SEQ_STATUS g) SEQ_STATUS.STATE 0
  (List.range 4).foldl (fun s c => s.resetReg (.TDMA_CFG g c)) s
/-- A partition discards what it holds and becomes NONE (R385, R495, R588). -/
def State.dropPart (s : State) (p : Nat) : State :=
  let serving := s.servingPart = some p
  let s := ((s.partTiles p).filter (fun g => s.tilePresent g)).foldl (fun s g => s.clearTile g) s
  let s := (List.range 16).foldl (fun s q => s.dropParcels q p) s
  let s := match (s.part p).plan with
    | none => s
    | some pl => ((List.range 16).filter pl.hasSlots).foldl (fun s q => s.fset (.VBL_LAT q) VBL_LAT.PLAN_NS 0) (s.freePorts pl)
  let s := (s.partRgns p).foldl (fun s n => s.idleRgn n) s
  let s := if serving then s.aduUnload else s
  let s := { s with parts := tput {} s.parts p {} }
  let s := ((s.fset (.PART_STATE p) PART_STATE.SERVING 0).fset (.PART_STATE p) PART_STATE.HORIZON 0).setPstate p pNONE
  let s := (s.setReg (.PART_CMT p) (Reg.PART_CMT p).info.reset).setLimits
  let s := if s.loadedParts.isEmpty then s.clearEpoch else s
  s.refreshFaultN

/-! Loads (R480 to R483). -/

/-- A load ends (R480): the result, GO, the interrupt, and IMAGE when it is refused. A refusal that names no section reads free values
in SECTION and DETAIL. -/
def State.endLoad (s : State) (kind part status : Nat) (at_ : Option (Nat × Nat)) : State :=
  let loc : Nat × Nat × State :=
    if status = 0 then (0, 0, s)
    else match at_ with
      | some x => (x.1, x.2, s)
      | none => let a := s.freeBelow (2 ^ 16); let b := a.2.freeBelow (2 ^ 32); (a.1, b.1, b.2)
  let s := loc.2.2.setReg .BOOT_RESULT (BitVec.ofNat 64 (status + kind <<< 8 + part <<< 11 + (loc.1 % 2 ^ 16) <<< 16 + (loc.2.1 % 2 ^ 32) <<< 32))
  let s := ({ s with boot := { s.boot with load := none } }).fset .BOOT_CTRL BOOT_CTRL.GO 0
  let s := s.pulse 609
  if status = 0 then s else s.raise { code := fIMAGE, cls := cFLAG }
/-- Whether the state allows a kind of load (R481, R526). -/
def State.kindOk (s : State) (kind : Nat) : Bool :=
  !s.stopped && match s.boot_ with
    | 1 => kind = 1
    | 3 => kind = 2 || kind = 4
    | 4 => (kind = 2 && s.loadedParts.isEmpty) || kind = 3 || kind = 4 || kind = 5
    | _ => false
/-- The greatest length of a kind (R483). -/
def loadMax (kind : Nat) : Nat := [0, 1048964, 67108864, 1073741824, 65536].getD kind 0
/-- What a load of bytes will do at its end (R482, R485, R489, R493, R497). -/
def State.loadChecked (s : State) (kind part now : Nat) (c : Bytes) : LoadOutcome :=
  let answer (f : Option LoadFail) (ok : LoadOutcome) : LoadOutcome := match f with | some x => .refused x.1 x.2 | none => ok
  match kind with
  | 1 => answer (s.firmwareFail c) (.firmware (BitVec.ofNat 32 (leAt c 8 4)) (BitVec.ofNat 32 (leAt c 16 4)) (sha512 c) (slice c 256 (leAt c 12 4)))
  | 2 => answer (s.structFail c) (.structure_ (imageOf c) (sha512 c))
  | 3 => answer (s.planFail part now c) (.plan (planOf c) (sha512 c))
  | _ => answer (s.certFail c) (.cert c)
/-- A load starts (R480, R482, R483): its bytes are read once, and its checks run on them. -/
def State.startLoad (s : State) (kind part len : Nat) : State :=
  let off := (s.reg .BOOT_ADDR).toNat
  let begin_ (s : State) (o : LoadOutcome) : State := { s with boot := { s.boot with load := some { kind := kind, part := part, outcome := o } } }
  if off % 8 != 0 || len = 0 || dramSize < off + len || loadMax kind < len then begin_ s (.refused lRANGE none)
  else
    let ue := s.dramHasUe off len
    let r := s.dramRead off len (plainWho .load)
    let n := r.2.someNow
    if ue then begin_ r.2 (.refused lECC none) else begin_ n.2 (n.2.loadChecked kind part n.1 r.1)
/-- UNLOAD (R495): a RUNNING partition halts at the next boundary and the load ends there; another ends at once. -/
def State.startUnload (s : State) (part : Nat) : State :=
  if s.pstate part = pNONE then s.endLoad 5 part lSTATE none
  else if s.pstate part = pRUNNING then
    let s := s.modPart part (fun q => { q with unloading := true, haltAt := some (s.stage + 1) })
    { s with boot := { s.boot with load := some { kind := 5, part := part, outcome := .unload } } }
  else (s.dropPart part).endLoad 5 part 0 none
/-- A write of `BOOT_CTRL` (R479 to R481). -/
def State.bootCtrlWrite (s : State) (a : Acc) : State :=
  s.owned a.by_ (fun s =>
    let old := s.reg .BOOT_CTRL
    let v := Reg.BOOT_CTRL.info.write old a
    let go := BOOT_CTRL.GO.get (accOver a 0) = 1
    let busy := BOOT_CTRL.GO.get old = 1
    if s.boot_ = 0 || (go && busy) then s.fset .BOOT_STATE BOOT_STATE.LOAD_REJ 1
    else if !go then s.setReg .BOOT_CTRL (BOOT_CTRL.GO.set v (b2n busy))
    else
      let kind := BOOT_CTRL.KIND.get v
      let part := BOOT_CTRL.PARTITION.get v
      let s := s.setReg .BOOT_CTRL v
      if !s.kindOk kind then s.endLoad kind part lSTATE none
      else if kind = 5 then s.startUnload part
      else s.startLoad kind part (BOOT_CTRL.LENGTH.get v))
/-- LOAD_END (R480): the load commits in one step or is refused. After a device stop every load is refused with STATE (R526). An UNLOAD
of a RUNNING partition ends at the partition's halt boundary. -/
def State.loadEnd (s : State) : State :=
  match s.boot.load with
  | none => s
  | some l =>
    let ok (s : State) : State := s.endLoad l.kind l.part 0 none
    if s.stopped && l.outcome != .unload then s.endLoad l.kind l.part lSTATE none
    else match l.outcome with
      | .refused status x => s.endLoad l.kind l.part status x
      | .firmware svn entry meas payload => ok (s.commitFirmware svn entry meas payload)
      | .structure_ i meas => ok (s.commitStructure i meas)
      | .plan pl meas =>
        let s := s.passSome
        if s.planLate pl then s.endLoad l.kind l.part lTIME none else ok (s.commitPlan l.part pl meas)
      | .cert c => ok { s with boot := { s.boot with chain := some c } }
      | .unload => s
/-- The boundary's part of UNLOAD (R495): a partition that an UNLOAD names has halted, and becomes NONE. -/
def State.unloadBoundary (s : State) : State :=
  match s.boot.load with
  | some { kind := k, part := p, outcome := .unload } =>
    if (s.part p).unloading && s.pstate p = pHALTED then (s.dropPart p).endLoad k p 0 none else s
  | _ => s

/-! The firmware's report (R485, R510). -/

/-- FIRMWARE_READY (R485, R510): RUNNING, with the levels and core targets that the firmware gave its sources. -/
def State.firmwareReady (s : State) (l : FwSources) : State :=
  if s.boot_ != 2 then s
  else
    let s := l.foldl (fun s e =>
      if (e.1.val ≤ 605 || e.1.val = 614) && e.2.2.toNat < 4 then s.putSrc e.1 { s.src e.1 with prio := e.2.1, target := e.2.2 } else s) s
    s.setBoot 3 0
/-- FIRMWARE_READY_TIMEOUT (R485). -/
def State.firmwareLate (s : State) : State := if s.boot_ = 2 then s.setBoot 7 6 else s

/-- CALIBRATION_COMPLETE -/
def execCalibrationComplete (c : CalResult) (s : State) : Res := live s (·.calibrated c)
/-- LOAD_FIRMWARE -/
def execLoadFirmware (a : Acc) (s : State) : Res := live s (·.bootCtrlWrite a)
/-- LOAD_STRUCTURE -/
def execLoadStructure (a : Acc) (s : State) : Res := live s (·.bootCtrlWrite a)
/-- LOAD_PLAN -/
def execLoadPlan (a : Acc) (s : State) : Res := live s (·.bootCtrlWrite a)
/-- LOAD_CERT -/
def execLoadCert (a : Acc) (s : State) : Res := live s (·.bootCtrlWrite a)
/-- UNLOAD -/
def execUnload (a : Acc) (s : State) : Res := live s (·.bootCtrlWrite a)
/-- LOAD_REFUSED_KIND -/
def execLoadRefusedKind (a : Acc) (s : State) : Res := live s (·.bootCtrlWrite a)
/-- LOAD_END -/
def execLoadEnd (s : State) : Res := live s (·.loadEnd)
/-- FIRMWARE_READY -/
def execFirmwareReady (l : FwSources) (s : State) : Res := live s (·.firmwareReady l)
/-- FIRMWARE_READY_TIMEOUT -/
def execFirmwareReadyTimeout (s : State) : Res := live s (·.firmwareLate)

end Sys2Proof.Machine
end

