-- ==== Sys2Proof/Machine/Attest.lean ====
section
/-! DEFINITION. Attestation (spec/16_boot_image.md R496 to R498): the SPDM requests of the three MCTP bindings. The order that the
requests of a connection must keep is DSP0274's (PRESUMED, log entry 41). -/

namespace Sys2Proof.Machine

/-- The number of a binding. -/
def bindIx : SpdmBinding → Nat
  | .h0 => 0
  | .h1 => 1
  | .smbus => 2
/-- The connection state of a binding. -/
def State.spdmOf (s : State) (b : SpdmBinding) : SpdmSt := tget {} s.spdm (bindIx b)
/-- The connection state of a binding takes a value. -/
def State.putSpdm (s : State) (b : SpdmBinding) (x : SpdmSt) : State := { s with spdm := tput {} s.spdm (bindIx b) x }
/-- An SPDM request (R496): ERROR Busy before RUNNING, no answer once the cores have stopped, and an error out of the order of a
connection. -/
def State.spdmReq (s : State) (b : SpdmBinding) (ready : SpdmSt → Bool) (f : State → State) : State :=
  if s.boot_ != 3 && s.boot_ != 4 then s.emit (.spdmBusy b)
  else if !s.stewardUp then s
  else if ready (s.spdmOf b) then f s
  else s.emit (.spdmUnexpected b)
/-- GET_VERSION: a connection starts. -/
def State.getVersion (s : State) (b : SpdmBinding) : State :=
  s.spdmReq b (fun _ => true) (fun s => (s.putSpdm b { version := true }).emit (.version b))
/-- GET_CAPABILITIES -/
def State.getCaps (s : State) (b : SpdmBinding) : State :=
  s.spdmReq b (·.version) (fun s => (s.putSpdm b { version := true, caps := true }).emit (.capabilities b))
/-- NEGOTIATE_ALGORITHMS (R496): ECDSA P-521 and SHA-512. -/
def State.getAlgs (s : State) (b : SpdmBinding) : State :=
  s.spdmReq b (·.caps) (fun s => (s.putSpdm b { version := true, caps := true, algs := true }).emit (.algorithms b))
/-- GET_DIGESTS (R497). -/
def State.getDigests (s : State) (b : SpdmBinding) : State :=
  s.spdmReq b (·.algs) (fun s => s.emit (.digests b (s.boot.chain.map sha512)))
/-- GET_CERTIFICATE (R496): a portion of the chain of slot 0. -/
def State.getCertificate (s : State) (b : SpdmBinding) (slot off len : Nat) : State :=
  s.spdmReq b (·.algs) (fun s =>
    match s.boot.chain with
    | none => s.emit (.spdmInvalid b)
    | some c =>
      if slot != 0 || c.length ≤ off then s.emit (.spdmInvalid b)
      else
        let part := slice c off len
        s.emit (.certificate b part (c.length - off - part.length)))
/-- A signature under the device key: 132 bytes that depend on a random number. -/
def State.sigBytes (s : State) : Bytes × State := s.freeBytes 132
/-- CHALLENGE (R497). -/
def State.challenge (s : State) (b : SpdmBinding) (slot : Nat) : State :=
  s.spdmReq b (·.algs) (fun s =>
    match s.boot.chain with
    | none => s.emit (.spdmInvalid b)
    | some c =>
      if slot != 0 then s.emit (.spdmInvalid b)
      else
        let n := s.freeBytes 32
        let g := n.2.sigBytes
        g.2.emit (.challengeAuth b (sha512 c) n.1 g.1))
/-- The measurement indices (R497). -/
def measIndices : List Nat := [1, 2, 3, 4, 5] ++ (List.range 8).map (· + 16)
/-- The readable fuse fields (R476): ROOT_HASH, SERIAL, GRADE, PORTS, TILES, MIN_SVN and SI_REV. -/
def Fuses.readable (f : Fuses) : List Bytes :=
  [f.rootHash, toLe 8 f.serial.toNat, [f.grade.setWidth 8], toLe 2 f.ports.toNat, f.tiles.flatMap (fun w => toLe 8 w.toNat),
    toLe 4 f.minSvn.toNat, [f.siRev]]
/-- The value of a measurement (R497). Before a structure image is loaded, index 5 is a free value. -/
def State.measValue (s : State) (i : Nat) : Bytes × State :=
  match i with
  | 1 => ((List.range 64).map Config.bootRomHash, s)
  | 2 => (s.boot.measFw, s)
  | 3 => (toLe 4 (s.fget .FW_INFO FW_INFO.SVN) ++ toLe 4 s.fuses.minSvn.toNat, s)
  | 4 => (sha512 (Config.fuseImage s.fuses.readable), s)
  | 5 => if s.boot.measImg.isEmpty then s.freeBytes 64 else (s.boot.measImg, s)
  | i => (if s.pstate (i - 16) = pNONE then List.replicate 64 0 else (s.part (i - 16)).meas, s)
/-- Several measurements, from one snapshot (R498). -/
def State.measValues (s : State) : List Nat → List (Nat × Bytes) × State
  | [] => ([], s)
  | i :: r => let v := s.measValue i; let t := v.2.measValues r; ((i, v.1) :: t.1, t.2)
/-- GET_MEASUREMENTS (R497, R498): index 0 asks for the number of indices, 0xFF for every one. -/
def State.getMeasurements (s : State) (b : SpdmBinding) (ix : Nat) (signed : Bool) : State :=
  s.spdmReq b (·.algs) (fun s =>
    if signed && s.boot.chain.isNone then s.emit (.spdmInvalid b)
    else if ix != 0 && ix != 255 && !measIndices.contains ix then s.emit (.spdmInvalid b)
    else
      let v := if ix = 0 then ([(0, [BitVec.ofNat 8 measIndices.length])], s) else s.measValues (if ix = 255 then measIndices else [ix])
      if signed then let g := v.2.sigBytes; g.2.emit (.measurements b v.1 (some g.1))
      else v.2.emit (.measurements b v.1 none))

/-- GET_VERSION -/
def execGetVersion (b : SpdmBinding) (s : State) : Res := live s (·.getVersion b)
/-- GET_CAPABILITIES -/
def execGetCapabilities (b : SpdmBinding) (s : State) : Res := live s (·.getCaps b)
/-- NEGOTIATE_ALGORITHMS -/
def execNegotiateAlgorithms (b : SpdmBinding) (s : State) : Res := live s (·.getAlgs b)
/-- GET_DIGESTS -/
def execGetDigests (b : SpdmBinding) (s : State) : Res := live s (·.getDigests b)
/-- GET_CERTIFICATE -/
def execGetCertificate (b : SpdmBinding) (slot : BitVec 4) (off len : BitVec 16) (s : State) : Res :=
  live s (·.getCertificate b slot.toNat off.toNat len.toNat)
/-- CHALLENGE. The requester's nonce enters only the signature. -/
def execChallenge (b : SpdmBinding) (slot : BitVec 4) (_nonce : Bytes) (s : State) : Res := live s (·.challenge b slot.toNat)
/-- GET_MEASUREMENTS. The requester's nonce enters only the signature. -/
def execGetMeasurements (b : SpdmBinding) (ix : Byte) (signed : Bool) (_nonce : Bytes) (s : State) : Res :=
  live s (·.getMeasurements b ix.toNat signed)
/-- MCTP_CONTROL (R496): answered in every boot state. -/
def execMctpControl (b : SpdmBinding) (cmd : Byte) (s : State) : Res := live s (·.emit (.mctp b cmd))

end Sys2Proof.Machine
end

