-- ==== Sys2Proof/Machine/Recovery.lean ====
section
/-! DEFINITION. Recovery and fencing (spec/18_faults.md R528 to R532, R539 to R541). -/

namespace Sys2Proof.Machine

/-! Resume (R528 to R532). -/

/-- STATE, a resume status (R528). -/
def uSTATE : Nat := 1
/-- MEASURE -/
def uMEASURE : Nat := 2
/-- STAGE -/
def uSTAGE : Nat := 3
/-- SHIFT -/
def uSHIFT : Nat := 4
/-- ECC -/
def uECC : Nat := 5
/-- Whether a resume check is in progress. -/
def State.resuming (s : State) : Bool := s.flag .RESUME_CTRL RESUME_CTRL.GO
/-- A write of `RESUME_ADDR`, `RESUME_C` or `RESUME_Q` (R528). -/
def State.resumeValWrite (s : State) (r : Reg) (a : Acc) : State :=
  s.owned a.by_ (fun s => if s.resuming then s.fset .RESUME_CTRL RESUME_CTRL.RESUME_REJ 1 else s.plainWrite r a)
/-- Whether a partition's state refuses a resume (R526, R528). -/
def State.resumeState (s : State) (p : Nat) : Bool := s.stopped || (s.pstate p != pHALTED && s.pstate p != pLOADED)
/-- A write of `RESUME_CTRL` (R528): GO latches the values. A load in progress makes the status STATE. -/
def State.resumeCtrlWrite (s : State) (a : Acc) : State :=
  s.owned a.by_ (fun s =>
    if s.resuming then s.fset .RESUME_CTRL RESUME_CTRL.RESUME_REJ 1
    else
      let s := s.plainWrite .RESUME_CTRL a
      if !s.resuming then s
      else
        let p := s.fget .RESUME_CTRL RESUME_CTRL.PARTITION
        let u : ResumeSt :=
          { part := p, addr := (s.reg .RESUME_ADDR).toNat, len := s.fget .RESUME_CTRL RESUME_CTRL.LENGTH
            c := (s.reg .RESUME_C).toNat, q := (s.reg .RESUME_Q).toNat, early := s.resumeState p || s.boot.load.isSome }
        { s with resume := some u })
/-- The LEN of a plan's round; 1 without one (R528). -/
def Plan.roundLen (pl : Plan) : Nat := match pl.round with | none => 1 | some rt => rt.len
/-- LEAD is 0 for a plan without a round (R528). -/
def Plan.roundLead (pl : Plan) : Nat := match pl.round with | none => 0 | some rt => rt.lead
/-- The STAGE check of a resume (R528). -/
def State.resumeStage (s : State) (pl : Plan) (u : ResumeSt) : Bool :=
  let next := ((s.reg (.PART_CMT u.part)).toNat + 1) % 2 ^ 64
  if s.pstate u.part = pLOADED then u.c % pl.roundLen != 0
  else next < u.c || (pl.serving && u.c != pl.roundLen * (next / pl.roundLen))
/-- The SHIFT check of a resume of a HALTED partition (R528). -/
def State.resumeShift (s : State) (pl : Plan) (u : ResumeSt) : Bool :=
  let d : Int := (u.q : Int) - u.c
  s.pstate u.part = pHALTED && (d % ((pl.power.getD 0 []).length : Int) != 0 || d % (pl.roundLen : Int) != 0 || u.q < s.stage + pl.roundLead + 2)
/-- An accepted resume (R529 to R532). -/
def State.resumePart (s : State) (pl : Plan) (u : ResumeSt) : State :=
  let start := if s.pstate u.part = pHALTED then u.q else (s.part u.part).start
  let s := s.initPart u.part pl start u.c
  let s := s.modPart u.part (fun q => { q with commitC := u.c })
  match pl.round with
  | some rt => s.aduResume rt u.c
  | none => s
/-- A resume check ends with a status (R528). -/
def State.resumeEnd (s : State) (status : Nat) : State :=
  ({ s with resume := none }).setReg .RESUME_CTRL
    (RESUME_CTRL.STATUS.set (RESUME_CTRL.GO.set (s.reg .RESUME_CTRL) 0) status)
/-- RESUME_CHECK_END (R528): the first failure in the order of the table sets the status. -/
def State.resumeCheck (s : State) : State :=
  match s.resume with
  | none => s
  | some u =>
    match (s.part u.part).plan with
    | none => s.resumeEnd uSTATE
    | some pl =>
      if u.early || s.resumeState u.part then s.resumeEnd uSTATE
      else if dramSize < u.addr + u.len then s.resumeEnd uMEASURE
      else
        let ue := s.dramHasUe u.addr u.len
        let r := s.dramRead u.addr u.len (plainWho .load)
        let s := r.2
        if ue then s.resumeEnd uECC
        else if sha512 r.1 != (s.part u.part).meas then s.resumeEnd uMEASURE
        else if s.resumeStage pl u then s.resumeEnd uSTAGE
        else if s.resumeShift pl u then s.resumeEnd uSHIFT
        else (s.resumePart pl u).resumeEnd 0

/-! Fencing (R539 to R541). -/

/-- A fence order begins its check (R539). -/
def State.fenceBegin (s : State) (submit : Bool) (b : Bytes) : State := { s with fence := s.fence ++ [(submit, b)] }
/-- FENCE_SUBMIT (R539): an order in LPDDR5X. While GO reads 1 a further GO starts nothing. -/
def State.fenceSubmitWrite (s : State) (a : Acc) : State :=
  s.owned a.by_ (fun s =>
    let busy := s.flag .FENCE_SUBMIT FENCE_SUBMIT.GO
    let go := FENCE_SUBMIT.GO.get (accOver a 0) = 1
    let s := (s.plainWrite .FENCE_SUBMIT a).fset .FENCE_SUBMIT FENCE_SUBMIT.GO (b2n (busy || go))
    if busy || !go then s
    else
      let off := s.fget .FENCE_SUBMIT FENCE_SUBMIT.OFFSET
      let len := s.fget .FENCE_SUBMIT FENCE_SUBMIT.LENGTH
      if dramSize < off + len then s.fenceBegin true []
      else let r := s.dramRead off len (plainWho .steward); r.2.fenceBegin true r.1)
/-- The signatures of a fence order: key index and *r* and *s*. -/
def fenceSigs (b : Bytes) : List (Nat × Bytes) := (List.range (leAt b 7 1)).map (fun i => (leAt b (32 + 136 * i) 1, slice b (36 + 136 * i) 132))
/-- Whether a fence order has the layout of R539. -/
def fenceFormat (b : Bytes) : Bool :=
  let n := leAt b 7 1
  leAt b 0 4 = 0x4E465754 && leAt b 6 1 = 1 && 1 ≤ n && n ≤ 7 && b.length = 32 + 136 * n && allZero (slice b 16 16)
    && (List.range n).all (fun i => allZero (slice b (33 + 136 * i) 3))
/-- The reason that refuses a fence order, or 0 (R540). -/
def State.fenceReason (s : State) (b : Bytes) : Nat :=
  let keys := s.img.keys
  let sigs := fenceSigs b
  if !fenceFormat b then 1
  else if leAt b 4 2 != s.fget .ROUTE_SELF ROUTE_SELF.MODULE || !s.flag .ROUTE_SELF ROUTE_SELF.SELF_VALID then 2
  else if keys.isEmpty then 3
  else if ((sigs.map (·.1)).filter (· < keys.length)).eraseDups.length < s.img.quorum then 4
  else if sigs.any (fun g => match keys[g.1]? with | none => true | some k => !ecdsaOk k (b.take 32) g.2) then 5
  else if leAt b 8 8 < s.img.epochMin.toNat || (s.flag .FENCE_STATUS FENCE_STATUS.FENCED && leAt b 8 8 ≤ (s.reg .FENCE_EPOCH).toNat) then 6
  else if s.boot_ != 3 && s.boot_ != 4 then 7
  else 0
/-- FENCE_CHECK_END (R540, R541): a refusal is recorded and counted; an accepted order raises FENCED, a device stop. -/
def State.fenceCheckEnd (s : State) : State :=
  match s.fence with
  | [] => s
  | (submit, b) :: r =>
    if !s.coresRun then s
    else
      let s := { s with fence := r }
      let s := if submit then s.fset .FENCE_SUBMIT FENCE_SUBMIT.GO 0 else s
      match s.fenceReason b with
      | 0 =>
        ((s.fset .FENCE_STATUS FENCE_STATUS.FENCED 1).setReg .FENCE_EPOCH (BitVec.ofNat 64 (leAt b 8 8))).deviceStop { code := fFENCED, cls := cSTOP }
      | n => (s.fset .FENCE_STATUS FENCE_STATUS.LAST_REASON n).fadd .FENCE_STATUS FENCE_STATUS.REFUSED 1

/-- RESUME -/
def execResume (a : Acc) (s : State) : Res := live s (·.resumeCtrlWrite a)
/-- RESUME_CHECK_END -/
def execResumeCheckEnd (s : State) : Res := live s (·.resumeCheck)
/-- FENCE_ORDER (R340, R341, R539, R542): a management packet with OFFSET 3. -/
def execFenceOrder (p : Port) (k : Packet) (s : State) : Res := live s (·.mgmtIn p k 3 (·.fenceBegin false k.payload))
/-- FENCE_SUBMIT -/
def execFenceSubmit (a : Acc) (s : State) : Res := live s (·.fenceSubmitWrite a)
/-- FENCE_CHECK_END -/
def execFenceCheckEnd (s : State) : Res := live s (·.fenceCheckEnd)

end Sys2Proof.Machine
end

