-- ==== Sys2Proof/Machine/Boundary.lean ====
section
/-! DEFINITION. The stage boundary (spec/02_stages.md R32, spec/12_fabric_time.md R384, R588): what the module does when fabric time
reaches the next boundary, in the order of spec/95_what_each_step_holds.md. -/

namespace Sys2Proof.Machine

/-- Fabric time reaches the next boundary (R384, R588): the stage counter advances once the module epoch has arrived. -/
def State.nextStage (s : State) : State :=
  let t := s.nextBoundary
  let s := s.passStage
  if !s.time.epochSet then s
  else if s.time.arrived then s.setReg .STG_COUNT (BitVec.ofNat 64 (s.stage + 1))
  else if t = (s.reg .FT_EPOCH).toNat then { s with time := { s.time with arrived := true } }
  else s
/-- A tile's part of a boundary: releases of patches, deferred counts, the length of its waits, and what waits to land (R88, R108, R240,
R295, R298). -/
def State.tileBoundary (s : State) (g : Nat) : State := (((s.releaseEffects g).deferredEnter g).waitTick g).drainLanding g
/-- The values of `VBL_CTRL` and `VBL_TIMERS` come into force (R339), the intervals of R337 and R338 grow, and a link whose ends have taken
each other's epoch is UP (R334). -/
def State.portBoundary (s : State) (p : Nat) (peers : List Port) : State :=
  ((s.ageProbes p).modPort p (fun t => { t with ctrl := s.reg (.VBL_CTRL p), timers := s.reg (.VBL_TIMERS p) })).linkBoundary (Fin.ofNat 16 p) peers
/-- Due completion records of every tile channel (R523). -/
def State.flushRecords (s : State) : State :=
  (s.tiles.filter (fun e => e.2.chans.any (fun c => !c.2.due.isEmpty))).foldl (fun s e =>
    (List.range 4).foldl (fun s ch => s.flushDue e.1 ch (s.chan (.tile (Fin.ofNat 512 e.1) (Fin.ofNat 4 ch))).due.length) s) s
/-- What the units do at a boundary, in the order of spec/95_what_each_step_holds.md: `e` is the stage that ends, and `counted` says that the
stage counter advanced. -/
def State.boundaryWork (s : State) (counted : Bool) (e : Nat) (b : BoundaryIn) : State :=
  let s := ((s.ratesBoundary e b.meas).shareBoundary).crossBoundary
  let s := s.tilesHere.foldl (fun s g => s.tileBoundary g) s
  let s := (List.range 16).foldl (fun s p => s.portBoundary p b.peers) s
  let s := (b.fec.foldl (fun s f => s.fecCount f) s).takePatterns
  let s := if counted then s.lockBoundary e else s
  let s := if s.time.arrived then s.startParts else s
  let s := s.ringBoundary.commitAll.roundBoundary.aduBoundary.flushRecords
  let s := s.haltBoundary.unloadBoundary
  let s := { s with boot := { s.boot with sealed := s.stopped } }
  s.refreshBackup
/-- STAGE_BOUNDARY. -/
def State.stageBoundary (s : State) (b : BoundaryIn) : State :=
  s.nextStage.boundaryWork (s.time.epochSet && s.time.arrived) s.stage b

/-- STAGE_BOUNDARY -/
def execStageBoundary (b : BoundaryIn) (s : State) : Res := live s (·.stageBoundary b)

end Sys2Proof.Machine
end

