-- ==== Sys2Proof/Machine/Power.lean ====
section
/-! DEFINITION. The power controller (spec/20_electrical.md R567 to R588): the supply, PWRGD, the thermal trip, and the PMBus commands
it answers. Its rows act whether or not the dies do. -/

namespace Sys2Proof.Machine

/-! The supply (R567 to R572, R580). -/

/-- A row of the power controller. -/
def onPower (s : State) (f : State → State) : Res := .next (f { s with out := [] })
/-- The controller's state changed by a function. -/
def State.modPwr (s : State) (f : Pwr → Pwr) : State := { s with pwr := f s.pwr }
/-- Every die loses its state: what follows is the machine at reset, with the fuses, the controller and the waiting commands (R476,
R571). The count of free values goes on, so that no two uses meet. -/
def State.loseDies (s : State) (ph : PwrPhase) : State :=
  { State.reset with pending := s.pending, free := s.free, fuses := s.fuses, pwr := { s.pwr with phase := ph, hot := false } }
/-- A phase that the supply is in passes to another. -/
def State.passPhase (s : State) (a b : PwrPhase) : State := if s.pwr.phase = a then s.modPwr (fun p => { p with phase := b }) else s
/-- VIN_TURN_ON (R567): the input capacitance charges. -/
def State.vinOn (s : State) : State := s.passPhase .off .charging
/-- VIN_TURN_OFF (R567, R571, R580, R585): power is removed, a trip and a lockout end, the controller keeps no state of its own, and VIN_UV is
set. -/
def State.vinOff (s : State) : State := (s.loseDies .off).modPwr (fun p => { p with thermtrip := false, vinUv := true, page := 0, cml := false })
/-- VIN_OVERVOLTAGE (R567): the module stops until VIN has fallen below 37 V. A thermal trip stays one (R580). -/
def State.vinOver (s : State) : State := if s.pwr.phase = .tripped then s else s.loseDies .lockout
/-- INPUT_CHARGED (R570): the good converters start. -/
def State.inputCharged (s : State) : State := s.passPhase .charging .converting
/-- RAILS_GOOD (R569, R570): the module releases PWRGD, but not after a thermal trip. -/
def State.railsGood (s : State) : State := if s.pwr.thermtrip then s else s.passPhase .converting .released
/-- PWRGD_RISE (R477, R478, R569): a new power-up begins with the calibration phases. -/
def State.pwrgdRise (s : State) : State := if s.pwr.phase = .released && !s.pwr.thermtrip then s.loseDies .up else s
/-- PWRGD_FALL (R477, R569): the integrator holds PWRGD low, and every die is held in reset. -/
def State.pwrgdFall (s : State) : State := if s.pwr.phase = .up then s.loseDies .released else s
/-- POWER_LOSS (R571): a rail or the 6 V bus has failed; the controller starts the conversion again. -/
def State.powerLoss (s : State) : State :=
  if s.pwr.phase = .up || s.pwr.phase = .released || s.pwr.phase = .converting then s.loseDies .converting else s
/-- CONVERTER_FAIL (R572): a first-stage converter is cut off. -/
def State.converterFail (s : State) (n : Converter) : State := s.modPwr (fun p => { p with convOff := p.convOff ||| BitVec.ofNat 5 (2 ^ n.val) })
/-- SENSOR_OVERTEMP (R517, R579): THERMAL, once for a passage above 105 °C. -/
def State.overtemp (s : State) : State :=
  if !s.alive || s.pwr.hot then s else (s.modPwr (fun p => { p with hot := true })).raise { code := fTHERMAL, parts := allParts }
/-- JUNCTION_TEMPERATURE_RETURN (R579): the next passage above 105 °C raises THERMAL again. -/
def State.tempReturn (s : State) : State := if s.alive then s.modPwr (fun p => { p with hot := false }) else s
/-- THERMAL_DIODE_TRIP (R517, R580): THERMTRIP_N is asserted, and dies that act raise THERMAL as a device stop. -/
def State.diodeTrip (s : State) : State :=
  if s.pwr.phase = .off || s.pwr.thermtrip then s
  else
    let s := s.modPwr (fun p => { p with thermtrip := true })
    if s.alive then s.deviceStop { code := fTHERMAL } else s
/-- THERMTRIP_POWER_OFF (R580): power is removed and PWRGD stays low until VIN falls below 37 V. -/
def State.tripOff (s : State) : State := if s.pwr.thermtrip && s.pwr.phase != .off then s.loseDies .tripped else s

/-! PMBus (R585). -/

/-- A command on the power controller's address: answered while VIN is above 37 V. -/
def State.pm (s : State) (f : State → State) : State := if s.pwr.phase = .off then s else f s
/-- A refused command: a NACK, and CML. -/
def State.pmRefuse (s : State) : State := (s.modPwr (fun p => { p with cml := true })).emit .nack
/-- A command that applies to a range of pages. -/
def State.pmRead (s : State) (lo hi : Nat) (b : Bytes) : State :=
  s.pm (fun s => if lo ≤ s.pwr.page.toNat && s.pwr.page.toNat ≤ hi then s.emit (.pmbus b) else s.pmRefuse)
/-- PAGE. -/
def State.pmPage (s : State) (w : PageAccess) : State :=
  s.pm (fun s => match w with
    | .read => s.emit (.pmbus [s.pwr.page])
    | .write n => if 17 < n.toNat then s.pmRefuse else s.modPwr (fun p => { p with page := n }))
/-- The bits of STATUS_WORD. -/
def State.pmStatus (s : State) (m : PageSense) : Nat :=
  let p := s.pwr.page.toNat
  let conv := 1 ≤ p && p ≤ 5
  b2n (conv && m.voutBad) <<< 15 + b2n (p = 0 && m.vinBad) <<< 13 + b2n (s.pwr.phase != .up) <<< 11
    + b2n (conv && s.pwr.convOff.toNat.testBit (p - 1)) <<< 6 + b2n (p = 0 && s.pwr.vinUv) <<< 3 + b2n (p != 0 && m.hot) <<< 2
    + b2n s.pwr.cml <<< 1
/-- STATUS_WORD: a read clears bits 3 and 1. -/
def State.pmStatusRead (s : State) (m : PageSense) : State :=
  s.pm (fun s => (s.emit (.pmbus (toLe 2 (s.pmStatus m)))).modPwr (fun p => { p with cml := false, vinUv := false }))
/-- The commands of the table. -/
def pmCodes : List Nat := [0x00, 0x20, 0x79, 0x88, 0x89, 0x8B, 0x8C, 0x8D, 0x96, 0x97, 0x98]
/-- PMBUS_REFUSED_COMMAND: a command outside the table, or a write to any but PAGE. -/
def State.pmOther (s : State) (code : Byte) (write : Bool) : State :=
  s.pm (fun s => if !pmCodes.contains code.toNat || (write && code != 0) then s.pmRefuse else s)

/-- VIN_TURN_ON -/
def execVinTurnOn (s : State) : Res := onPower s (·.vinOn)
/-- VIN_TURN_OFF -/
def execVinTurnOff (s : State) : Res := onPower s (·.vinOff)
/-- VIN_OVERVOLTAGE -/
def execVinOvervoltage (s : State) : Res := onPower s (·.vinOver)
/-- INPUT_CHARGED -/
def execInputCharged (s : State) : Res := onPower s (·.inputCharged)
/-- RAILS_GOOD -/
def execRailsGood (s : State) : Res := onPower s (·.railsGood)
/-- PWRGD_RISE -/
def execPwrgdRise (s : State) : Res := onPower s (·.pwrgdRise)
/-- PWRGD_FALL -/
def execPwrgdFall (s : State) : Res := onPower s (·.pwrgdFall)
/-- POWER_LOSS -/
def execPowerLoss (s : State) : Res := onPower s (·.powerLoss)
/-- CONVERTER_FAIL -/
def execConverterFail (n : Converter) (s : State) : Res := onPower s (·.converterFail n)
/-- SENSOR_OVERTEMP -/
def execSensorOvertemp (s : State) : Res := onPower s (·.overtemp)
/-- JUNCTION_TEMPERATURE_RETURN (R579). -/
def execJunctionTemperatureReturn (s : State) : Res := onPower s (·.tempReturn)
/-- THERMAL_DIODE_TRIP -/
def execThermalDiodeTrip (s : State) : Res := onPower s (·.diodeTrip)
/-- THERMTRIP_POWER_OFF -/
def execThermtripPowerOff (s : State) : Res := onPower s (·.tripOff)
/-- PAGE -/
def execPage (w : PageAccess) (s : State) : Res := onPower s (·.pmPage w)
/-- VOUT_MODE -/
def execVoutMode (s : State) : Res := onPower s (·.pmRead 1 5 [0x17])
/-- STATUS_WORD -/
def execStatusWord (m : PageSense) (s : State) : Res := onPower s (·.pmStatusRead m)
/-- READ_VIN -/
def execReadVin (r : BitVec 16) (s : State) : Res := onPower s (·.pmRead 0 0 (toLe 2 r.toNat))
/-- READ_IIN -/
def execReadIin (r : BitVec 16) (s : State) : Res := onPower s (·.pmRead 0 0 (toLe 2 r.toNat))
/-- READ_VOUT -/
def execReadVout (r : BitVec 16) (s : State) : Res := onPower s (·.pmRead 1 5 (toLe 2 r.toNat))
/-- READ_IOUT -/
def execReadIout (r : BitVec 16) (s : State) : Res := onPower s (·.pmRead 1 5 (toLe 2 r.toNat))
/-- READ_TEMPERATURE_1 -/
def execReadTemperature1 (r : BitVec 16) (s : State) : Res := onPower s (·.pmRead 1 17 (toLe 2 r.toNat))
/-- READ_POUT -/
def execReadPout (r : BitVec 16) (s : State) : Res := onPower s (·.pmRead 1 17 (toLe 2 r.toNat))
/-- READ_PIN -/
def execReadPin (r : BitVec 16) (s : State) : Res := onPower s (·.pmRead 0 0 (toLe 2 r.toNat))
/-- PMBUS_REVISION -/
def execPmbusRevision (s : State) : Res := onPower s (·.pmRead 0 255 [0x33])
/-- PMBUS_REFUSED_COMMAND -/
def execPmbusRefusedCommand (code : Byte) (write : Bool) (s : State) : Res := onPower s (·.pmOther code write)

end Sys2Proof.Machine
end

