-- ==== Sys2Proof/Machine/Relay.lean ====
section
/-! DEFINITION. The launch relay (spec/11_routing.md R353 to R366): a stream received, kept in the delivery area, forwarded to
children, grafted around a failed parent, and counted. -/

namespace Sys2Proof.Machine

/-! Launch packets (R353). -/

/-- DATA, a launch packet kind -/
def lDATA : Nat := 0
/-- HEARTBEAT -/
def lHEARTBEAT : Nat := 1
/-- GRAFT_REQ -/
def lGRAFT_REQ : Nat := 2
/-- GRAFT_ACK -/
def lGRAFT_ACK : Nat := 3
/-- GRAFT_NAK -/
def lGRAFT_NAK : Nat := 4
/-- DONE -/
def lDONE : Nat := 5
/-- The payload of a launch packet. -/
def launchBytes (k : LaunchPkt) : Bytes :=
  toLe 4 k.launchId.toNat ++ [k.kind, k.depth, k.flags, k.reason] ++ toLe 2 k.parent.toNat ++ toLe 2 k.grandparent.toNat
    ++ toLe 4 k.count.toNat ++ toLe 8 k.streamOff.toNat ++ toLe 8 k.streamLen.toNat ++ k.data
/-- A management packet with a payload leaves `inbound`. -/
def State.takeMgmt (s : State) (p : Port) (payload : Bytes) : State :=
  match s.inbound.find? (fun e => e.1 = p && leAt e.2 18 1 = oMGMT && e.2.drop 32 == payload) with
  | none => s
  | some e => s.takeInbound p e.2
/-- Whether the module takes part in a launch. -/
def State.rlyOn (s : State) : Bool := s.flag .RLY_CTRL RLY_CTRL.ENABLE
/-- Whether the module is the root. -/
def State.rlyRoot (s : State) : Bool := s.flag .RLY_CTRL RLY_CTRL.ROOT
/-- The module's depth. -/
def State.rlyDepth (s : State) : Nat := s.fget .RLY_FAMILY RLY_FAMILY.DEPTH
/-- The state of the relay (RLY_STATUS.STATE). -/
def State.rlyState (s : State) : Nat := s.fget .RLY_STATUS RLY_STATUS.STATE
/-- The relay's state replaced. -/
def State.rlySet (s : State) (n : Nat) : State := s.fset .RLY_STATUS RLY_STATUS.STATE n
/-- Bytes held without a gap. -/
def State.rlyHeld (s : State) : Nat := s.fget .RLY_PROGRESS RLY_PROGRESS.HELD
/-- The stream's length as far as the module knows it. -/
def State.rlyLen (s : State) : Nat := if s.rlyRoot then s.fget .RLY_FEED RLY_FEED.LEN else s.relay.len.getD 0
/-- The module sends a launch packet, of its own launch unless an answer belongs to another (R353, R355). -/
def State.sendLaunch (s : State) (m kind : Nat) (off : Nat := 0) (data : Bytes := []) (reason : Nat := 0) (count : Nat := 0)
    (parent : Option Nat := none) (id : Option (BitVec 32) := none) : State :=
  let gp := s.flag .RLY_FAMILY RLY_FAMILY.HAS_PARENT
  let k : LaunchPkt :=
    { src := BitVec.ofNat 16 s.self, launchId := id.getD (BitVec.ofNat 32 (s.fget .RLY_CTRL RLY_CTRL.LAUNCH_ID)), kind := BitVec.ofNat 8 kind
      depth := BitVec.ofNat 8 s.rlyDepth, flags := if gp then 1 else 0, reason := BitVec.ofNat 8 reason
      parent := BitVec.ofNat 16 (parent.getD s.self), grandparent := BitVec.ofNat 16 (s.fget .RLY_FAMILY RLY_FAMILY.PARENT)
      count := BitVec.ofNat 32 count, streamOff := BitVec.ofNat 64 off, streamLen := BitVec.ofNat 64 s.rlyLen, data := data }
  let b := launchBytes k
  s.sendOff .service { hdr := s.hdr oMGMT (m * 2 ^ 48 + 2 ^ 46) b.length, payload := b }
/-- A launch packet arrives (R340, R341, R354): it must belong to the module's launch. -/
def State.launchIn (s : State) (p : Port) (k : LaunchPkt) (kind : Nat → Bool) (f : State → State) : State :=
  if !kind k.kind.toNat then s
  else
    let s := s.takeMgmt p (launchBytes k)
    if !s.flag .ROUTE_SELF ROUTE_SELF.SELF_VALID then s
    else if s.rlyOn && k.launchId.toNat = s.fget .RLY_CTRL RLY_CTRL.LAUNCH_ID then f s else s.foreign

/-! Children and completion (R357, R364, R365). -/

/-- The valid child slots. -/
def State.children (s : State) : List Nat := (List.range 8).filter (fun c => s.flag (.RLY_CHILD c) RLY_CHILD.VALID)
/-- 1 plus the latest COUNT of each valid child slot. -/
def State.rlySum (s : State) : Nat := 1 + ((s.children).map (fun c => s.fget (.RLY_CHILD c) RLY_CHILD.COUNT)).sum
/-- Whether a non-root module holds the stream (R356). -/
def State.rlyHolds (s : State) : Bool := s.relay.len = some s.rlyHeld
/-- TOTAL of the root, and DONE of a module that holds the stream, follow the counts (R364, R365). -/
def State.doneUpdate (s : State) : State :=
  if s.rlyRoot then s.fset .RLY_STATUS RLY_STATUS.TOTAL s.rlySum
  else if s.rlyHolds && s.flag .RLY_FAMILY RLY_FAMILY.HAS_PARENT && s.relay.doneSent != some s.rlySum then
    let n := s.rlySum
    let par := s.fget .RLY_FAMILY RLY_FAMILY.PARENT
    let s := s.sendLaunch par lDONE (count := n) (parent := some par)
    ({ s with relay := { s.relay with doneSent := some n } }).fset .RLY_STATUS RLY_STATUS.TOTAL n
  else s
/-- A DATA packet goes to every valid child (R357). -/
def State.forward (s : State) (off : Nat) (b : Bytes) : State :=
  if 8 ≤ s.rlyDepth then (if s.children.isEmpty then s else s.fset .RLY_STATUS RLY_STATUS.CHILD_IGN 1)
  else
    let s := s.children.foldl (fun s c => s.sendLaunch (s.fget (.RLY_CHILD c) RLY_CHILD.MODULE) lDATA off b) s
    { s with relay := { s.relay with fwd := max s.relay.fwd (off + b.length) } }

/-! Receiving (R355, R356). -/

/-- The family takes a parent from a packet (R355). -/
def State.takeParent (s : State) (k : LaunchPkt) : State :=
  let v := k.src.toNat + k.grandparent.toNat <<< 16 + 1 <<< 32 + (k.flags.toNat % 2) <<< 33 + (min (k.depth.toNat + 1) 8) <<< 36
  s.setReg .RLY_FAMILY (BitVec.ofNat 64 v)
/-- Whether a packet comes from the current parent. -/
def State.fromParent (s : State) (k : LaunchPkt) : Bool :=
  s.flag .RLY_FAMILY RLY_FAMILY.HAS_PARENT && s.fget .RLY_FAMILY RLY_FAMILY.PARENT = k.src.toNat
/-- What every packet tells a module of its family (R355): the first DATA or HEARTBEAT names its parent, and later ones of the parent
refresh the grandparent. -/
def State.familyIn (s : State) (k : LaunchPkt) : State :=
  if s.rlyRoot then s
  else if !s.flag .RLY_FAMILY RLY_FAMILY.HAS_PARENT then
    if k.kind.toNat ≤ 1 then ({ s with relay := { s.relay with len := some k.streamLen.toNat } }).takeParent k else s
  else if s.fromParent k then
    let s := (s.fset .RLY_FAMILY RLY_FAMILY.GRANDPARENT k.grandparent.toNat).fset .RLY_FAMILY RLY_FAMILY.HAS_GP (k.flags.toNat % 2)
    { s with relay := { s.relay with heard := true } }
  else s
/-- An extent joins the extents held; extents that touch become one. -/
def joinSpan (a : Nat × Nat) : List (Nat × Nat) → List (Nat × Nat)
  | [] => [a]
  | b :: r =>
    if a.2 < b.1 then a :: b :: r
    else if b.2 < a.1 then b :: joinSpan a r
    else joinSpan (min a.1 b.1, max a.2 b.2) r
/-- HELD follows the extents held, and a module that holds the whole stream reports (R356, R364). -/
def State.heldUpdate (s : State) : State :=
  let h := match s.relay.spans with | e :: _ => if e.1 = 0 then e.2 else 0 | [] => 0
  if s.rlyRoot then s
  else
    let s := s.fset .RLY_PROGRESS RLY_PROGRESS.HELD h
    match s.relay.len with
    | some n => if h = n && s.rlyState != 2 then (s.rlySet 2).doneUpdate else s
    | none => s
/-- The delivery area: its base and its size in bytes. -/
def State.rlyArea (s : State) : Nat × Nat := (s.fget .RLY_AREA RLY_AREA.BASE * 0x4000000, s.fget .RLY_AREA RLY_AREA.SIZE * 0x4000000)
/-- The bytes of a DATA packet land in the delivery area (R356). -/
def State.streamWrite (s : State) (off : Nat) (b : Bytes) : State :=
  let a := s.rlyArea
  let fit := b.take (a.2 - off)
  let s := if fit.length < b.length then s.fset .RLY_STATUS RLY_STATUS.OVERRUN 1 else s
  if fit.isEmpty then s
  else
    let s := s.dramWrite ((a.1 + off) % dramSize) fit (plainWho .steward)
    { s with relay := { s.relay with spans := joinSpan (off, off + fit.length) s.relay.spans } }
/-- LAUNCH_DATA (R355 to R357, R364). -/
def State.launchData (s : State) (k : LaunchPkt) : State :=
  let s := (s.familyIn k).streamWrite k.streamOff.toNat k.data
  (s.heldUpdate).forward k.streamOff.toNat k.data
/-- LAUNCH_HEARTBEAT (R355, R356). -/
def State.launchBeat (s : State) (k : LaunchPkt) : State := (s.familyIn k).heldUpdate

/-! Silence and grafts (R358, R360 to R363). -/

/-- HEARTBEAT_TIMER (R358): at every depth, with a parent or without one. -/
def State.beatTimer (s : State) (c : ChildSlot) : State :=
  if s.rlyOn && s.flag (.RLY_CHILD c) RLY_CHILD.VALID then
    s.sendLaunch (s.fget (.RLY_CHILD c) RLY_CHILD.MODULE) lHEARTBEAT s.rlyHeld
  else s
/-- RELAY is raised (R363, R365). -/
def State.raiseRelay (s : State) : State := (s.fset .RLY_STATUS RLY_STATUS.RELAY 1).raise { code := fRELAY, cls := cFLAG }
/-- SILENCE_TIMEOUT (R360). -/
def State.silence (s : State) : State :=
  if !s.rlyOn || s.rlyRoot || s.rlyState != 1 || !s.flag .RLY_FAMILY RLY_FAMILY.HAS_PARENT then s
  else if !s.flag .RLY_FAMILY RLY_FAMILY.HAS_GP then (s.rlySet 4).raiseRelay
  else
    let s := s.sendLaunch (s.fget .RLY_FAMILY RLY_FAMILY.GRANDPARENT) lGRAFT_REQ s.rlyHeld (parent := some (s.fget .RLY_FAMILY RLY_FAMILY.PARENT))
    ({ s with relay := { s.relay with heard := false, graft := true } }).rlySet 3
/-- A graft that failed (R362, R363): the old parent stays if it has been heard since, and the module is orphaned if not. A module that has
come to hold the stream meanwhile shows so (log entry 54). -/
def State.graftFail (s : State) : State :=
  if !s.relay.graft then s
  else
    let heard := s.relay.heard
    let s := { s with relay := { s.relay with graft := false } }
    let s := s.rlySet (if s.rlyHolds then 2 else if heard then 1 else 4)
    if heard then s else s.raiseRelay
/-- GRAFT_ACK (R355, R362, R364): the grandparent becomes the parent, and a module that holds the stream sends it DONE. -/
def State.graftAck (s : State) (k : LaunchPkt) : State :=
  let s := s.familyIn k
  if s.relay.graft && s.fget .RLY_FAMILY RLY_FAMILY.GRANDPARENT = k.src.toNat then
    let s := ({ s with relay := { s.relay with doneSent := none, graft := false } }).takeParent k
    (s.rlySet (if s.rlyHolds then 2 else 1)).doneUpdate
  else s
/-- GRAFT_NAK (R362). -/
def State.graftNak (s : State) (k : LaunchPkt) : State :=
  let s := s.familyIn k
  if s.fget .RLY_FAMILY RLY_FAMILY.GRANDPARENT = k.src.toNat then s.graftFail else s
/-- Stream bytes are sent again to one module from an offset up to F (R361). -/
def State.resend (s : State) (m off : Nat) : Nat → State
  | 0 => s
  | n + 1 =>
    let len := min 4064 (s.relay.fwd - off)
    if len = 0 then s
    else
      let r := s.dramRead ((s.rlyArea.1 + off) % dramSize) len (plainWho .steward)
      (r.2.sendLaunch m lDATA off r.1).resend m (off + len) n
/-- GRAFT_REQ (R361): the first row of the table that holds. -/
def State.graftReq (s : State) (k : LaunchPkt) : State :=
  let m := k.src.toNat
  let off := k.streamOff.toNat
  let nak (n : Nat) : State := s.sendLaunch m lGRAFT_NAK off [] n (id := some k.launchId)
  let again (s : State) : State := (s.sendLaunch m lGRAFT_ACK off).resend m off (s.relay.fwd / 4064 + 1)
  if !s.rlyOn || 8 ≤ s.rlyDepth then nak 3
  else if s.children.any (fun c => s.fget (.RLY_CHILD c) RLY_CHILD.MODULE = m) then again s
  else if off + 67108864 < s.relay.fwd then nak 2
  else match [4, 5, 6, 7].find? (fun c => !s.flag (.RLY_CHILD c) RLY_CHILD.VALID) with
    | none => nak 1
    | some c => again (s.setReg (.RLY_CHILD c) (BitVec.ofNat 64 (m + 3 <<< 16)))
/-- A GRAFT_REQ arrives: a relay that takes no part answers it too, in the requester's launch (R361). -/
def State.graftReqIn (s : State) (p : Port) (k : LaunchPkt) : State :=
  if k.kind.toNat != lGRAFT_REQ then s
  else
    let s := s.takeMgmt p (launchBytes k)
    if !s.flag .ROUTE_SELF ROUTE_SELF.SELF_VALID then s
    else if s.rlyOn && k.launchId.toNat != s.fget .RLY_CTRL RLY_CTRL.LAUNCH_ID then s.foreign
    else if s.rlyOn then (s.familyIn k).graftReq k else s.graftReq k
/-- LAUNCH_DONE (R364, R365). -/
def State.launchDone (s : State) (k : LaunchPkt) : State :=
  match s.children.find? (fun c => s.fget (.RLY_CHILD c) RLY_CHILD.MODULE = k.src.toNat) with
  | none => s
  | some c => (s.fset (.RLY_CHILD c) RLY_CHILD.COUNT k.count.toNat).doneUpdate

/-! The root (R359, R365). -/

/-- The stream bytes that host software has placed (R359). -/
def State.feedLimit (s : State) : Nat := min (s.fget .RLY_FEED RLY_FEED.AVAIL * 65536) (s.fget .RLY_FEED RLY_FEED.LEN)
/-- ROOT_SEND_PACKET (R359, R365): the next bytes of the stream; an empty stream is one empty packet. The completion timer starts when
the last has gone. -/
def State.rootSend (s : State) : State :=
  let off := s.relay.sent
  let n := min 4064 (s.feedLimit - off)
  let len := s.fget .RLY_FEED RLY_FEED.LEN
  if !s.rlyOn || !s.rlyRoot || (n = 0 && !(len = 0 && s.rlyState != 2)) then s
  else
    let r := s.dramRead ((s.rlyArea.1 + off) % dramSize) n (plainWho .steward)
    let s := r.2.forward off r.1
    let s := { s with relay := { s.relay with sent := off + n, timerOn := off + n = len } }
    if off + n = len then s.rlySet 2 else s
/-- DONE_TIMER_EXPIRE (R365). -/
def State.doneTimer (s : State) : State :=
  if !s.rlyOn || !s.rlyRoot || !s.relay.timerOn || s.fget .RLY_EXPECT RLY_EXPECT.DONE_MS = 0 then s
  else
    let s := { s with relay := { s.relay with timerOn := false } }
    if s.fget .RLY_STATUS RLY_STATUS.TOTAL < s.fget .RLY_EXPECT RLY_EXPECT.EXPECT then s.raiseRelay else s

/-! Writes (R359, R366). -/

/-- ROUTE_REJ is set. -/
def State.routeRej (s : State) : State := s.fset .ROUTE_STATUS ROUTE_STATUS.ROUTE_REJ 1
/-- The module's part in the launch ends (R366). -/
def State.relayEnd (s : State) : State :=
  let s := { s with relay := {} }
  let s := (s.setReg .RLY_FAMILY 0).setReg .RLY_PROGRESS 0
  let s := [4, 5, 6, 7].foldl (fun s c => s.setReg (.RLY_CHILD c) 0) s
  let s := [0, 1, 2, 3].foldl (fun s c => s.fset (.RLY_CHILD c) RLY_CHILD.COUNT 0) s
  (s.fset .RLY_STATUS RLY_STATUS.TOTAL 0).rlySet 0
/-- A write of `RLY_CTRL` (R354, R366). While ENABLE is 1 a write writes a field other than ENABLE when it would change it, and is then
discarded but for ENABLE (log entry 54). -/
def State.rlyCtrl (s : State) (a : Acc) : State :=
  s.owned a.by_ (fun s =>
    let old := s.reg .RLY_CTRL
    let v := keepField RLY_CTRL.TIMEOUT_US old (Reg.RLY_CTRL.info.write old a) 100 65535
    let en := RLY_CTRL.ENABLE.get v
    if RLY_CTRL.ENABLE.get old = 1 then
      let s := if RLY_CTRL.ENABLE.set v 1 = old then s else s.routeRej
      if en = 1 then s else (s.setReg .RLY_CTRL (RLY_CTRL.ENABLE.set old 0)).relayEnd
    else
      let s := s.setReg .RLY_CTRL v
      if en = 0 then s
      else
        let s := s.rlySet 1
        if RLY_CTRL.ROOT.get v = 1 then (s.fset .RLY_PROGRESS RLY_PROGRESS.HELD s.feedLimit).fset .RLY_STATUS RLY_STATUS.TOTAL s.rlySum else s)
/-- A write of `RLY_FEED` (R359, R366). -/
def State.rlyFeed (s : State) (a : Acc) : State :=
  s.owned a.by_ (fun s =>
    let old := s.reg .RLY_FEED
    let v := Reg.RLY_FEED.info.write old a
    let rej := s.rlyOn && RLY_FEED.LEN.get v != RLY_FEED.LEN.get old
    let s := if rej then s.routeRej else s
    let v := if rej then RLY_FEED.LEN.set v (RLY_FEED.LEN.get old) else v
    if RLY_FEED.AVAIL.get v < RLY_FEED.AVAIL.get old then s
    else
      let s := s.setReg .RLY_FEED v
      if s.rlyOn && s.rlyRoot then s.fset .RLY_PROGRESS RLY_PROGRESS.HELD s.feedLimit else s)
/-- A write of `RLY_AREA` or of a child slot 0 to 3 (R366). -/
def State.rlyPlain (s : State) (r : Reg) (a : Acc) : State :=
  s.owned a.by_ (fun s => if s.rlyOn then s.routeRej else s.plainWrite r a)

/-- LAUNCH_DATA -/
def execLaunchData (p : Port) (k : LaunchPkt) (s : State) : Res := live s (·.launchIn p k (· = lDATA) (·.launchData k))
/-- LAUNCH_HEARTBEAT -/
def execLaunchHeartbeat (p : Port) (k : LaunchPkt) (s : State) : Res := live s (·.launchIn p k (· = lHEARTBEAT) (·.launchBeat k))
/-- GRAFT_REQ -/
def execGraftReq (p : Port) (k : LaunchPkt) (s : State) : Res := live s (·.graftReqIn p k)
/-- GRAFT_ACK -/
def execGraftAck (p : Port) (k : LaunchPkt) (s : State) : Res := live s (·.launchIn p k (· = lGRAFT_ACK) (·.graftAck k))
/-- GRAFT_NAK -/
def execGraftNak (p : Port) (k : LaunchPkt) (s : State) : Res := live s (·.launchIn p k (· = lGRAFT_NAK) (·.graftNak k))
/-- LAUNCH_DONE -/
def execLaunchDone (p : Port) (k : LaunchPkt) (s : State) : Res :=
  live s (·.launchIn p k (· = lDONE) (fun s => (s.familyIn k).launchDone k))
/-- LAUNCH_RESERVED_KIND (R353). -/
def execLaunchReservedKind (p : Port) (k : LaunchPkt) (s : State) : Res := live s (·.launchIn p k (5 < ·) (·.foreign))
/-- HEARTBEAT_TIMER -/
def execHeartbeatTimer (c : ChildSlot) (s : State) : Res := live s (·.beatTimer c)
/-- SILENCE_TIMEOUT -/
def execSilenceTimeout (s : State) : Res := live s (·.silence)
/-- GRAFT_TIMEOUT -/
def execGraftTimeout (s : State) : Res := live s (fun s => if s.rlyOn then s.graftFail else s)
/-- ROOT_SEND_PACKET -/
def execRootSendPacket (s : State) : Res := live s (·.rootSend)
/-- DONE_TIMER_EXPIRE -/
def execDoneTimerExpire (s : State) : Res := live s (·.doneTimer)
/-- RLY_FEED_WRITE -/
def execRlyFeedWrite (a : Acc) (s : State) : Res := live s (·.rlyFeed a)
/-- RELAY_ENABLE -/
def execRelayEnable (a : Acc) (s : State) : Res := live s (·.rlyCtrl a)
/-- RELAY_DISABLE -/
def execRelayDisable (a : Acc) (s : State) : Res := live s (·.rlyCtrl a)

end Sys2Proof.Machine
end

