-- ==== Sys2Proof/Machine/RegWrite.lean ====
section
/-! DEFINITION. A write to any offset of BAR0 (spec/00_scope.md R5 to R10, spec/15_host_ports.md R465): ownership first, then the
register's own rule. Each register with a row of its own takes the operation of that row. -/

namespace Sys2Proof.Machine

/-- The part of a register that an access of some bytes at an offset addresses; none for another size or alignment (R7, R9). -/
def accOf (w : RegWrite) : Option Acc :=
  let o := w.off.toNat
  if w.bytes = 8 && o % 8 = 0 then some ⟨w.by_, .full, w.val⟩
  else if w.bytes = 4 && o % 4 = 0 then some ⟨w.by_, if o % 8 = 0 then .lo else .hi, w.val &&& 0xFFFFFFFF⟩
  else none
/-- A register that only Steward cores write (R505, R506, R514). -/
def State.coreOnly (s : State) (a : Acc) (f : State → State) : State := if a.by_ = .steward then f s else s.owned a.by_ id
/-- SEQ_FAULT (R261): a 1 written to VALID clears the whole register. -/
def State.faultClear (s : State) (g : Nat) (a : Acc) : State :=
  if (accWide a &&& accMask a).toNat.testBit 48 then s.resetReg (.SEQ_FAULT g) else s
/-- A write to a register by its rule. -/
def State.writeReg (s : State) (r : Reg) (a : Acc) : State :=
  match r with
  | .BOOT_CTRL => s.bootCtrlWrite a
  | .OWN_CLAIM => s.ownClaim a
  | .OWN_REQUEST => s.ownRequest a
  | .OWN_HANDOVER => s.ownHandover a
  | .OWN_LAPSE => s.ownLapse a
  | .HP_STATUS p =>
    match a.by_ with
    | .host q => if q.val = p then s.plainWrite r a else s.owned a.by_ (·.plainWrite r a)
    | .steward => s.plainWrite r a
  | .APER_WIN w => s.aperWrite w a
  | .MSIX_TABLE i => s.msixWrite i a
  | .MSIX_PBA _ => s
  | .MB_CTRL => s.mbCtrlWrite a
  | .TEL_CFG => s.telCfgWrite a
  | .INT_SRC n => s.srcWrite n a
  | .INT_SET => s.intSet a
  | .CORE_THRESH _ => s.coreOnly a (·.plainWrite r a)
  | .CORE_COMPLETE c => s.coreOnly a (fun s =>
      if a.size = .hi then s else s.coreComplete (Fin.ofNat 4 c) (Fin.ofNat 1024 (CORE_COMPLETE.SOURCE.get (accWide a))))
  | .HOLD_LIMIT => s.holdLimit a
  | .RGN_BUDGET n => s.budgetWrite n a
  | .FT_CTRL => s.ftCtrl a
  | .FT_STEP => s.ftStep a
  | .FT_RATE => s.ftRate a
  | .FT_LIMITS => s.ftLimits a
  | .VBL_CTRL p => s.vblCtrlWrite (Fin.ofNat 16 p) a
  | .VBL_TIMERS p => s.vblTimersWrite (Fin.ofNat 16 p) a
  | .ROUTE_DEST _ => s.routeWrite r a
  | .ROUTE_MC _ => s.routeWrite r a
  | .ROUTE_SELF => s.routeWrite r a
  | .RLY_CTRL => s.rlyCtrl a
  | .RLY_FEED => s.rlyFeed a
  | .RLY_AREA => s.rlyPlain r a
  | .RLY_CHILD _ => s.rlyPlain r a
  | .ADU_CTRL => s.owned a.by_ (fun s => let s := s.plainWrite r a; (s.flushEvents s.adu.held.length).aduRefresh)
  | .ADU_CANCEL w => s.cancelWrite w a
  | .ACCT_CFG n => s.acctCfgWrite n a
  | .ACCT_BAL n => s.acctBal n a
  | .RING_BASE n => s.ringAddrWrite r n a
  | .RING_SHADOW n => s.ringAddrWrite r n a
  | .RING_IDX n => s.ringConsWrite n a
  | .RING_CFG n => s.ringCfgWrite n a
  | .SEQ_FAULT g => s.owned a.by_ (·.faultClear g a)
  | .TALLY g t => s.tallyWrite g t a
  | .BANK_OWN g k => s.bankOwnWrite g k a
  | .PATCH_MAP g e => s.patchRelease g e a
  | .IDMA_CTRL i c => s.idmaCtrlWrite i c a
  | .IDMA_RINGS i c => s.idmaRingsWrite i c a
  | .RESUME_ADDR => s.resumeValWrite r a
  | .RESUME_C => s.resumeValWrite r a
  | .RESUME_Q => s.resumeValWrite r a
  | .RESUME_CTRL => s.resumeCtrlWrite a
  | .LS_CTRL => s.lsCtrlWrite a
  | .FENCE_SUBMIT => s.fenceSubmitWrite a
  | r => s.owned a.by_ (·.plainWrite r a)
/-- REGISTER_WRITE (R2, R7, R9, R465): a write of another size or alignment, to an unassigned offset, or in the window of a fused tile or
an absent port has no effect; from a non-owner it is counted. -/
def State.regWrite (s : State) (w : RegWrite) : State :=
  match accOf w, Reg.ofOff (w.off.toNat / 8 * 8) with
  | some a, some r => if s.regAbsent r then s.owned w.by_ id else s.writeReg r a
  | _, _ => s.owned w.by_ id

/-- REGISTER_WRITE -/
def execRegisterWrite (w : RegWrite) (s : State) : Res := live s (·.atTime w.at_ (·.regWrite w))

end Sys2Proof.Machine
end

