-- ==== Sys2Proof/Machine/Math.lean ====
section
/-! DEFINITION. The functions of R203, each correctly rounded to FP32. A function is bounded between two binary fractions of `p` bits
behind the point; when both bounds round to one code that code is the result, and otherwise the work is done again with more bits. -/

namespace Sys2Proof.Machine

/-- The integer square root, by Newton's steps from above. -/
def isqrtLoop (n : Nat) : Nat → Nat → Nat
  | 0, y => y
  | k + 1, y => let z := (y + n / max y 1) / 2; if z < y then isqrtLoop n k z else y
/-- The integer square root. -/
def isqrt (n : Nat) : Nat := isqrtLoop n 64 (2 ^ (n.log2 / 2 + 1))

/-- The sum of t, t·a/d₁, t·a/d₁·a/d₂ …, where `step` gives each term from the one before it; it stops at a term of 0. -/
def series (term : Nat → Int → Int) : Nat → Nat → Int → Int
  | 0, _, _ => 0
  | f + 1, n, t => if t = 0 then 0 else t + series term f (n + 1) (term n t)
/-- e^r for 0 ≤ r < 1 in units of 2^−p. -/
def expUnit (p : Nat) (r : Int) : Int := series (fun n t => (t * r).tdiv (2 ^ p * ((n : Int) + 1))) (p / 2 + 16) 0 (2 ^ p)
/-- The sum z + z³/3 + z⁵/5 …, in units of 2^−p, from z² and its odd powers. -/
def atanhLoop (p : Nat) (z2 : Int) : Nat → Nat → Int → Int
  | 0, _, _ => 0
  | f + 1, n, w => if w = 0 then 0 else w.tdiv (2 * (n : Int) + 1) + atanhLoop p z2 f (n + 1) ((w * z2).tdiv (2 ^ p))
/-- atanh of a fraction of at most 1/3, in units of 2^−p. -/
def atanhUnit (p : Nat) (z : Int) : Int := atanhLoop p ((z * z).tdiv (2 ^ p)) (p / 2 + 16) 0 z
/-- ln 2 in units of 2^−p. -/
def ln2Unit (p : Nat) : Int := 2 * atanhUnit p ((2 ^ p : Int).tdiv 3)
/-- The alternating sum 1/q − 1/(3q³) + 1/(5q⁵) …, in units of 2^−p. -/
def atanInv (q : Nat) : Nat → Nat → Int → Int
  | 0, _, _ => 0
  | f + 1, n, w => if w = 0 then 0 else w.tdiv (2 * (n : Int) + 1) - atanInv q f (n + 1) (w.tdiv ((q : Int) * q))
/-- π in units of 2^−p, by Machin's formula. -/
def piUnit (p : Nat) : Int :=
  16 * atanInv 5 (p / 2 + 16) 0 ((2 ^ p : Int).tdiv 5) - 4 * atanInv 239 (p / 2 + 16) 0 ((2 ^ p : Int).tdiv 239)
/-- A magnitude m × 2^e cut to units of 2^−p. -/
def fixed (p m : Nat) (e : Int) : Nat := if 0 ≤ e + p then m * 2 ^ (e + p).toNat else m / 2 ^ (-(e + p)).toNat

/-- Slack of the bounds, in units of 2^−p. -/
def slack : Nat := 2 ^ 20
/-- e^x for x = v in units of 2^−p: A and k, with e^x within `slack` of A × 2^(k − p), counted in units of 2^(k − p). -/
def expPair (p : Nat) (v : Int) : Nat × Int :=
  let l := ln2Unit p
  let k := v / l
  ((expUnit p (v - k * l)).toNat, k)
/-- e^−y for y ≥ 0 in units of 2^−p, within 2 × `slack`. -/
def expNeg (p : Nat) (y : Nat) : Nat :=
  let x := expPair p (-(y : Int))
  x.1 / 2 ^ (-x.2).toNat

/-- Bounds of a positive result: both numerators, and the exponent of their unit. -/
structure Bounds where
  lo : Nat
  hi : Nat
  e : Int
  deriving DecidableEq, Repr
/-- Bounds around a centre. -/
def Bounds.around (c w : Nat) (e : Int) : Bounds := ⟨c - w, c + w, e⟩
/-- The FP32 value of a function's magnitude (R203): the bounds narrow until both round to one code. -/
def narrow (neg : Bool) (f : Nat → Bounds) : List Nat → Val
  | [] => .nan
  | p :: r =>
    let b := f p
    let lo := fp32.encodeQ .rne false neg b.lo 1 b.e
    let hi := fp32.encodeQ .rne false neg b.hi 1 b.e
    if lo = hi || r.isEmpty then fp32.decode hi else narrow neg f r
/-- The precisions tried. -/
def precisions : List Nat := [128, 256, 512, 1024]

/-- Whether m × 2^e is at least the integer `k`. -/
def atLeast (m : Nat) (e : Int) (k : Nat) : Bool := !((Val.num false m e).lt (.num false k 0))

/-- EXP -/
def fExp : Val → Val
  | .nan => .nan
  | .inf n => if n then .zero else .inf false
  | .num n m e =>
    if m = 0 then .num false 1 0
    else if atLeast m e 105 then (if n then .zero else .inf false)
    else narrow false (fun p =>
      let v : Int := fixed p m e
      let x := expPair p (if n then -v else v)
      Bounds.around x.1 slack (x.2 - p)) precisions
/-- LN -/
def fLn : Val → Val
  | .nan => .nan
  | .inf n => if n then .nan else .inf false
  | .num n m e =>
    if m = 0 then .inf true
    else if n then .nan
    else
      let k := flog2 m 1 + e
      let w : Nat := 2 ^ m.log2
      if k = 0 && m = w then .zero
      else
        let at_ (p : Nat) : Int := k * ln2Unit p + 2 * atanhUnit p ((((m : Int) - w) * 2 ^ p).tdiv (m + w))
        narrow (k < 0) (fun p => Bounds.around (at_ p).natAbs slack (-(p : Int))) precisions
/-- RCP -/
def fRcp : Val → Val
  | .nan => .nan
  | .inf n => .num n 0 0
  | .num n m e => if m = 0 then .inf n else rneQ n 1 m (-e)
/-- SQRT -/
def fSqrt : Val → Val
  | .nan => .nan
  | .inf n => if n then .nan else .inf false
  | .num n m e =>
    if m = 0 then .num n 0 0
    else if n then .nan
    else
      let m' := if e % 2 = 0 then m else 2 * m
      let h := e / 2
      let a := m' * 2 ^ 128
      let r := isqrt a
      rneQ false (2 * r + if r * r = a then 0 else 1) 1 (h - 65)
/-- RSQRT -/
def fRsqrt : Val → Val
  | .nan => .nan
  | .inf n => if n then .nan else .zero
  | .num n m e =>
    if m = 0 then .inf n
    else if n then .nan
    else
      let m' := if e % 2 = 0 then m else 2 * m
      let h := e / 2
      let r := isqrt (2 ^ 160 / m')
      rneQ false (2 * r + if r * r * m' = 2 ^ 160 then 0 else 1) 1 (-h - 81)
/-- 1 ÷ (1 + e^−x) in units of 2^−p, for x of the magnitude m × 2^e and a sign. -/
def sigUnit (p : Nat) (n : Bool) (m : Nat) (e : Int) : Nat :=
  let x := expNeg p (fixed p m e)
  (if n then x else 2 ^ p) * 2 ^ p / (2 ^ p + x)
/-- SIGMOID -/
def fSigmoid : Val → Val
  | .nan => .nan
  | .inf n => if n then .zero else .num false 1 0
  | .num n m e =>
    if atLeast m e 105 then (if n then .zero else .num false 1 0)
    else narrow false (fun p => Bounds.around (sigUnit p n m e) (4 * slack) (-(p : Int))) precisions
/-- TANH -/
def fTanh : Val → Val
  | .nan => .nan
  | .inf n => .num n 1 0
  | .num n m e =>
    if m = 0 then .num n 0 0
    else if atLeast m e 32 then .num n 1 0
    else narrow n (fun p =>
      let x := expNeg p (2 * fixed p m e)
      Bounds.around ((2 ^ p - x) * 2 ^ p / (2 ^ p + x)) (8 * slack) (-(p : Int))) precisions
/-- SILU: a ÷ (1 + e^−a) -/
def fSilu : Val → Val
  | .nan => .nan
  | .inf n => if n then .num true 0 0 else .inf false
  | .num n m e =>
    if m = 0 then .num n 0 0
    else if atLeast m e 110 then (if n then .num true 0 0 else .num false m e)
    else narrow n (fun p =>
      let x := sigUnit p n m e
      ⟨m * (x - 4 * slack), m * (x + 4 * slack), e - p⟩) precisions
/-- erf (a ÷ √2) in units of 2^−p, for a of the magnitude m × 2^e below 16. -/
def erfUnit (p m : Nat) (e : Int) : Nat :=
  let a : Int := fixed p m e
  let a2 : Int := fixed p (m * m) (2 * e)
  let sum := series (fun n t => (t * a2).tdiv (2 ^ p * (2 * (n : Int) + 3))) (256 + 2 * p) 0 a
  let x := expPair p (-(a2 / 2))
  let c := isqrt (2 ^ (3 * p + 1) / (piUnit p).toNat)
  sum.toNat * x.1 * c / 2 ^ (2 * p) / 2 ^ (-x.2).toNat
/-- GELU: 0.5 × a × (1 + erf(a ÷ √2)) -/
def fGelu : Val → Val
  | .nan => .nan
  | .inf n => if n then .num true 0 0 else .inf false
  | .num n m e =>
    if m = 0 then .num n 0 0
    else if atLeast m e 16 then (if n then .num true 0 0 else .num false m e)
    else narrow n (fun p =>
      let x := erfUnit p m e
      let w : Nat := 2 ^ 40
      if n then ⟨m * (2 ^ p - x - w), m * (2 ^ p - x + w), e - p - 1⟩ else ⟨m * (2 ^ p + x - w), m * (2 ^ p + x + w), e - p - 1⟩) precisions

end Sys2Proof.Machine
end

