-- ==== Sys2Proof/Machine/Vector.lean ====
section
/-! DEFINITION. The vector engine (spec/06_vector_engine.md R192 to R219): operands and their refusals, element-wise and integer
operations, reductions, softmax and normalisation, gathers, sampling and merging. -/

namespace Sys2Proof.Machine

/-! Classes of operations (R200, R204). -/

/-- The sources that an operation reads. -/
def srcCount : VecOp → Nat
  | .iota => 0 | .undefined => 0
  | .fma => 3 | .sel => 3 | .layernorm => 3
  | .add => 2 | .sub => 2 | .mul => 2 | .max => 2 | .min => 2 | .cmpgt => 2 | .swiglu => 2 | .rdot => 2 | .rmsnorm => 2 | .gather => 2
  | .iadd => 2 | .isub => 2 | .imul => 2 | .imin => 2 | .imax => 2 | .iand => 2 | .ior => 2 | .ixor => 2 | .ishl => 2 | .ishr => 2
  | _ => 1
/-- The integer operations (R205). -/
def isIntOp (op : VecOp) : Bool :=
  op = .iota || op = .iadd || op = .isub || op = .imul || op = .imin || op = .imax || op = .iand || op = .ior || op = .ixor
    || op = .ishl || op = .ishr
/-- The reductions (R206, R207). -/
def isReduction (op : VecOp) : Bool := op = .rsum || op = .rsumsq || op = .rdot || op = .rmax || op = .rmin || op = .rargmax
/-- The operations that write one element or record per row (R197). -/
def perRow (op : VecOp) : Bool := isReduction op || op = .sample || op = .merge
/-- The transcendental class (R200). -/
def isTrans (op : VecOp) : Bool :=
  op = .exp || op = .ln || op = .rcp || op = .rsqrt || op = .sqrt || op = .sigmoid || op = .tanh || op = .silu || op = .gelu || op = .swiglu
/-- The per-row cost of R200, in three parts: counted in TRANS_STEPS, in REDUCE_STEPS, and in neither (R219). -/
def rowCost (op : VecOp) (c : Nat) (wide greedy : Bool) : Nat × Nat × Nat :=
  let d (n : Nat) : Nat := divUp c n
  if isTrans op then (d 16, 0, 0)
  else if isReduction op then (0, d 64 + 6, 0)
  else match op with
    | .softmax => (2 * d 16, d 64 + 12, 0)
    | .rmsnorm => (0, 2 * d 64 + 8, 0)
    | .layernorm => (0, 3 * d 64 + 14, 0)
    | .gather => (0, 0, d 16)
    | .sample => if greedy then (d 16, d 64 + 8, 0) else (d 8 + d 16, 8, 0)
    | .merge => (d 16, 8, 0)
    | _ => (0, 0, if wide then d 64 else d 128)

/-! Element-wise results (R202 to R205). -/

/-- MAX (R204): +0 above −0, and any NaN gives NaN. -/
def vMax (a b : Val) : Val :=
  if a.isNan || b.isNan then .nan else if a.isZero && b.isZero then (if a.sign then b else a) else if a.lt b then b else a
/-- MIN (R204). -/
def vMin (a b : Val) : Val :=
  if a.isNan || b.isNan then .nan else if a.isZero && b.isZero then (if a.sign then a else b) else if b.lt a then b else a
/-- The result of a floating-point operation on one element of each source, and its immediates (R204). -/
def elementOp (op : VecOp) (a b c imm0 imm1 : Val) : Val :=
  match op with
  | .add => rne32 (a.add b)
  | .sub => rne32 (a.sub b)
  | .mul => rne32 (a.mul b)
  | .fma => rne32 ((a.mul b).add c)
  | .axpb => rne32 ((a.mul imm0).add imm1)
  | .max => vMax a b
  | .min => vMin a b
  | .abs => a.abs
  | .neg => a.neg
  | .sel => if c.isZero then b else a
  | .cmpgt => if b.lt a then .num false 1 0 else .zero
  | .exp => fExp a
  | .ln => fLn a
  | .rcp => fRcp a
  | .rsqrt => fRsqrt a
  | .sqrt => fSqrt a
  | .sigmoid => fSigmoid a
  | .tanh => fTanh a
  | .silu => fSilu a
  | .gelu => fGelu a
  | .swiglu => rne32 ((fSilu a).mul b)
  | _ => a
/-- The result of an integer operation on INT32 values (R204). -/
def integerOp (op : VecOp) (a b : BitVec 32) : BitVec 32 :=
  match op with
  | .iadd => a + b
  | .isub => a - b
  | .imul => a * b
  | .imin => if a.toInt ≤ b.toInt then a else b
  | .imax => if a.toInt ≤ b.toInt then b else a
  | .iand => a &&& b
  | .ior => a ||| b
  | .ixor => a ^^^ b
  | .ishl => a <<< (b.toNat % 32)
  | .ishr => a.sshiftRight (b.toNat % 32)
  | _ => a

/-! Reductions (R206, R207). -/

/-- One run of up to 64 elements enters the lanes. -/
def lanesAdd {α : Type} (step : Option Val → α → Option Val) : List (Option Val) → List α → List (Option Val)
  | l, [] => l
  | [], _ => []
  | a :: l, x :: r => step a x :: lanesAdd step l r
/-- One level of the pairwise tree over lanes, an absent member passing the other on. -/
def lanesLevel (op : Val → Val → Val) : List (Option Val) → List (Option Val)
  | some a :: some b :: r => some (op a b) :: lanesLevel op r
  | none :: b :: r => b :: lanesLevel op r
  | a :: none :: r => a :: lanesLevel op r
  | l => l
/-- The lane results combined over six levels. -/
def lanesTree (op : Val → Val → Val) : Nat → List (Option Val) → Option Val
  | 0, l => l.headD none
  | n + 1, l => lanesTree op n (lanesLevel op l)
/-- A reduction in 64 lanes (R206). -/
def reduceLanes {α : Type} (step : Option Val → α → Option Val) (op : Val → Val → Val) (l : List α) : Option Val :=
  lanesTree op 6 ((pieces 64 l.length l).foldl (lanesAdd step) (List.replicate 64 none))
/-- One rounded addition. -/
def add32 (a b : Val) : Val := rne32 (a.add b)
/-- RSUM -/
def rSum (l : List Val) : Val := (reduceLanes (fun a x => some (match a with | none => x | some v => add32 v x)) add32 l).getD .zero
/-- RDOT; RSUMSQ is the product of a row with itself. -/
def rDot (l : List (Val × Val)) : Val :=
  (reduceLanes (fun a x => some (match a with | none => rne32 (x.1.mul x.2) | some v => rne32 ((x.1.mul x.2).add v))) add32 l).getD .zero
/-- RSUMSQ -/
def rSumSq (l : List Val) : Val := rDot (l.map (fun x => (x, x)))
/-- RMAX -/
def rMax (l : List Val) : Val := (reduceLanes (fun a x => some (match a with | none => x | some v => vMax v x)) vMax l).getD (.inf true)
/-- RMIN -/
def rMin (l : List Val) : Val := (reduceLanes (fun a x => some (match a with | none => x | some v => vMin v x)) vMin l).getD (.inf false)
/-- Whether one value stands above another under the MAX row. -/
def above (a b : Val) : Bool := b.lt a || (a.isZero && b.isZero && !a.sign && b.sign)
/-- RARGMAX -/
def rArgmax (l : List Val) : Int :=
  match l.findIdx? Val.isNan with
  | some i => i
  | none => match l.zipIdx with
    | [] => -1
    | x :: r => ((r.foldl (fun m y => if above y.1 m.1 then y else m) x).2 : Int)

/-! Softmax and normalisation (R208 to R210). -/

/-- A value divided by a positive integer, rounded once. -/
def divNat (v : Val) (n : Nat) : Val := match v with | .num s m e => rneQ s m n e | v => v
/-- SOFTMAX of a row with `v` valid elements; the rest are +0. -/
def softmaxRow (a : List Val) (imm0 : Val) (v : Nat) : List Val :=
  let z := (a.take v).map (fun x => rne32 (x.mul imm0))
  let m := rMax z
  let e := z.map (fun x => fExp (rne32 (x.sub m)))
  let inv := fRcp (rSum e)
  e.map (fun x => rne32 (x.mul inv)) ++ List.replicate (a.length - v) .zero
/-- RMSNORM -/
def rmsnormRow (a b : List Val) (imm0 : Val) : List Val :=
  let g := fRsqrt (add32 (divNat (rSumSq a) a.length) imm0)
  List.zipWith (fun x y => rne32 ((rne32 (x.mul g)).mul y)) a b
/-- LAYERNORM -/
def layernormRow (a b c : List Val) (imm0 : Val) : List Val :=
  let n := a.length
  let mu := divNat (rSum a) n
  let d := a.map (fun x => rne32 (x.sub mu))
  let g := fRsqrt (add32 (divNat (rSumSq d) n) imm0)
  List.zipWith (fun x yz => rne32 (((rne32 (x.mul g)).mul yz.1).add yz.2)) d (List.zip b c)

/-! Sampling (R214 to R218). -/

/-- A candidate record (R216). -/
structure Cand where
  key : Val
  id : Int
  z : Val
  m : Val
  s : Val
  logprob : Nat
  deriving DecidableEq, Repr
/-- The empty record (R215). -/
def Cand.empty : Cand := { key := .inf true, id := -1, z := .inf true, m := .inf true, s := .zero, logprob := 0 }
/-- The bytes of a record. -/
def candBytes (c : Cand) : Bytes :=
  let w (v : Val) : Bytes := toLe 4 (bits32 v).toNat
  padTo 32 (w c.key ++ toLe 4 (ofInt 32 c.id) ++ w c.z ++ w c.m ++ w c.s ++ toLe 2 c.logprob)
/-- A record read from its bytes. -/
def candOf (b : Bytes) : Cand :=
  let w (i : Nat) : Val := val32 (BitVec.ofNat 32 (leAt b i 4))
  { key := w 0, id := toInt 32 (leAt b 4 4), z := w 8, m := w 12, s := w 16, logprob := leAt b 20 2 }
/-- The noise of a vocabulary entry (R214). -/
def gumbel (k : RowKey) (id : Nat) : Val :=
  let b := (draw k.seed (drawCounter 1 k.pos 0 id)).toNat / 2 ^ 41
  (fLn (fLn (.num false (2 * b + 1) (-24))).neg).neg
/-- SAMPLE of a row (R215). -/
def sampleRow (a : List Val) (imm0 : Val) (base : BitVec 32) (k : RowKey) : Cand :=
  let greedy := imm0 = .num false 0 (-149) || imm0 = .zero
  let one (x : Val × Nat) : Option (Val × Val × Int) :=
    let z := if greedy then x.1 else rne32 (x.1.mul imm0)
    let id := base + BitVec.ofNat 32 x.2
    if z.isNan then none else some (z, (if greedy then z else add32 z (gumbel k id.toNat)), id.toInt)
  let l := a.zipIdx.map one
  match l.filterMap id with
  | [] => .empty
  | x :: r =>
    let best := r.foldl (fun m y => if m.2.1.lt y.2.1 || (!(y.2.1.lt m.2.1) && y.2.2 < m.2.2) then y else m) x
    let m := r.foldl (fun m y => vMax m y.1) x.1
    let step (acc : Option Val) (e : Option (Val × Val × Int)) : Option Val :=
      match e with
      | none => acc
      | some y => let t := fExp (rne32 (y.1.sub m)); some (match acc with | none => t | some v => add32 v t)
    { key := best.2.1, id := best.2.2, z := best.1, m := m, s := (reduceLanes step add32 l).getD .zero, logprob := 0 }
/-- Whether a record beats another in MERGE (R217). -/
def candBeats (a b : Cand) : Bool :=
  if a.id = -1 then false
  else if b.id = -1 then true
  else if a.key.isNan then b.key.isNan && a.id < b.id
  else if b.key.isNan then true
  else b.key.lt a.key || (!(a.key.lt b.key) && a.id < b.id)
/-- MERGE of a row of records (R217). -/
def mergeRow (l : List Cand) : Cand :=
  match l.filter (fun c => c.id != -1) with
  | [] => .empty
  | x :: r =>
    let best := r.foldl (fun m c => if candBeats c m then c else m) x
    let m := r.foldl (fun m c => vMax m c.m) x.m
    let s := (x :: r).foldl (fun s c => add32 s (rne32 (c.s.mul (fExp (rne32 (c.m.sub m)))))) .zero
    let lp := rne32 ((rne32 (best.z.sub m)).sub (fLn s))
    { best with m := m, s := s, logprob := bf16.encode .rne false lp }

/-! Operands (R193 to R198). -/

/-- An operand as a command uses it: address, strides, format (none for records), elements in a row, and its scale rows. -/
structure Opn where
  addr : Nat
  fmt : Option Fmt
  e : Nat
  rs : Nat
  cnt : Nat
  sa : Nat
  ss : Nat
  deriving DecidableEq, Repr
/-- Whether an operand's rows are packed. -/
def Opn.packed (o : Opn) : Bool := match o.fmt with | none => false | some f => f.packed
/-- Bytes of an element, of a format that is not packed. -/
def Opn.es (o : Opn) : Nat := match o.fmt with | none => 32 | some f => f.size
/-- Bytes of a packed row up to the one that holds the last bit of element `n` - 1 (R130, R131, R142, R198). -/
def Fmt.usedBytes (f : Fmt) (n : Nat) : Nat :=
  match f with
  | .t3 => if n = 0 then 0 else 13 * ((n - 1) / 64) + (n - 1) % 64 / 5 + 1
  | .e3m2 => divUp (6 * n) 8
  | .e2m3 => divUp (6 * n) 8
  | .e2m1 => divUp n 2
  | f => f.rowBytes n
/-- Bytes from the first to the last of a row. -/
def Opn.row (o : Opn) : Nat :=
  if o.cnt = 0 then 0
  else match o.fmt with
    | some f => if f.packed then f.usedBytes o.cnt else (o.cnt - 1) * o.e * f.size + f.size
    | none => (o.cnt - 1) * o.e * 32 + 32
/-- Scale bytes of a row. -/
def Opn.scales (o : Opn) : Nat := match o.fmt with | none => 0 | some f => f.scaleBytes o.cnt
/-- The extents of `rows` rows: the elements, and the scales. -/
def Opn.ext (o : Opn) (rows : Nat) : List (Nat × Nat) :=
  [(o.addr, if o.row = 0 then 0 else (rows - 1) * o.rs + o.row),
   (o.sa, if o.scales = 0 then 0 else (rows - 1) * o.ss + o.scales)].filter (fun x => x.2 != 0)
/-- The elements of a row that a source supplies: one where it broadcasts (R194). -/
def srcCnt (count e : Nat) : Nat := if e = 0 then min count 1 else count
/-- Source `i` of a command, 0 for S1. -/
def srcOpn (op : VecOp) (o : VecOps) (i : Nat) : Opn :=
  let c := o.count.toNat
  match i with
  | 0 => { addr := o.s1.toNat, fmt := if op = .merge then none else fmtOf o.s1Fmt, e := o.s1Estride.toNat, rs := o.s1Rstride.toNat
           cnt := srcCnt c o.s1Estride.toNat, sa := o.s1Scale.toNat, ss := o.s1Sstride.toNat }
  | 1 => { addr := o.s2.toNat, fmt := fmtOf o.s2Fmt, e := o.s2Estride.toNat, rs := o.s2Rstride.toNat
           cnt := srcCnt c o.s2Estride.toNat, sa := 0, ss := 0 }
  | _ => { addr := o.s3.toNat, fmt := fmtOf o.s3Fmt, e := o.s3Estride.toNat, rs := o.s3Rstride.toNat
           cnt := srcCnt c o.s3Estride.toNat, sa := 0, ss := 0 }
/-- The destination of a command. -/
def dstOpn (op : VecOp) (o : VecOps) : Opn :=
  { addr := o.d.toNat, fmt := if op = .sample || op = .merge then none else fmtOf o.dFmt, e := o.dEstride.toNat, rs := o.dRstride.toNat
    cnt := if perRow op then 1 else o.count.toNat, sa := o.dScale.toNat, ss := o.dSstride.toNat }

/-- Whether the formats of a command are accepted (R195, R202, R205, R207, R213): `src` are the sources that it reads, and `named` the
formats that it names for S2 and S3, read or not. -/
def formatsOk (op : VecOp) (src : List Opn) (named : List (Option Fmt)) (d : Opn) : Bool :=
  let scaled (x : Option Fmt) : Bool := match x with | some f => f.micro || f = .t3 | none => false
  let isInt (x : Opn) : Bool := match x.fmt with | some f => f.isInt | none => false
  if named.any scaled then false
  else if isIntOp op then src.all isInt && isInt d
  else match op with
    | .gather => match src with
      | t :: x :: _ => !t.packed && x.fmt = some .int32 && d.fmt = t.fmt
      | _ => false
    | .cvt => true
    | .merge => true
    | .sample => src.all (fun x => x.fmt != some .int32)
    | .rargmax => src.all (fun x => x.fmt != some .int32) && d.fmt = some .int32
    | _ => src.all (fun x => x.fmt != some .int32) && !isInt d
/-- The DECODE checks of R198, and FORMAT after them. A command names the formats of all its operands, read or not (R127, R195), but for
D_FMT of SAMPLE, which is ignored (R215). -/
def State.vecFields (s : State) (g : Nat) (op : VecOp) (o : VecOps) : Nat :=
  let src := (List.range (srcCount op)).map (srcOpn op o)
  let d := dstOpn op o
  let all := [srcOpn op o 0, srcOpn op o 1, srcOpn op o 2]
  let noFmt := [o.s1Fmt, o.s2Fmt, o.s3Fmt].any (fun c => (fmtOf c).isNone) || ((fmtOf o.dFmt).isNone && op != .sample)
  let badStride (x : Opn) (dst : Bool) : Bool := x.packed && x.e != 1 && (dst || x.e != 0)
  if noFmt || o.rmode = 3 || s.rowbindBad g o.rowbind.toNat o.bind.toNat || d.e = 0 || (d.rs = 0 && 1 < o.rows.toNat)
    || all.any (fun x => badStride x false) || badStride d true || (o.lim && op != .softmax && op != .rargmax)
    || (o.s1Idx && (op = .gather || op = .iota))
    || (o.s1Idx && o.s1.toNat % 4 != 0) || (o.lim && o.limits.toNat % 4 != 0) || (o.rowbind = 2 && o.bind.toNat % 4 != 0)
    || (op = .gather && o.s2.toNat % 4 != 0) then fDECODE
  else if formatsOk op src [fmtOf o.s2Fmt, fmtOf o.s3Fmt] d then 0 else fFORMAT

/-! Reading and writing rows. -/

/-- The bytes of the elements of a row that is not packed, one after another. -/
def State.gatherBytes (s : State) (g : Nat) (o : Opn) (base : Nat) (who : Who) : Bytes × State :=
  if o.cnt = 0 then ([], s)
  else if o.e ≤ 1 then s.bankRead g (laBank base) (laOff base) (o.cnt * o.es) who
  else (List.range o.cnt).foldl (fun x j =>
    let r := x.2.bankRead g (laBank base) (laOff base + j * o.e * o.es) o.es who
    (x.1 ++ r.1, r.2)) ([], s)
/-- A row of a source: its exact values, one where it broadcasts, whether a T3 byte in use is invalid (R144), and the state. -/
def State.readRow (s : State) (g : Nat) (o : Opn) (base r : Nat) (who : Who) : List Val × Bool × State :=
  match o.fmt with
  | none => ([], false, s)
  | some f =>
    if o.cnt = 0 then ([], false, s)
    else if f.packed then
      let b := s.bankRead g (laBank base) (laOff base) (f.usedBytes o.cnt) who
      let sa := o.sa + r * o.ss
      let c := if o.scales = 0 then ([], b.2) else b.2.bankRead g (laBank sa) (laOff sa) o.scales who
      ((List.range o.cnt).map (packedVal f b.1 c.1), f = .t3 && tritsBad b.1 o.cnt, c.2)
    else
      let b := s.gatherBytes g o base who
      ((chunksOf f.size o.cnt b.1).map (fun c => f.value (leNat c)), false, b.2)
/-- A source row spread over COUNT elements (R194). -/
def spread (count : Nat) (l : List Val) : List Val := match l with | [a] => List.replicate count a | l => l

/-- A row of results: values to be written in D_FMT, table bytes to be copied, or a record. -/
inductive RowOut where
  | vals (l : List Val)
  | raw (l : List Bytes)
  | record (b : Bytes)
  deriving DecidableEq, Repr
/-- The writes of a destination row: address, bytes and scale bytes, element by element where the row is strided. -/
def rowWrites (d : Opn) (r : Nat) (mode : Nat → RMode) (sat : Bool) (x : RowOut) : List (Nat × Bytes × Bytes) :=
  let base := d.addr + r * d.rs
  let strided (l : List Bytes) : List (Nat × Bytes × Bytes) :=
    if d.e ≤ 1 then [(base, l.flatten, [])] else l.zipIdx.map (fun b => (base + b.2 * d.e * d.es, b.1, []))
  match x with
  | .record b => [(base, b, [])]
  | .raw l => strided l
  | .vals l => match d.fmt with
    | none => []
    | some f => if f.packed then [(base, packRow f mode l)] else strided (l.zipIdx.map (fun v => toLe f.size (f.encode (mode v.2) sat v.1)))
/-- Steps that the partial words of a write add (R200). -/
def partialSteps (a n : Nat) : Nat :=
  let f := b2n (a % 8 != 0)
  let l := b2n ((a + n) % 8 != 0)
  if n = 0 then 0 else if a / 8 = (a + n - 1) / 8 then (if a % 8 = 0 && n = 8 then 0 else 1) else f + l

/-! Overlap (R199). -/

/-- Bits of an element, for the comparison of R199. -/
def Opn.elemBits (o : Opn) : Nat :=
  match o.fmt with
  | none => 256
  | some .int4 => 4 | some .e2m1 => 4 | some .e3m2 => 6 | some .e2m3 => 6 | some .t3 => 1
  | some f => 8 * f.size
/-- Whether two extents of the tile's banks share a byte, whatever views their addresses name. -/
def meets (a b : Nat × Nat) : Bool :=
  let x := a.1 % 2 ^ 27
  let y := b.1 % 2 ^ 27
  x < y + b.2 && y < x + a.2
/-- Whether a destination is in place on a source: it equals it in address, strides and element bytes (R199). -/
def inPlace (d x : Opn) : Bool := d.addr = x.addr && d.e = x.e && d.rs = x.rs && d.elemBits = x.elemBits
/-- Whether the destination overlaps a source otherwise than in place. -/
def vecClash (d : Opn) (rows : Nat) (src : List (Opn × List (Nat × Nat) × Bool)) : Bool :=
  src.any (fun x => !(x.2.2 && inPlace d x.1) && x.2.1.any (fun e => (d.ext rows).any (fun f => meets e f)))

/-! The command (R196 to R218). -/

/-- The results of a row (R204 to R218). -/
def rowResult (op : VecOp) (o : VecOps) (src : List (List Val)) (recs : List Cand) (table : List Bytes) (r v : Nat) (k : RowKey)
    (bound : Bool) : RowOut :=
  let n := o.count.toNat
  let f (i : Nat) : List Val := spread n ((src.getD i []).map rne32)
  let imm0 := val32 o.imm0
  let imm1 := val32 o.imm1
  if isIntOp op then
    if op = .iota then .vals ((List.range n).map (fun j => Val.ofInt (o.imm0 + BitVec.ofNat 32 r * o.imm1 + BitVec.ofNat 32 j).toInt))
    else
      let i (x : Nat) : List (BitVec 32) := (spread n (src.getD x [])).map (fun y => BitVec.ofInt 32 (y.at_ 0))
      .vals (List.zipWith (fun a b => Val.ofInt (integerOp op a b).toInt) (i 0) (i 1))
  else match op with
    | .cvt => .vals (spread n (src.getD 0 []))
    | .gather => .raw table
    | .merge => .record (candBytes (if bound && !k.seated then .empty else mergeRow recs))
    | .sample => .record (candBytes (if bound && !k.seated then .empty else sampleRow (f 0) imm0 o.imm1 k))
    | .softmax => .vals (softmaxRow (f 0) imm0 v)
    | .rmsnorm => .vals (rmsnormRow (f 0) (f 1) imm0)
    | .layernorm => .vals (layernormRow (f 0) (f 1) (f 2) imm0)
    | .rsum => .vals [rSum (f 0)]
    | .rsumsq => .vals [rSumSq (f 0)]
    | .rdot => .vals [rDot (List.zip (f 0) (f 1))]
    | .rmax => .vals [rMax (f 0)]
    | .rmin => .vals [rMin (f 0)]
    | .rargmax => .vals [Val.ofInt (rArgmax ((f 0).take v))]
    | _ =>
      let at_ (l : List Val) (j : Nat) : Val := l.getD j .zero
      let b := f 1
      let c := f 2
      .vals ((f 0).zipIdx.map (fun a => elementOp op a.1 (at_ b a.2) (at_ c a.2) imm0 imm1))

/-- A VEC command as its accesses use it: its operation and operands, where each row of S1 starts, its limits and gather indices by row, and
its rows' keys. -/
structure VecCtx where
  op : VecOp
  o : VecOps
  stage : Nat
  rows : List Nat
  limits : List (BitVec 32)
  index : List (List (BitVec 32))
  keys : List RowKey
/-- The sources that the command reads. -/
def VecCtx.src (x : VecCtx) : List Opn := (List.range (srcCount x.op)).map (srcOpn x.op x.o)
/-- Where row `r` of source `j` starts. -/
def VecCtx.base (x : VecCtx) (j r : Nat) (y : Opn) : Nat := if j = 0 && x.o.s1Idx then x.rows.getD r 0 else y.addr + r * y.rs
/-- The table of a GATHER (R213). -/
def gatherTable (o : VecOps) : List (Nat × Nat) :=
  let t := srcOpn .gather o 0
  if 0 < o.imm0.toInt then [(t.addr, (o.imm0.toNat - 1) * t.e * t.es + t.es)] else []
/-- What a row of the command reads, in the order of the sources. -/
def VecCtx.reads (x : VecCtx) (r : Nat) : List (Nat × Nat) :=
  if x.op = .gather then (if x.o.count = 0 then [] else gatherTable x.o)
  else x.src.zipIdx.flatMap (fun y => [(x.base y.2 r y.1, y.1.row), (y.1.sa + r * y.1.ss, y.1.scales)])
/-- The results of one row from its reads. An invalid T3 byte raises FORMAT once for the row (R144 does not say how often: DESIGN CHOICE, log
entry 93). -/
def State.vecRow1 (s : State) (g : Nat) (x : VecCtx) (r : Nat) : RowOut × State :=
  let who : Who := { agent := aVEC, stage := some x.stage }
  let k := x.keys.getD r ⟨0, 0, false⟩
  let n := x.o.count.toNat
  let v := if x.o.lim then (x.limits.getD r 0).toNat else n
  match x.op with
  | .gather =>
    let t := srcOpn x.op x.o 0
    let z := (x.index.getD r []).foldl (fun z ix =>
      let a := t.addr + ix.toNat * t.e * t.es
      let b := z.2.bankRead g (laBank a) (laOff a) t.es who
      (z.1 ++ [b.1], b.2)) (([] : List Bytes), s)
    (rowResult x.op x.o [] [] z.1 r v k false, z.2)
  | .merge =>
    let y := srcOpn x.op x.o 0
    let b := s.gatherBytes g y (x.base 0 r y) who
    let recs := (chunksOf 32 y.cnt b.1).map candOf
    let recs := if y.cnt = 1 then List.replicate n (recs.headD .empty) else recs
    (rowResult x.op x.o [] recs [] r v k (x.o.rowbind != 0), b.2)
  | _ =>
    let z := x.src.zipIdx.foldl (fun z y =>
      let q := z.2.2.readRow g y.1 (x.base y.2 r y.1) r who
      (z.1 ++ [q.1], z.2.1 || q.2.1, q.2.2)) (([] : List (List Val)), false, s)
    let s := if z.2.1 then z.2.2.raiseTile g aVEC fFORMAT (some x.stage) else z.2.2
    (rowResult x.op x.o z.1 [] [] r v k (x.o.rowbind != 0), s)
/-- Whether the destination overlaps a source otherwise than in place (R199). -/
def VecCtx.clash (x : VecCtx) : Bool :=
  let rows := x.o.rows.toNat
  vecClash (dstOpn x.op x.o) rows (x.src.zipIdx.map (fun y =>
    if y.2 = 0 && x.o.s1Idx then (y.1, x.rows.map (fun a => (a, y.1.row)) ++ (y.1.ext rows).drop 1, false)
    else if x.op = .gather && y.2 = 0 then (y.1, gatherTable x.o, true)
    else (y.1, y.1.ext rows, true)))
/-- The writes of a row: address, element bytes, scale address and scale bytes. -/
def VecCtx.writes (x : VecCtx) (r : Nat) (out : RowOut) : List (Nat × Bytes × Nat × Bytes) :=
  let d := dstOpn x.op x.o
  let k := x.keys.getD r ⟨0, 0, false⟩
  (rowWrites d r (rmodeOf x.o.rmode.toNat k.seed k.pos x.o.site.toNat) x.o.sat out).map (fun w => (w.1, w.2.1, d.sa + r * d.ss, w.2.2))
/-- Bytes that are free where source and destination overlap. -/
def State.orFree (s : State) (free : Bool) (b : Bytes) : Bytes × State := if free then s.freeBytes b.length else (b, s)
/-- One write of a row's elements. A packed row is written in whole blocks and groups (R132), of which what lies beyond the end of the bank
is not written (DESIGN CHOICE, log entry 95). -/
def State.vecWrite (s : State) (g : Nat) (x : VecCtx) (w : Nat × Bytes × Nat × Bytes) : State :=
  let d := dstOpn x.op x.o
  let who : Who := { agent := aVEC, stage := some x.stage }
  let b := s.orFree x.clash w.2.1
  match d.fmt with
  | some f =>
    if f.packed then b.2.writeElems g w.1 f d.cnt (b.1.take (bankSize (laBank w.1) - laOff w.1)) who
    else b.2.bankWrite g (laBank w.1) (laOff w.1) (laView w.1) b.1 who
  | none => b.2.bankWrite g (laBank w.1) (laOff w.1) (laView w.1) b.1 who
/-- One write of a row's scales. -/
def State.vecScales (s : State) (g : Nat) (x : VecCtx) (w : Nat × Bytes × Nat × Bytes) : State :=
  let b := s.orFree x.clash w.2.2.2
  b.2.writeScales g w.2.2.1 b.1 { agent := aVEC, stage := some x.stage }
/-- The work of a command in VEC_WORK and VEC_CLASS (R200, R219); steps that contention adds are a free number. -/
def State.vecWork (s : State) (g : Nat) (x : VecCtx) (writes : List (Nat × Bytes × Nat × Bytes)) : State :=
  let d := dstOpn x.op x.o
  let rows := x.o.rows.toNat
  let n := x.o.count.toNat
  let wide := (d :: x.src).any (fun y => match y.fmt with | some f => 2 < f.size && !f.packed | none => true)
  let cost := rowCost x.op n wide (x.o.imm0 = 0)
  let part := (writes.map (fun w => if 1 < d.e && !d.packed then b2n (w.2.1.length % 8 != 0 || w.1 % 8 != 0)
    else partialSteps (laOff w.1) w.2.1.length + (if w.2.2.2.isEmpty then 0 else partialSteps w.2.2.1 w.2.2.2.length))).sum
  let extra := (if x.o.s1Idx then divUp (4 * rows) 256 else 0) + (if x.op = .gather then divUp (4 * rows * n) 256 else 0)
    + (if x.o.lim then divUp (4 * rows) 256 else 0)
  let y := s.freeBelow (2 ^ 32)
  let s := y.2.fadd (.VEC_WORK g) VEC_WORK.BUSY_STEPS (16 + rows * (cost.1 + cost.2.1 + cost.2.2) + part + extra + 24 + y.1)
  let s := (s.fadd (.VEC_CLASS g) VEC_CLASS.TRANS_STEPS (rows * cost.1)).fadd (.VEC_CLASS g) VEC_CLASS.REDUCE_STEPS (rows * cost.2.1)
  let z := s.freeBelow rows
  z.2.fset (.VEC_STATUS g) VEC_STATUS.ROW z.1
/-- The accesses of a command from a row on, each row's banks checked at its accesses (R84): the rows up to the first whose sources are not
the VEC's are read, then D is written (R199). A refused D or scale row ends the command; one of a pending owner waits before its row is
written (R87, R233). -/
def State.vecRows (s : State) (g : Nat) (x : VecCtx) (done : Nat) : Got × State :=
  let d := dstOpn x.op x.o
  let rows := x.o.rows.toNat
  let mine (r : Nat) : Bool := s.owners g aVEC (x.reads r) = .ok
  let go := (List.range' done (rows - done)).takeWhile mine
  let stop : Got := if done + go.length = rows then .all else match s.owners g aVEC (x.reads (done + go.length)) with
    | .refused c => .refused c
    | _ => .waits (done + go.length + 1)
  let ended (e : Got) (s : State) : Got × State := (e, match e with | .refused c => s.bankEvent g c | _ => s)
  if go.isEmpty then ended stop s
  else match s.owners g aVEC [(d.addr, d.row)], s.owners g aVEC [(d.sa, d.scales)] with
    | .refused c, _ => ended (.refused c) (s.vecRow1 g x done).2
    | .wait, _ => (.waits (done + 1), s)
    | .ok, .wait => (.waits (done + 1), s)
    | .ok, sc =>
      let out := go.foldl (fun z r => let y := z.2.vecRow1 g x r; (z.1 ++ [(r, y.1)], y.2)) (([] : List (Nat × RowOut)), s)
      let writes := out.1.flatMap (fun e => x.writes e.1 e.2)
      match sc with
      | .refused c => ended (.refused c) ((writes.take 1).foldl (fun s w => s.vecWrite g x w) out.2)
      | _ =>
        let s := writes.foldl (fun s w => (s.vecWrite g x w).vecScales g x w) out.2
        ended stop (if stop = .all then s.vecWork g x writes else s)

/-- The INT32 indices of a GATHER, row by row, before its first access to the table (R213, R248). -/
def State.gatherIndex (s : State) (g : Nat) (o : VecOps) (stage : Nat) : List (List (BitVec 32)) × State :=
  let x := srcOpn .gather o 1
  (List.range o.rows.toNat).foldl (fun z r =>
    let b := z.2.gatherBytes g x (x.addr + r * x.rs) { agent := aVEC, stage := some stage }
    let l := (chunksOf 4 x.cnt b.1).map (fun c => BitVec.ofNat 32 (leNat c))
    (z.1 ++ [match l with | [a] => List.replicate o.count.toNat a | l => l], b.2)) ([], s)
/-- The index tensors of a command, with their entries: S1's row addresses, the limits and the seats (R185, R208, R212). -/
def vecTensors (o : VecOps) : List (Nat × Nat) :=
  let rows := o.rows.toNat
  [(o.s1.toNat, if o.s1Idx then rows else 0), (o.limits.toNat, if o.lim then rows else 0), (o.bind.toNat, if o.rowbind = 2 then rows else 0)]
/-- The accesses of a command whose checks are behind it. Its entry holds its index tensors, and a GATHER's indices behind them. -/
def State.vecGo (s : State) (g : Nat) (op : VecOp) (o : VecOps) (i : QItem) : Began × State :=
  let x : VecCtx := { op := op, o := o, stage := i.stage, rows := (i.ixs.getD 0 []).map (·.toNat), limits := i.ixs.getD 1 []
                      index := i.ixs.drop 3, keys := i.keys }
  Got.began i (s.vecRows g x (i.rows - 1))
/-- The extents that a command checks before its first access (R198). -/
def vecExtents (op : VecOp) (o : VecOps) : List (Nat × Nat) :=
  let rows := o.rows.toNat
  let src := (List.range (srcCount op)).map (srcOpn op o)
  src.zipIdx.flatMap (fun x => if x.2 = 0 && o.s1Idx then (x.1.ext rows).drop 1 else if x.2 = 0 && op = .gather then gatherTable o else x.1.ext rows)
    ++ (dstOpn op o).ext rows ++ (if o.lim then [(o.limits.toNat, 4 * rows)] else [])
/-- A VEC command from point 4 of R231 on (R197, R198, R231). A GATHER's indices are read and checked before its first access to the table
and to D (R213, R249). -/
def State.vecRun (s : State) (g : Nat) (op : VecOp) (o : VecOps) (i : QItem) : Began × State :=
  let rows := o.rows.toNat
  let n := o.count.toNat
  let f := if i.begun then 0 else s.vecFields g op o
  if 0 < i.rows then s.vecGo g op o i
  else if f != 0 then (.ran f, s)
  else if rows = 0 || (n = 0 && !perRow op) then (.ran 0, s)
  else match (if i.begun then .ok else s.extents g (vecExtents op o)) with
    | .refused c => refuse s g c
    | _ =>
      match s.readTensors g aVEC i ((vecTensors o).drop i.ixs.length) with
      | (.bad c, _, s) => (.ran c, s)
      | (.waits, i, s) => (.holds i, s)
      | (.ok _, i, s) =>
        let s1 := srcOpn op o 0
        if (i.ixs.getD 0 []).any (fun e => !s.rowAddrOk g e s1.row) || (i.ixs.getD 1 []).any (fun v => v.toInt < 0 || (n : Int) < v.toInt)
          || (i.ixs.getD 2 []).any (fun e => !seatOk (s.seatCount g) e) then (.ran fINDEX, s)
        else
          let i := { i with keys := if i.keys.isEmpty then s.rowKeys g o.rowbind.toNat o.bind.toNat rows (i.ixs.getD 2 []) else i.keys }
          if op != .gather then s.vecGo g op o { i with rows := 1 }
          else match s.owners g aVEC ((srcOpn op o 1).ext rows) with
            | .refused c => refuse s g c
            | .wait => (.holds i, s)
            | .ok =>
              let gi := s.gatherIndex g o i.stage
              if gi.1.any (fun l => l.any (fun e => e.toInt < 0 || o.imm0.toInt ≤ e.toInt)) then (.ran fINDEX, gi.2)
              else gi.2.vecGo g op o { i with rows := 1, ixs := i.ixs ++ gi.1 }

/-- A row of the VEC operation table. -/
def State.vecRow (s : State) (g : Nat) (op : VecOp) (h : CmdHdr) (o : VecOps) : State :=
  s.engineRow g h (.vec op o) (fun i s => s.vecRun g op o i)

/-- CVT -/
def execCvt (g : Gt) (h : CmdHdr) (o : VecOps) (s : State) : Res := live s (·.vecRow g .cvt h o)
/-- ADD -/
def execAddOp (g : Gt) (h : CmdHdr) (o : VecOps) (s : State) : Res := live s (·.vecRow g .add h o)
/-- SUB -/
def execSubOp (g : Gt) (h : CmdHdr) (o : VecOps) (s : State) : Res := live s (·.vecRow g .sub h o)
/-- MUL -/
def execMulOp (g : Gt) (h : CmdHdr) (o : VecOps) (s : State) : Res := live s (·.vecRow g .mul h o)
/-- FMA -/
def execFma (g : Gt) (h : CmdHdr) (o : VecOps) (s : State) : Res := live s (·.vecRow g .fma h o)
/-- AXPB -/
def execAxpb (g : Gt) (h : CmdHdr) (o : VecOps) (s : State) : Res := live s (·.vecRow g .axpb h o)
/-- MAX -/
def execMaxOp (g : Gt) (h : CmdHdr) (o : VecOps) (s : State) : Res := live s (·.vecRow g .max h o)
/-- MIN -/
def execMinOp (g : Gt) (h : CmdHdr) (o : VecOps) (s : State) : Res := live s (·.vecRow g .min h o)
/-- ABS -/
def execAbsOp (g : Gt) (h : CmdHdr) (o : VecOps) (s : State) : Res := live s (·.vecRow g .abs h o)
/-- NEG -/
def execNegOp (g : Gt) (h : CmdHdr) (o : VecOps) (s : State) : Res := live s (·.vecRow g .neg h o)
/-- SEL -/
def execSelOp (g : Gt) (h : CmdHdr) (o : VecOps) (s : State) : Res := live s (·.vecRow g .sel h o)
/-- CMPGT -/
def execCmpgt (g : Gt) (h : CmdHdr) (o : VecOps) (s : State) : Res := live s (·.vecRow g .cmpgt h o)
/-- EXP -/
def execExpOp (g : Gt) (h : CmdHdr) (o : VecOps) (s : State) : Res := live s (·.vecRow g .exp h o)
/-- LN -/
def execLn (g : Gt) (h : CmdHdr) (o : VecOps) (s : State) : Res := live s (·.vecRow g .ln h o)
/-- RCP -/
def execRcp (g : Gt) (h : CmdHdr) (o : VecOps) (s : State) : Res := live s (·.vecRow g .rcp h o)
/-- RSQRT -/
def execRsqrt (g : Gt) (h : CmdHdr) (o : VecOps) (s : State) : Res := live s (·.vecRow g .rsqrt h o)
/-- SQRT -/
def execSqrt (g : Gt) (h : CmdHdr) (o : VecOps) (s : State) : Res := live s (·.vecRow g .sqrt h o)
/-- SIGMOID -/
def execSigmoid (g : Gt) (h : CmdHdr) (o : VecOps) (s : State) : Res := live s (·.vecRow g .sigmoid h o)
/-- TANH -/
def execTanh (g : Gt) (h : CmdHdr) (o : VecOps) (s : State) : Res := live s (·.vecRow g .tanh h o)
/-- SILU -/
def execSilu (g : Gt) (h : CmdHdr) (o : VecOps) (s : State) : Res := live s (·.vecRow g .silu h o)
/-- GELU -/
def execGelu (g : Gt) (h : CmdHdr) (o : VecOps) (s : State) : Res := live s (·.vecRow g .gelu h o)
/-- SWIGLU -/
def execSwiglu (g : Gt) (h : CmdHdr) (o : VecOps) (s : State) : Res := live s (·.vecRow g .swiglu h o)
/-- IADD -/
def execIadd (g : Gt) (h : CmdHdr) (o : VecOps) (s : State) : Res := live s (·.vecRow g .iadd h o)
/-- ISUB -/
def execIsub (g : Gt) (h : CmdHdr) (o : VecOps) (s : State) : Res := live s (·.vecRow g .isub h o)
/-- IMUL -/
def execImul (g : Gt) (h : CmdHdr) (o : VecOps) (s : State) : Res := live s (·.vecRow g .imul h o)
/-- IMIN -/
def execImin (g : Gt) (h : CmdHdr) (o : VecOps) (s : State) : Res := live s (·.vecRow g .imin h o)
/-- IMAX -/
def execImax (g : Gt) (h : CmdHdr) (o : VecOps) (s : State) : Res := live s (·.vecRow g .imax h o)
/-- IAND -/
def execIand (g : Gt) (h : CmdHdr) (o : VecOps) (s : State) : Res := live s (·.vecRow g .iand h o)
/-- IOR -/
def execIor (g : Gt) (h : CmdHdr) (o : VecOps) (s : State) : Res := live s (·.vecRow g .ior h o)
/-- IXOR -/
def execIxor (g : Gt) (h : CmdHdr) (o : VecOps) (s : State) : Res := live s (·.vecRow g .ixor h o)
/-- ISHL -/
def execIshl (g : Gt) (h : CmdHdr) (o : VecOps) (s : State) : Res := live s (·.vecRow g .ishl h o)
/-- ISHR -/
def execIshr (g : Gt) (h : CmdHdr) (o : VecOps) (s : State) : Res := live s (·.vecRow g .ishr h o)
/-- IOTA -/
def execIota (g : Gt) (h : CmdHdr) (o : VecOps) (s : State) : Res := live s (·.vecRow g .iota h o)
/-- RSUM -/
def execRsum (g : Gt) (h : CmdHdr) (o : VecOps) (s : State) : Res := live s (·.vecRow g .rsum h o)
/-- RSUMSQ -/
def execRsumsq (g : Gt) (h : CmdHdr) (o : VecOps) (s : State) : Res := live s (·.vecRow g .rsumsq h o)
/-- RDOT -/
def execRdot (g : Gt) (h : CmdHdr) (o : VecOps) (s : State) : Res := live s (·.vecRow g .rdot h o)
/-- RMAX -/
def execRmax (g : Gt) (h : CmdHdr) (o : VecOps) (s : State) : Res := live s (·.vecRow g .rmax h o)
/-- RMIN -/
def execRmin (g : Gt) (h : CmdHdr) (o : VecOps) (s : State) : Res := live s (·.vecRow g .rmin h o)
/-- RARGMAX -/
def execRargmax (g : Gt) (h : CmdHdr) (o : VecOps) (s : State) : Res := live s (·.vecRow g .rargmax h o)
/-- SOFTMAX -/
def execSoftmax (g : Gt) (h : CmdHdr) (o : VecOps) (s : State) : Res := live s (·.vecRow g .softmax h o)
/-- RMSNORM -/
def execRmsnorm (g : Gt) (h : CmdHdr) (o : VecOps) (s : State) : Res := live s (·.vecRow g .rmsnorm h o)
/-- LAYERNORM -/
def execLayernorm (g : Gt) (h : CmdHdr) (o : VecOps) (s : State) : Res := live s (·.vecRow g .layernorm h o)
/-- GATHER -/
def execGather (g : Gt) (h : CmdHdr) (o : VecOps) (s : State) : Res := live s (·.vecRow g .gather h o)
/-- SAMPLE -/
def execSample (g : Gt) (h : CmdHdr) (o : VecOps) (s : State) : Res := live s (·.vecRow g .sample h o)
/-- MERGE -/
def execMerge (g : Gt) (h : CmdHdr) (o : VecOps) (s : State) : Res := live s (·.vecRow g .merge h o)

end Sys2Proof.Machine
end

