-- ==== Sys2Proof/Machine/Dispatch.lean ====
section
/-! DEFINITION. Which meaning each command has: one arm for each row of spec/opcode_table.json. -/

namespace Sys2Proof.Machine

/-- The effect of a command on everything but the queue. -/
def exec (i : Instr) (s : State) : Host.Outcome State Fault Refusal :=
  match i with
  | .vinTurnOn => Sys2Proof.Machine.execVinTurnOn s
  | .vinTurnOff => Sys2Proof.Machine.execVinTurnOff s
  | .vinOvervoltage => Sys2Proof.Machine.execVinOvervoltage s
  | .inputCharged => Sys2Proof.Machine.execInputCharged s
  | .railsGood => Sys2Proof.Machine.execRailsGood s
  | .pwrgdRise => Sys2Proof.Machine.execPwrgdRise s
  | .calibrationComplete c => Sys2Proof.Machine.execCalibrationComplete c s
  | .powerLoss => Sys2Proof.Machine.execPowerLoss s
  | .converterFail n => Sys2Proof.Machine.execConverterFail n s
  | .sensorOvertemp => Sys2Proof.Machine.execSensorOvertemp s
  | .thermalDiodeTrip => Sys2Proof.Machine.execThermalDiodeTrip s
  | .thermtripPowerOff => Sys2Proof.Machine.execThermtripPowerOff s
  | .page w => Sys2Proof.Machine.execPage w s
  | .voutMode => Sys2Proof.Machine.execVoutMode s
  | .statusWord m => Sys2Proof.Machine.execStatusWord m s
  | .readVin reading => Sys2Proof.Machine.execReadVin reading s
  | .readIin reading => Sys2Proof.Machine.execReadIin reading s
  | .readVout reading => Sys2Proof.Machine.execReadVout reading s
  | .readIout reading => Sys2Proof.Machine.execReadIout reading s
  | .readTemperature1 reading => Sys2Proof.Machine.execReadTemperature1 reading s
  | .readPout reading => Sys2Proof.Machine.execReadPout reading s
  | .readPin reading => Sys2Proof.Machine.execReadPin reading s
  | .pmbusRevision => Sys2Proof.Machine.execPmbusRevision s
  | .pmbusRefusedCommand code write => Sys2Proof.Machine.execPmbusRefusedCommand code write s
  | .hostLinkDown p => Sys2Proof.Machine.execHostLinkDown p s
  | .hostLinkUp p m => Sys2Proof.Machine.execHostLinkUp p m s
  | .stageBoundary b => Sys2Proof.Machine.execStageBoundary b s
  | .powerFlag n => Sys2Proof.Machine.execPowerFlag n s
  | .powerAbort n => Sys2Proof.Machine.execPowerAbort n s
  | .calStale n => Sys2Proof.Machine.execCalStale n s
  | .stageWorkStart n => Sys2Proof.Machine.execStageWorkStart n s
  | .stageWorkFinish n ns => Sys2Proof.Machine.execStageWorkFinish n ns s
  | .overstay n => Sys2Proof.Machine.execOverstay n s
  | .rateWindowOpen n => Sys2Proof.Machine.execRateWindowOpen n s
  | .rateWindowClose n => Sys2Proof.Machine.execRateWindowClose n s
  | .xingFillExcursion c fill => Sys2Proof.Machine.execXingFillExcursion c fill s
  | .frefLoss => Sys2Proof.Machine.execFrefLoss s
  | .frefReturn => Sys2Proof.Machine.execFrefReturn s
  | .syncTimeout t => Sys2Proof.Machine.execSyncTimeout t s
  | .holdoverLimitExpire t => Sys2Proof.Machine.execHoldoverLimitExpire t s
  | .rgnBudgetWrite n a => Sys2Proof.Machine.execRgnBudgetWrite n a s
  | .xingFillRead p c z => Sys2Proof.Machine.execXingFillRead p c z s
  | .rgnLateRead p n z => Sys2Proof.Machine.execRgnLateRead p n z s
  | .bankAccess g a => Sys2Proof.Machine.execBankAccess g a s
  | .handover g h => Sys2Proof.Machine.execHandover g h s
  | .handoverEffect g k => Sys2Proof.Machine.execHandoverEffect g k s
  | .scanOp g h => Sys2Proof.Machine.execScanOp g h s
  | .scanStart g k => Sys2Proof.Machine.execScanStart g k s
  | .scanEnd g o => Sys2Proof.Machine.execScanEnd g o s
  | .bankOwnWrite g k a => Sys2Proof.Machine.execBankOwnWrite g k a s
  | .patchReleaseRequest g e a => Sys2Proof.Machine.execPatchReleaseRequest g e a s
  | .lpddrRequest r => Sys2Proof.Machine.execLpddrRequest r s
  | .refreshInterval die => Sys2Proof.Machine.execRefreshInterval die s
  | .refreshWindow die k => Sys2Proof.Machine.execRefreshWindow die k s
  | .mr4Read die r => Sys2Proof.Machine.execMr4Read die r s
  | .seqInstruction g f => Sys2Proof.Machine.execSeqInstruction g f s
  | .seqBankLoadStore g a => Sys2Proof.Machine.execSeqBankLoadStore g a s
  | .tilePredicateStore g hiWord v => Sys2Proof.Machine.execTilePredicateStore g hiWord v s
  | .loopCountStore g l v => Sys2Proof.Machine.execLoopCountStore g l v s
  | .stageEnd g len common => Sys2Proof.Machine.execStageEnd g len common s
  | .openLoop g o => Sys2Proof.Machine.execOpenLoop g o s
  | .endLoop g len common => Sys2Proof.Machine.execEndLoop g len common s
  | .breakLoop g len common => Sys2Proof.Machine.execBreakLoop g len common s
  | .signalOp g o => Sys2Proof.Machine.execSignalOp g o s
  | .waitOp g tally v len common => Sys2Proof.Machine.execWaitOp g tally v len common s
  | .waitRelease g => Sys2Proof.Machine.execWaitRelease g s
  | .fenceOp g agent tally len => Sys2Proof.Machine.execFenceOp g agent tally len s
  | .fenceComplete g agent => Sys2Proof.Machine.execFenceComplete g agent s
  | .tallyWait g w => Sys2Proof.Machine.execTallyWait g w s
  | .engineCommandEnd g agent drain => Sys2Proof.Machine.execEngineCommandEnd g agent drain s
  | .matmul g h o => Sys2Proof.Machine.execMatmul g h o s
  | .accstore g h o => Sys2Proof.Machine.execAccstore g h o s
  | .cvt g h o => Sys2Proof.Machine.execCvt g h o s
  | .addOp g h o => Sys2Proof.Machine.execAddOp g h o s
  | .subOp g h o => Sys2Proof.Machine.execSubOp g h o s
  | .mulOp g h o => Sys2Proof.Machine.execMulOp g h o s
  | .fma g h o => Sys2Proof.Machine.execFma g h o s
  | .axpb g h o => Sys2Proof.Machine.execAxpb g h o s
  | .maxOp g h o => Sys2Proof.Machine.execMaxOp g h o s
  | .minOp g h o => Sys2Proof.Machine.execMinOp g h o s
  | .absOp g h o => Sys2Proof.Machine.execAbsOp g h o s
  | .negOp g h o => Sys2Proof.Machine.execNegOp g h o s
  | .selOp g h o => Sys2Proof.Machine.execSelOp g h o s
  | .cmpgt g h o => Sys2Proof.Machine.execCmpgt g h o s
  | .expOp g h o => Sys2Proof.Machine.execExpOp g h o s
  | .ln g h o => Sys2Proof.Machine.execLn g h o s
  | .rcp g h o => Sys2Proof.Machine.execRcp g h o s
  | .rsqrt g h o => Sys2Proof.Machine.execRsqrt g h o s
  | .sqrt g h o => Sys2Proof.Machine.execSqrt g h o s
  | .sigmoid g h o => Sys2Proof.Machine.execSigmoid g h o s
  | .tanh g h o => Sys2Proof.Machine.execTanh g h o s
  | .silu g h o => Sys2Proof.Machine.execSilu g h o s
  | .gelu g h o => Sys2Proof.Machine.execGelu g h o s
  | .swiglu g h o => Sys2Proof.Machine.execSwiglu g h o s
  | .iadd g h o => Sys2Proof.Machine.execIadd g h o s
  | .isub g h o => Sys2Proof.Machine.execIsub g h o s
  | .imul g h o => Sys2Proof.Machine.execImul g h o s
  | .imin g h o => Sys2Proof.Machine.execImin g h o s
  | .imax g h o => Sys2Proof.Machine.execImax g h o s
  | .iand g h o => Sys2Proof.Machine.execIand g h o s
  | .ior g h o => Sys2Proof.Machine.execIor g h o s
  | .ixor g h o => Sys2Proof.Machine.execIxor g h o s
  | .ishl g h o => Sys2Proof.Machine.execIshl g h o s
  | .ishr g h o => Sys2Proof.Machine.execIshr g h o s
  | .iota g h o => Sys2Proof.Machine.execIota g h o s
  | .rsum g h o => Sys2Proof.Machine.execRsum g h o s
  | .rsumsq g h o => Sys2Proof.Machine.execRsumsq g h o s
  | .rdot g h o => Sys2Proof.Machine.execRdot g h o s
  | .rmax g h o => Sys2Proof.Machine.execRmax g h o s
  | .rmin g h o => Sys2Proof.Machine.execRmin g h o s
  | .rargmax g h o => Sys2Proof.Machine.execRargmax g h o s
  | .softmax g h o => Sys2Proof.Machine.execSoftmax g h o s
  | .rmsnorm g h o => Sys2Proof.Machine.execRmsnorm g h o s
  | .layernorm g h o => Sys2Proof.Machine.execLayernorm g h o s
  | .gather g h o => Sys2Proof.Machine.execGather g h o s
  | .sample g h o => Sys2Proof.Machine.execSample g h o s
  | .merge g h o => Sys2Proof.Machine.execMerge g h o s
  | .tallyWrite g t a => Sys2Proof.Machine.execTallyWrite g t a s
  | .copyOp c d => Sys2Proof.Machine.execCopyOp c d s
  | .getOp c d => Sys2Proof.Machine.execGetOp c d s
  | .putOp c d => Sys2Proof.Machine.execPutOp c d s
  | .setOp c d => Sys2Proof.Machine.execSetOp c d s
  | .clearOp c d => Sys2Proof.Machine.execClearOp c d s
  | .parity c d => Sys2Proof.Machine.execParity c d s
  | .dmaBurst m => Sys2Proof.Machine.execDmaBurst m s
  | .descriptorEnd c => Sys2Proof.Machine.execDescriptorEnd c s
  | .completionRingResume c => Sys2Proof.Machine.execCompletionRingResume c s
  | .pcieReadError die ch => Sys2Proof.Machine.execPcieReadError die ch s
  | .idmaRun die ch a => Sys2Proof.Machine.execIdmaRun die ch a s
  | .idmaStop die ch a => Sys2Proof.Machine.execIdmaStop die ch a s
  | .idmaShareWrite die ch a => Sys2Proof.Machine.execIdmaShareWrite die ch a s
  | .idmaRingsWrite die ch a => Sys2Proof.Machine.execIdmaRingsWrite die ch a s
  | .getRequestPacket p k => Sys2Proof.Machine.execGetRequestPacket p k s
  | .getDataPacket p k => Sys2Proof.Machine.execGetDataPacket p k s
  | .putPacket p k => Sys2Proof.Machine.execPutPacket p k s
  | .setPacket p k => Sys2Proof.Machine.execSetPacket p k s
  | .clearPacket p k => Sys2Proof.Machine.execClearPacket p k s
  | .ackPacket p k => Sys2Proof.Machine.execAckPacket p k s
  | .nackPacket p k => Sys2Proof.Machine.execNackPacket p k s
  | .reservedOpcPacket p k => Sys2Proof.Machine.execReservedOpcPacket p k s
  | .landingBufferResume g => Sys2Proof.Machine.execLandingBufferResume g s
  | .slotSend p t => Sys2Proof.Machine.execSlotSend p t s
  | .idleFrame p f => Sys2Proof.Machine.execIdleFrame p f s
  | .dataFrame p f => Sys2Proof.Machine.execDataFrame p f s
  | .controlFrame p f t => Sys2Proof.Machine.execControlFrame p f t s
  | .probeFrame p f t => Sys2Proof.Machine.execProbeFrame p f t s
  | .calFrame p f bitErrors => Sys2Proof.Machine.execCalFrame p f bitErrors s
  | .initFrame p f => Sys2Proof.Machine.execInitFrame p f s
  | .reservedKindFrame p f => Sys2Proof.Machine.execReservedKindFrame p f s
  | .parcelConsume p => Sys2Proof.Machine.execParcelConsume p s
  | .controlFrameTimer p => Sys2Proof.Machine.execControlFrameTimer p s
  | .replayTimerExpire p seq => Sys2Proof.Machine.execReplayTimerExpire p seq s
  | .creditTimeout p => Sys2Proof.Machine.execCreditTimeout p s
  | .laneLockLoss p lane => Sys2Proof.Machine.execLaneLockLoss p lane s
  | .laneLockRegain p lane => Sys2Proof.Machine.execLaneLockRegain p lane s
  | .trainingComplete p => Sys2Proof.Machine.execTrainingComplete p s
  | .probeInterval p => Sys2Proof.Machine.execProbeInterval p s
  | .calInterval p => Sys2Proof.Machine.execCalInterval p s
  | .vblEnable p a => Sys2Proof.Machine.execVblEnable p a s
  | .vblDisable p a => Sys2Proof.Machine.execVblDisable p a s
  | .vblCatchupRead h p z => Sys2Proof.Machine.execVblCatchupRead h p z s
  | .routeTableWrite r a => Sys2Proof.Machine.execRouteTableWrite r a s
  | .launchData p k => Sys2Proof.Machine.execLaunchData p k s
  | .launchHeartbeat p k => Sys2Proof.Machine.execLaunchHeartbeat p k s
  | .graftReq p k => Sys2Proof.Machine.execGraftReq p k s
  | .graftAck p k => Sys2Proof.Machine.execGraftAck p k s
  | .graftNak p k => Sys2Proof.Machine.execGraftNak p k s
  | .launchDone p k => Sys2Proof.Machine.execLaunchDone p k s
  | .heartbeatTimer c => Sys2Proof.Machine.execHeartbeatTimer c s
  | .silenceTimeout => Sys2Proof.Machine.execSilenceTimeout s
  | .graftTimeout => Sys2Proof.Machine.execGraftTimeout s
  | .rootSendPacket => Sys2Proof.Machine.execRootSendPacket s
  | .doneTimerExpire => Sys2Proof.Machine.execDoneTimerExpire s
  | .rlyFeedWrite a => Sys2Proof.Machine.execRlyFeedWrite a s
  | .relayEnable a => Sys2Proof.Machine.execRelayEnable a s
  | .relayDisable a => Sys2Proof.Machine.execRelayDisable a s
  | .syncMessage p k t => Sys2Proof.Machine.execSyncMessage p k t s
  | .followUpMessage p k t => Sys2Proof.Machine.execFollowUpMessage p k t s
  | .delayReqSend p seqId => Sys2Proof.Machine.execDelayReqSend p seqId s
  | .delayRespMessage p k t => Sys2Proof.Machine.execDelayRespMessage p k t s
  | .announceMessage p k => Sys2Proof.Machine.execAnnounceMessage p k s
  | .ptpDiscardedMessage p k => Sys2Proof.Machine.execPtpDiscardedMessage p k s
  | .ftStepWrite a t => Sys2Proof.Machine.execFtStepWrite a t s
  | .resetTime a => Sys2Proof.Machine.execResetTime a s
  | .clientEnable a t => Sys2Proof.Machine.execClientEnable a t s
  | .ftRateWrite a t => Sys2Proof.Machine.execFtRateWrite a t s
  | .steeringWatchdogExpire t => Sys2Proof.Machine.execSteeringWatchdogExpire t s
  | .ftNowNsRead p z now => Sys2Proof.Machine.execFtNowNsRead p z now s
  | .ringCfgWrite n a => Sys2Proof.Machine.execRingCfgWrite n a s
  | .ringConsWrite n a => Sys2Proof.Machine.execRingConsWrite n a s
  | .doorbellWrite n a => Sys2Proof.Machine.execDoorbellWrite n a s
  | .nop c => Sys2Proof.Machine.execNop c s
  | .submit c o => Sys2Proof.Machine.execSubmit c o s
  | .aduReservedOpcode c op => Sys2Proof.Machine.execAduReservedOpcode c op s
  | .wsSwitch c o => Sys2Proof.Machine.execWsSwitch c o s
  | .adSwitch c o => Sys2Proof.Machine.execAdSwitch c o s
  | .adClear c o => Sys2Proof.Machine.execAdClear c o s
  | .lpRegister c o => Sys2Proof.Machine.execLpRegister c o s
  | .lpRelease c o => Sys2Proof.Machine.execLpRelease c o s
  | .spRegister c o => Sys2Proof.Machine.execSpRegister c o s
  | .spCapture c o => Sys2Proof.Machine.execSpCapture c o s
  | .spRelease c o => Sys2Proof.Machine.execSpRelease c o s
  | .eventRingResume => Sys2Proof.Machine.execEventRingResume s
  | .aduCancelWrite w a => Sys2Proof.Machine.execAduCancelWrite w a s
  | .immediateClearLand g seats => Sys2Proof.Machine.execImmediateClearLand g seats s
  | .acctBalWrite n a => Sys2Proof.Machine.execAcctBalWrite n a s
  | .acctCfgWrite n a => Sys2Proof.Machine.execAcctCfgWrite n a s
  | .mirrorBinding p k => Sys2Proof.Machine.execMirrorBinding p k s
  | .mirrorSelector p k => Sys2Proof.Machine.execMirrorSelector p k s
  | .mirrorEndNotice p k => Sys2Proof.Machine.execMirrorEndNotice p k s
  | .mirrorImmediateClear p k => Sys2Proof.Machine.execMirrorImmediateClear p k s
  | .kvPoolRead p z => Sys2Proof.Machine.execKvPoolRead p z s
  | .ownClaim a => Sys2Proof.Machine.execOwnClaim a s
  | .ownRequest a => Sys2Proof.Machine.execOwnRequest a s
  | .ownHandover a => Sys2Proof.Machine.execOwnHandover a s
  | .ownLapseWrite a => Sys2Proof.Machine.execOwnLapseWrite a s
  | .ownershipLapse t => Sys2Proof.Machine.execOwnershipLapse t s
  | .aperWinWrite w a => Sys2Proof.Machine.execAperWinWrite w a s
  | .apertureRead p off len => Sys2Proof.Machine.execApertureRead p off len s
  | .apertureWrite p off data => Sys2Proof.Machine.execApertureWrite p off data s
  | .msixPendingSend p v => Sys2Proof.Machine.execMsixPendingSend p v s
  | .registerWrite w => Sys2Proof.Machine.execRegisterWrite w s
  | .loadFirmware a => Sys2Proof.Machine.execLoadFirmware a s
  | .loadStructure a => Sys2Proof.Machine.execLoadStructure a s
  | .loadPlan a => Sys2Proof.Machine.execLoadPlan a s
  | .loadCert a => Sys2Proof.Machine.execLoadCert a s
  | .unload a => Sys2Proof.Machine.execUnload a s
  | .loadRefusedKind a => Sys2Proof.Machine.execLoadRefusedKind a s
  | .loadEnd => Sys2Proof.Machine.execLoadEnd s
  | .firmwareReady l => Sys2Proof.Machine.execFirmwareReady l s
  | .firmwareReadyTimeout => Sys2Proof.Machine.execFirmwareReadyTimeout s
  | .getVersion b => Sys2Proof.Machine.execGetVersion b s
  | .getCapabilities b => Sys2Proof.Machine.execGetCapabilities b s
  | .negotiateAlgorithms b => Sys2Proof.Machine.execNegotiateAlgorithms b s
  | .getDigests b => Sys2Proof.Machine.execGetDigests b s
  | .getCertificate b slot off len => Sys2Proof.Machine.execGetCertificate b slot off len s
  | .challenge b slot nonce => Sys2Proof.Machine.execChallenge b slot nonce s
  | .getMeasurements b ix signed nonce => Sys2Proof.Machine.execGetMeasurements b ix signed nonce s
  | .mctpControl b cmd => Sys2Proof.Machine.execMctpControl b cmd s
  | .coreClaim c => Sys2Proof.Machine.execCoreClaim c s
  | .coreComplete c n => Sys2Proof.Machine.execCoreComplete c n s
  | .intSet a => Sys2Proof.Machine.execIntSet a s
  | .intSrcWrite n a => Sys2Proof.Machine.execIntSrcWrite n a s
  | .forwardSend f => Sys2Proof.Machine.execForwardSend f s
  | .mbRequest a => Sys2Proof.Machine.execMbRequest a s
  | .mbReply tag reply => Sys2Proof.Machine.execMbReply tag reply s
  | .telemetryIntervalEnd => Sys2Proof.Machine.execTelemetryIntervalEnd s
  | .telemetryRecordWrite => Sys2Proof.Machine.execTelemetryRecordWrite s
  | .stewardMemoryUe u => Sys2Proof.Machine.execStewardMemoryUe u s
  | .resume a => Sys2Proof.Machine.execResume a s
  | .resumeCheckEnd => Sys2Proof.Machine.execResumeCheckEnd s
  | .lockstepSummary p k => Sys2Proof.Machine.execLockstepSummary p k s
  | .lockstepSignatures p k => Sys2Proof.Machine.execLockstepSignatures p k s
  | .lockstepTimeout stage => Sys2Proof.Machine.execLockstepTimeout stage s
  | .fenceOrder p k => Sys2Proof.Machine.execFenceOrder p k s
  | .fenceSubmit a => Sys2Proof.Machine.execFenceSubmit a s
  | .fenceCheckEnd => Sys2Proof.Machine.execFenceCheckEnd s
  | .registerReadRequest p k => Sys2Proof.Machine.execRegisterReadRequest p k s
  | .managementDiscard p k => Sys2Proof.Machine.execManagementDiscard p k s
  | .pwrgdFall => Sys2Proof.Machine.execPwrgdFall s
  | .junctionTemperatureReturn => Sys2Proof.Machine.execJunctionTemperatureReturn s
  | .xingFillReturn c fill => Sys2Proof.Machine.execXingFillReturn c fill s
  | .launchReservedKind p k => Sys2Proof.Machine.execLaunchReservedKind p k s

end Sys2Proof.Machine
end

