-- ==== Sys2Proof/Safety.lean ====
section
/-! DEFINITION. What counts as a safe run, in the terms the claims use: which states a loss of power leaves, what a command may never
touch, and how a claim names what stays as it was. -/

namespace Sys2Proof.Machine

/-- The dies hold nothing beyond what reset gives them (R476, R571): apart from the waiting commands, the outputs of the last one, the
count of free values, the fuses and the power controller, the state is that of reset. -/
def State.diesAtReset (s : State) : Prop :=
  s = { State.reset with pending := s.pending, out := s.out, free := s.free, fuses := s.fuses, pwr := s.pwr }

/-- While PWRGD is not high, no die holds state (R476, R570, R571). -/
def State.Inv (s : State) : Prop := s.pwr.phase ≠ .up → s.diesAtReset

/-- The state that a command starts from: the outputs of the last command are gone. -/
abbrev State.fresh (s : State) : State := { s with out := [] }
/-- The state when every die has lost its power (R476, R571): reset, beside the queue, the fuses and the power controller. -/
abbrev State.dark (s : State) (p : Pwr) : State := { State.reset with pending := s.pending, free := s.free, fuses := s.fuses, pwr := p }

/-- A command of the power controller, or an event of the supply: the rows that act whether or not the dies do. -/
def onController : Instr → Bool
  | .vinTurnOn | .vinTurnOff | .vinOvervoltage | .inputCharged | .railsGood | .pwrgdRise | .pwrgdFall | .powerLoss | .converterFail _
  | .sensorOvertemp | .junctionTemperatureReturn | .thermalDiodeTrip | .thermtripPowerOff | .page _ | .voutMode | .statusWord _
  | .readVin _ | .readIin _ | .readVout _ | .readIout _ | .readTemperature1 _ | .readPout _ | .readPin _ | .pmbusRevision
  | .pmbusRefusedCommand _ _ => true
  | _ => false

/-- Every register outside a list reads as before. -/
def sameRegsBut (l : List Reg) (s t : State) : Prop := ∀ r : Reg, (∀ q ∈ l, r.off ≠ q.off) → t.reg r = s.reg r
/-- Every byte of the banks and of LPDDR5X reads as before. -/
def sameMemory (s t : State) : Prop := (∀ a, memByte t.sram a = memByte s.sram a) ∧ (∀ a, memByte t.dram a = memByte s.dram a)
/-- Everything but the registers, the interrupt sources and the outputs is as before. -/
def sameBeside (s t : State) : Prop := t = { s with regs := t.regs, irq := t.irq, out := t.out }

/-- An agent's queue is empty, and a command that its sequencer enqueues now begins at once: its region is not quiesced, its gate is open, and
it carries neither a wait nor a predicate (R46, R225, R231). -/
abbrev State.engineFree (s : State) (g q : Nat) (h : CmdHdr) : Prop :=
  s.tilePresent g = true ∧ (s.rgn (g / 8)).quiesce = false ∧ s.queue g q = [] ∧ s.gateOpen g (s.tile g).issue = true ∧ h.waitEn = false ∧ h.predKind = 0
/-- An agent of a tile may access `n` bytes at a local address, and none of their words is in error (R77, R84, R97). -/
abbrev State.clear (s : State) (g agent a n : Nat) : Prop :=
  s.accCheck g agent a n = .ok ∧ badIn s.sramBad (sramKey g (laBank a) (laOff a)) n = []
/-- `n` bytes of a tile's own banks from a local address on, as a little-endian number. -/
def State.laNat (s : State) (g a i n : Nat) : Nat := memNat s.sram (sramKey g (laBank a) (laOff a) + i) n
/-- Every byte of the banks outside `n` bytes at a local address of a tile reads as before. -/
def sameBanksBut (g a n : Nat) (s t : State) : Prop :=
  ∀ b, (b < sramKey g (laBank a) (laOff a) ∨ sramKey g (laBank a) (laOff a) + n ≤ b) → memByte t.sram b = memByte s.sram b
/-- Two extents of a tile's own banks share no byte, whatever views their addresses name (R75, R199). -/
abbrev disjointLa (a n b m : Nat) : Prop := a % 2 ^ 27 + n ≤ b % 2 ^ 27 ∨ b % 2 ^ 27 + m ≤ a % 2 ^ 27
/-- A format code names a format whose elements are whole bytes and not microscaled (R127, R193). -/
abbrev plainFmt (c : BitVec 4) : Prop := (fmtOf c).any (fun f => !f.packed) = true
/-- The rows of the VEC operation table, with their operations (R204). -/
def vecForms (g : Gt) (h : CmdHdr) (o : VecOps) : List (VecOp × Instr) :=
  [(.cvt, .cvt g h o), (.add, .addOp g h o), (.sub, .subOp g h o), (.mul, .mulOp g h o), (.fma, .fma g h o), (.axpb, .axpb g h o),
    (.max, .maxOp g h o), (.min, .minOp g h o), (.abs, .absOp g h o), (.neg, .negOp g h o), (.sel, .selOp g h o), (.cmpgt, .cmpgt g h o),
    (.exp, .expOp g h o), (.ln, .ln g h o), (.rcp, .rcp g h o), (.rsqrt, .rsqrt g h o), (.sqrt, .sqrt g h o), (.sigmoid, .sigmoid g h o),
    (.tanh, .tanh g h o), (.silu, .silu g h o), (.gelu, .gelu g h o), (.swiglu, .swiglu g h o), (.iadd, .iadd g h o), (.isub, .isub g h o),
    (.imul, .imul g h o), (.imin, .imin g h o), (.imax, .imax g h o), (.iand, .iand g h o), (.ior, .ior g h o), (.ixor, .ixor g h o),
    (.ishl, .ishl g h o), (.ishr, .ishr g h o), (.iota, .iota g h o), (.rsum, .rsum g h o), (.rsumsq, .rsumsq g h o), (.rdot, .rdot g h o),
    (.rmax, .rmax g h o), (.rmin, .rmin g h o), (.rargmax, .rargmax g h o), (.softmax, .softmax g h o), (.rmsnorm, .rmsnorm g h o),
    (.layernorm, .layernorm g h o), (.gather, .gather g h o), (.sample, .sample g h o), (.merge, .merge g h o)]

/-- A word is a global address of `n` bytes of this module's own LPDDR5X (R284). -/
abbrev State.ownDram (s : State) (a : Word) (n : Nat) : Prop :=
  gaModule a.toNat = s.self ∧ gaSpace a.toNat = 1 ∧ gaZeros a.toNat = true ∧ gaDram a.toNat + n ≤ dramSize
/-- A row names the descriptor of an I/O-die channel's next ring entry (R262, R389): of a ring in the module's own LPDDR5X it is that of the
entry's 64 bytes, which read right; of any other ring the row alone says it. -/
abbrev State.ringNames (s : State) (i : Iod) (ch : IoCh) (op : DescOp) (d : Desc) : Prop :=
  let ring := s.fget (.IDMA_RINGS i ch) IDMA_RINGS.DRING
  s.fget (.RING_CFG ring) RING_CFG.KIND ≠ 1 ∨ s.dramBad = [] ∧ descMatches (memRead s.dram
    (((s.reg (.RING_BASE ring)).toNat + s.fget (.RING_IDX ring) RING_IDX.CONS % s.ringSize ring * 64) % 2 ^ 40) 64) op { d with planned := none } = true
/-- A packet for a module leaves by a usable port that its entry of the destination table names (R340, R343). -/
abbrev State.routesTo (s : State) (m p : Nat) : Prop :=
  s.flag .ROUTE_SELF ROUTE_SELF.SELF_VALID = true ∧ s.flag (.ROUTE_DEST m) ROUTE_DEST.VALID = true ∧ s.fget (.ROUTE_DEST m) ROUTE_DEST.KIND = 0
    ∧ s.fget (.ROUTE_DEST m) ROUTE_DEST.PORT = p ∧ s.usable p = true
/-- The parcels of a packet, as a port's queue of answer or service traffic holds them. -/
def queued (k : Packet) : List TxParcel := (parcelsOf (pktBytes k)).map (fun x => { parcel := x, planned := none, part := none })

end Sys2Proof.Machine
end

