-- ==== Sys2Proof/Certificates/Slice0/Obligations.lean ====
section
/-! DEFINITION. The statements about the block, each from the numbered rules of spec/ that its docstring names. `fresh` is the state with
the outputs of the last command gone, which is what a command that has no effect leaves. -/

open Sys2Proof Sys2Proof.Machine

/-! The whole machine. -/

/-- The step takes the command at the front of the queue and runs it on the queue's rest; an empty queue idles. The idle step and the queue
are the model's (log entry 29). -/
def Obligations.StepRunsFrontCommand : Prop :=
  ∀ (s : State) (c : Instr) (rest : List Instr),
    (s.pending = c :: rest → step s = exec c { s with pending := rest }) ∧ (s.pending = [] → step s = .next s)

/-- Every command answers a next state from every state, and none changes the queue or the fuses (R476: the fuses cannot be written). Any
number of steps completes, takes that many commands off the front of the queue, and leaves the fuses as they were. That no event faults,
and that one whose condition does not hold changes nothing, is the model's choice (log entries 29, 44). -/
def Obligations.EveryRunCompletes : Prop :=
  (∀ (c : Instr) (s : State), ∃ t, exec c s = .next t ∧ t.pending = s.pending ∧ t.fuses = s.fuses)
  ∧ (∀ (n : Nat) (s : State), ∃ t, Sys2Proof.core.run n s = .next t ∧ t.pending = s.pending.drop n ∧ t.fuses = s.fuses)

/-- While the dies are held in reset, or a calibration phase has failed (R478, R569), a command of the module changes nothing. What such a
command leaves is the model's choice (log entry 44). -/
def Obligations.NoEffectWithoutPower : Prop :=
  ∀ (c : Instr) (s : State), onController c = false → s.alive = false → exec c s = .next s.fresh

/-- Every step keeps this: while PWRGD is not high, the dies hold what reset gives them and nothing else (R476, R569, R571). The phases of the
supply are the model's (log entries 1, 53). -/
def Obligations.StateLostWithPower : Prop := ∀ s t : State, s.Inv → step s = .next t → t.Inv

/-- Reset is such a state, with an empty queue, and every register reads its reset value. The reset point and the values that the spec does
not give are the model's (log entries 1 to 4, 6, 8). -/
def Obligations.ResetState : Prop :=
  State.reset.Inv ∧ State.reset.pending = [] ∧ State.reset.alive = true ∧ (∀ r : Reg, State.reset.reg r = r.info.reset)
  ∧ State.reset.fget .STG_CFG STG_CFG.LEN = 2 ∧ State.reset.fget .HOLD_LIMIT HOLD_LIMIT.LIMIT_US = 10000
  ∧ State.reset.fget .BOOT_STATE BOOT_STATE.STATE = 0 ∧ State.reset.fget .OWN_STATUS OWN_STATUS.OWNED = 0
  ∧ (∀ g k, State.reset.fget (.BANK_OWN g k) BANK_OWN.OWNER = 7)

/-! The power controller and the supply. -/

/-- The start-up order (R567, R569, R570): VIN through 39 V charges the input, the charged input starts the converters, good rails let the
module release PWRGD unless a thermal trip stands, and the rise of PWRGD is a power-up: every register, table, memory and counter takes
its reset value (R476). In any other phase these events change nothing. What takes every die's state away (R567, R569, R571, R580): VIN
below 37 V, which alone ends a trip and a lockout; VIN above 62 V; PWRGD held low; a power loss; and the power-off of a thermal trip.
Where no power is there to lose, nothing changes. A diode at 115 °C asserts THERMTRIP_N, once, and raises THERMAL as DEVICE_STOP (R580); a
converter that fails is cut off and only reported (R572). An event in another phase changes nothing by log entry 44; power losses are log
entry 53. -/
def Obligations.SupplyEvents : Prop :=
  (∀ s : State,
    exec .vinTurnOn s = .next { s.fresh with pwr := { s.pwr with phase := if s.pwr.phase = .off then .charging else s.pwr.phase } }
    ∧ exec .inputCharged s = .next { s.fresh with pwr := { s.pwr with phase := if s.pwr.phase = .charging then .converting else s.pwr.phase } }
    ∧ exec .railsGood s = .next { s.fresh with
        pwr := { s.pwr with phase := if s.pwr.phase = .converting ∧ s.pwr.thermtrip = false then .released else s.pwr.phase } }
    ∧ (s.pwr.phase = .released → s.pwr.thermtrip = false → exec .pwrgdRise s = .next (s.dark { s.pwr with phase := .up, hot := false }))
    ∧ ((s.pwr.phase ≠ .released ∨ s.pwr.thermtrip = true) → exec .pwrgdRise s = .next s.fresh))
  ∧ (∀ s : State,
    exec .vinTurnOff s = .next (s.dark { s.pwr with phase := .off, hot := false, thermtrip := false, vinUv := true, page := 0, cml := false })
    ∧ exec .vinOvervoltage s = .next (if s.pwr.phase = .tripped then s.fresh else s.dark { s.pwr with phase := .lockout, hot := false })
    ∧ exec .pwrgdFall s = .next (if s.pwr.phase = .up then s.dark { s.pwr with phase := .released, hot := false } else s.fresh)
    ∧ exec .powerLoss s = .next (if s.pwr.phase = .up ∨ s.pwr.phase = .released ∨ s.pwr.phase = .converting
        then s.dark { s.pwr with phase := .converting, hot := false } else s.fresh)
    ∧ exec .thermtripPowerOff s = .next (if s.pwr.thermtrip = true ∧ s.pwr.phase ≠ .off
        then s.dark { s.pwr with phase := .tripped, hot := false } else s.fresh))
  ∧ ((∀ s : State, s.pwr.thermtrip = false → s.alive = true →
    exec .thermalDiodeTrip s = .next (({ s.fresh with pwr := { s.pwr with thermtrip := true } } : State).deviceStop { code := 0x0F }))
  ∧ (∀ s : State, (s.pwr.thermtrip = true ∨ s.pwr.phase = .off) → exec .thermalDiodeTrip s = .next s.fresh)
  ∧ (∀ (s : State) (n : Converter), ∃ t, exec (.converterFail n) s = .next t
      ∧ t = { s.fresh with pwr := { s.pwr with convOff := t.pwr.convOff } }
      ∧ ∀ i, i < 5 → t.pwr.convOff.getLsbD i = (s.pwr.convOff.getLsbD i || decide (i = n.val))))

/-- The module raises THERMAL as STAGE_ABORT against every partition each time the temperature passes above 105 °C, and nothing further while
it stays above (R579); the passage back arms it again. The class where every partition is HALTED is log entry 74. -/
def Obligations.ThermalOncePerPassage : Prop :=
  ∀ s : State, s.alive = true →
    (s.pwr.hot = false → exec .sensorOvertemp s
      = .next (({ s.fresh with pwr := { s.pwr with hot := true } } : State).raise { code := 0x0F, cls := cABORT, parts := List.range 8 }))
    ∧ (s.pwr.hot = true → exec .sensorOvertemp s = .next s.fresh)
    ∧ exec .junctionTemperatureReturn s = .next { s.fresh with pwr := { s.pwr with hot := false } }

/-- The PMBus commands (R585), while VIN is above 37 V: each reading is answered on its pages and refused elsewhere, PAGE selects a page that
is present, STATUS_WORD clears CML and VIN_UV, and every refusal is a NACK that sets CML and changes nothing else. The bits of STATUS_WORD
(R585). The corners of CML and PAGE are the model's (log entry 7). -/
def Obligations.PmbusCommands : Prop :=
  (∀ (s : State) (v : BitVec 16), s.pwr.phase ≠ .off →
    let refused : Res := .next { s with pwr := { s.pwr with cml := true }, out := [.nack] }
    let word : Res := .next { s with out := [.pmbus (toLe 2 v.toNat)] }
    (∀ c ∈ [Instr.readVin v, .readIin v, .readPin v], exec c s = if s.pwr.page.toNat = 0 then word else refused)
    ∧ (∀ c ∈ [Instr.readVout v, .readIout v], exec c s = if 1 ≤ s.pwr.page.toNat ∧ s.pwr.page.toNat ≤ 5 then word else refused)
    ∧ (∀ c ∈ [Instr.readTemperature1 v, .readPout v], exec c s = if 1 ≤ s.pwr.page.toNat ∧ s.pwr.page.toNat ≤ 17 then word else refused)
    ∧ exec .voutMode s = (if 1 ≤ s.pwr.page.toNat ∧ s.pwr.page.toNat ≤ 5 then .next { s with out := [.pmbus [0x17]] } else refused)
    ∧ exec .pmbusRevision s = .next { s with out := [.pmbus [0x33]] }
    ∧ exec (.page .read) s = .next { s with out := [.pmbus [s.pwr.page]] }
    ∧ (∀ n : Byte, exec (.page (.write n)) s = if 17 < n.toNat then refused else .next { s with pwr := { s.pwr with page := n }, out := [] })
    ∧ (∀ m : PageSense, exec (.statusWord m) s
        = .next { s with pwr := { s.pwr with cml := false, vinUv := false }, out := [.pmbus (toLe 2 (s.pmStatus m))] })
    ∧ (∀ (code : Byte) (write : Bool), exec (.pmbusRefusedCommand code write) s
        = if code.toNat ∉ [0x00, 0x20, 0x79, 0x88, 0x89, 0x8B, 0x8C, 0x8D, 0x96, 0x97, 0x98] ∨ (write = true ∧ code ≠ 0) then refused
          else .next s.fresh))
  ∧ (∀ (s : State) (m : PageSense),
    let p := s.pwr.page.toNat
    (s.pmStatus m).testBit 15 = (decide (1 ≤ p ∧ p ≤ 5) && m.voutBad)
    ∧ (s.pmStatus m).testBit 13 = (decide (p = 0) && m.vinBad)
    ∧ (s.pmStatus m).testBit 11 = decide (s.pwr.phase ≠ .up)
    ∧ (s.pmStatus m).testBit 6 = (decide (1 ≤ p ∧ p ≤ 5) && s.pwr.convOff.toNat.testBit (p - 1))
    ∧ (s.pmStatus m).testBit 3 = (decide (p = 0) && s.pwr.vinUv)
    ∧ (s.pmStatus m).testBit 2 = (decide (p ≠ 0) && m.hot)
    ∧ (s.pmStatus m).testBit 1 = s.pwr.cml
    ∧ (∀ i, i ∉ [15, 13, 11, 6, 3, 2, 1] → (s.pmStatus m).testBit i = false))

/-! Registers, ownership and faults. -/

/-- What a write makes of each bit of a register (R6, R7): a bit that the access does not address keeps its value; of those it does address,
an RW bit takes the written value, a W1C bit is cleared by 1, a W1S bit is set by 1, and any other bit, a reserved one among them, ignores
the write. A write to an offset of BAR0 (R2, R9, R465), at a moment of the stage in progress: the owner's or the Steward's write of a register
without a rule of its own takes effect so; one of another size or alignment, to an offset that holds no register, or in the window of a
fused tile or an absent port changes nothing; and the write of a port that is not the owner is counted instead. The moment is log entry
31. -/
def Obligations.WriteByFieldKind : Prop :=
  (∀ (i : RegInfo) (old : Word) (a : Acc) (b : Nat), b < 64 → i.rw &&& (i.w1c ||| i.w1s) = 0 → i.w1c &&& i.w1s = 0 →
    let addressed := match a.size with | .full => true | .lo => decide (b < 32) | .hi => decide (32 ≤ b)
    let written := match a.size with | .hi => a.val.getLsbD (b - 32) | _ => a.val.getLsbD b
    (i.write old a).getLsbD b =
      if addressed then
        if i.rw.getLsbD b then written
        else if i.w1c.getLsbD b then old.getLsbD b && !written
        else if i.w1s.getLsbD b then old.getLsbD b || written
        else old.getLsbD b
      else old.getLsbD b)
  ∧ ∀ (s r : State) (w : RegWrite), s.alive = true → s.fresh.advance w.at_ = some r →
    let size : Option Sz := if w.bytes = 8 ∧ w.off.toNat % 8 = 0 then some .full else if w.bytes = 4 ∧ w.off.toNat % 8 = 0 then some .lo
      else if w.bytes = 4 ∧ w.off.toNat % 8 = 4 then some .hi else none
    let plain (q : Reg) : Prop := (∃ g, q = .BANK_EVENT g ∨ q = .TALLY_LIMIT g) ∨ (∃ i, q = .IDMA_EVENT i ∨ q = .DR_ECC i) ∨ (∃ n, q = .RGN_STATUS n)
      ∨ q ∈ [Reg.XING_ALARM, .WT_EVENT, .ROUTE_STATUS, .BOOT_ADDR, .FT_MASTER, .FT_SERVO, .STG_STATUS]
    (∀ (q : Reg) (z : Sz), s.mayWrite w.by_ = true → plain q → q.off = w.off.toNat / 8 * 8 → Reg.ofOff q.off = some q → s.regAbsent q = false →
      size = some z → exec (.registerWrite w) s = .next (s.keepOuter (r.setReg q (q.info.write (r.reg q)
        ⟨w.by_, z, if z = .full then w.val else w.val &&& 0xFFFFFFFF⟩))))
    ∧ (s.mayWrite w.by_ = true → (size = none ∨ Reg.ofOff (w.off.toNat / 8 * 8) = none
        ∨ ∃ q, Reg.ofOff (w.off.toNat / 8 * 8) = some q ∧ s.regAbsent q = true) → exec (.registerWrite w) s = .next (s.keepOuter r))
    ∧ (∀ (p : HostPort) (q : Reg), s.owner ≠ some p.val → w.by_ = .host p → plain q → q.off = w.off.toNat / 8 * 8 → Reg.ofOff q.off = some q →
        exec (.registerWrite w) s = .next (s.keepOuter ((r.fadd (.HP_COUNT p) HP_COUNT.DISCARDS 1).fset (.HP_STATUS p) HP_STATUS.DISCARD 1)))

/-- A write from a port that is not the owner is discarded and counted in DISCARDS of that port (R465), and nothing else changes; while the
module is UNOWNED both ports are such. The list names every command that carries an owner-only write, and register offsets of every block
that holds one. That registers of a service core are not the port's is log entry 50. -/
def Obligations.NonOwnerWritesDiscarded : Prop :=
  ∀ (s : State) (p : HostPort) (a : Acc) (g : Gt) (k : Bank) (e : PatchEntry) (t : TallyIx) (n : Rgn) (q : Port) (i : Iod) (ch : IoCh) (r : RouteReg)
    (m : RingIx) (w : CancelWord) (u : Account) (v : AperWin) (x : SrcIx) (z : TimeIn), s.alive = true → s.owner ≠ some p.val → a.by_ = .host p →
    ∀ c ∈ [Instr.rgnBudgetWrite n a, .bankOwnWrite g k a, .patchReleaseRequest g e a, .tallyWrite g t a, .idmaRun i ch a, .idmaStop i ch a,
      .idmaShareWrite i ch a, .idmaRingsWrite i ch a, .vblEnable q a, .vblDisable q a, .routeTableWrite r a, .rlyFeedWrite a, .relayEnable a,
      .relayDisable a, .ftStepWrite a z, .resetTime a, .clientEnable a z, .ftRateWrite a z, .ringCfgWrite m a, .ringConsWrite m a, .doorbellWrite m a,
      .aduCancelWrite w a, .acctBalWrite u a, .acctCfgWrite u a, .ownHandover a, .ownLapseWrite a, .aperWinWrite v a, .loadFirmware a,
      .loadStructure a, .loadPlan a, .loadCert a, .unload a, .loadRefusedKind a, .intSet a, .intSrcWrite x a, .mbRequest a, .resume a,
      .fenceSubmit a],
      exec c s = .next ((s.fresh.fadd (.HP_COUNT p) HP_COUNT.DISCARDS 1).fset (.HP_STATUS p) HP_STATUS.DISCARD 1)

/-- Each raise writes one entry of the fault log, advances its index and pulses source 614 (R520): the entry holds the code, the class, the
origin and its number, the agent, the faulting stage, the address and the fabric time, and no memory changes. A code outside the fault table,
which a packet may carry, raises nothing (R516, log entry 85). The class of a fault against partitions that are all HALTED is the model's
choice (log entry 74), as are origins that have none of their own (log entry 52). -/
def Obligations.FaultIsLogged : Prop :=
  (∀ (s : State) (r : Raise), (r.code = 0 ∨ 0x17 < r.code) → s.raise r = s)
  ∧ ∀ (s : State) (r : Raise), 1 ≤ r.code → r.code ≤ 0x17 → r.cls < 3 → r.origin < 16 → r.agent < 16 →
    let e := (s.reg .FLT_LOG_IDX).toNat
    let t := s.raise r
    t.fget (.FLT_LOG (e % 256) 0) FLT_LOG.CODE = r.code
    ∧ (t.fget (.FLT_LOG (e % 256) 0) FLT_LOG.CLASS = r.cls
        ∨ (r.cls = 1 ∧ t.fget (.FLT_LOG (e % 256) 0) FLT_LOG.CLASS = 0 ∧ ∀ p ∈ r.parts, s.pstate p = pNONE ∨ s.pstate p = pHALTED))
    ∧ t.fget (.FLT_LOG (e % 256) 0) FLT_LOG.ORIGIN = r.origin ∧ t.fget (.FLT_LOG (e % 256) 0) FLT_LOG.ID = r.id % 1024
    ∧ t.fget (.FLT_LOG (e % 256) 0) FLT_LOG.AGENT = r.agent
    ∧ t.reg (.FLT_LOG (e % 256) 1) = BitVec.ofNat 64 (r.fstage.getD s.stage) ∧ t.reg (.FLT_LOG (e % 256) 2) = BitVec.ofNat 64 r.addr
    ∧ t.reg (.FLT_LOG (e % 256) 3) = s.time.ns ∧ t.reg .FLT_LOG_IDX = BitVec.ofNat 64 (e + 1)
    ∧ (∀ i k, i < 256 → i ≠ e % 256 → k < 4 → t.reg (.FLT_LOG i k) = s.reg (.FLT_LOG i k))
    ∧ (t.src 614).pend = true ∧ (t.src 614).edges = (s.src 614).edges + 1
    ∧ t.sram = s.sram ∧ t.dram = s.dram ∧ t.tiles = s.tiles

/-- A STAGE_ABORT fault with faulting stage F sets the halt boundary of each affected RUNNING partition: the end boundary of F, or the first
boundary after the raise when that is later; an earlier one that already stands is kept, and the partition's faulting stage is the least
(R521, R522). A partition that is not RUNNING, and one that the fault does not name, is left alone (R525). FAULT_N is asserted while a
device stop is in force, while a partition is HALTED by a fault, in boot state FAILED by a calibration phase, and after an uncorrectable
error in the Steward's memory, and at no other time (R527). A device stop with PART_FLT is log entry 42. -/
def Obligations.HaltAndPin : Prop :=
  (∀ (s : State) (r : Raise) (p : Nat), 1 ≤ r.code → r.code ≤ 0x17 → r.cls = 1 → r.parts.Nodup → p < 8 →
    let f := r.fstage.getD s.stage
    let q := (s.part p)
    ((p ∈ r.parts ∧ s.pstate p = pRUNNING) →
      ((s.raise r).part p).haltAt = some (match q.haltAt with | none => max f s.stage + 1 | some h => min h (max f s.stage + 1))
      ∧ ((s.raise r).part p).fstage = some (match q.fstage with | none => f | some l => min f l))
    ∧ ((p ∉ r.parts ∨ s.pstate p ≠ pRUNNING) → (s.raise r).part p = q))
  ∧ (∀ s : State, s.refreshFaultN.fget .FLT_STATUS FLT_STATUS.FAULT_N = 1 ↔
    (s.stopped = true ∨ (s.boot_ = 7 ∧ 1 ≤ s.fget .BOOT_STATE BOOT_STATE.CAUSE ∧ s.fget .BOOT_STATE BOOT_STATE.CAUSE ≤ 5) ∨ s.flag .FLT_STATUS FLT_STATUS.STEWARD_UE = true
      ∨ ∃ p, p < 8 ∧ s.pstate p = pHALTED ∧ s.flag (.PART_FLT p) PART_FLT.VALID = true))

/-- Ownership (R466, R469 to R472): a claim of an unowned module by a whole write of a nonce other than 0 succeeds, and any other leaves it; a
handover takes effect only toward the other port with its request held and its link up; a lapse leaves the module unowned and raises
HOST_DOWN as a flag. Every change counts in CHANGES, stores the nonce and clears the request. A claim that is not a whole write, and a
nonce other than 0 that the owner writes, only count in DISCARDS (R475); a request of an UNOWNED module is discarded (R465). The lapse is due
once the owner's link has been down for the LAPSE_MS of that moment; an event whose condition does not hold changes nothing but the time
by log entry 44. -/
def Obligations.OwnershipChanges : Prop :=
  ∀ s : State, s.alive = true →
    (∀ (p : HostPort) (v : Word), s.owner = none → v ≠ 0 → ∃ t, exec (.ownClaim ⟨.host p, .full, v⟩) s = .next t ∧ t.owner = some p.val
      ∧ t.reg .OWN_CLAIM = v ∧ t.reg .OWN_REQUEST = 0
      ∧ t.fget .OWN_STATUS OWN_STATUS.CHANGES = (s.fget .OWN_STATUS OWN_STATUS.CHANGES + 1) % 2 ^ 32)
    ∧ (∀ (p : HostPort) (v : Word), s.owner ≠ none ∨ v = 0 → exec (.ownClaim ⟨.host p, .full, v⟩) s = .next s.fresh)
    ∧ (∀ (p : HostPort) (z : Sz) (v : Word), z ≠ .full → exec (.ownClaim ⟨.host p, z, v⟩) s
        = .next (s.fresh.fadd (.HP_COUNT p) HP_COUNT.DISCARDS 1))
    ∧ (∀ (o p : HostPort) (v n : Word), s.owner = some o.val → o ≠ p → s.reg .OWN_REQUEST = n → n ≠ 0 → s.linkUp p.val = true →
        OWN_HANDOVER.TO.get v = p.val → ∃ t, exec (.ownHandover ⟨.host o, .full, v⟩) s = .next t ∧ t.owner = some p.val
          ∧ t.reg .OWN_CLAIM = n ∧ t.reg .OWN_REQUEST = 0 ∧ t.flag .OWN_STATUS OWN_STATUS.HAND_REJ = false)
    ∧ (∀ (o : HostPort) (v : Word), s.owner = some o.val →
        (OWN_HANDOVER.TO.get v = o.val ∨ s.reg .OWN_REQUEST = 0 ∨ s.linkUp (OWN_HANDOVER.TO.get v) = false) →
        exec (.ownHandover ⟨.host o, .full, v⟩) s = .next (s.fresh.fset .OWN_STATUS OWN_STATUS.HAND_REJ 1))
    ∧ (∀ (o : HostPort) (p : HostPort) (v : Word), s.owner = some o.val → o ≠ p →
        exec (.ownRequest ⟨.host p, .full, v⟩) s
          = .next ((s.fresh.setReg .OWN_REQUEST v).fset .OWN_STATUS OWN_STATUS.REQ (if v = 0 then 0 else 1)))
    ∧ (∀ (o : HostPort) (v : Word), s.owner = some o.val → v ≠ 0 →
        exec (.ownRequest ⟨.host o, .full, v⟩) s = .next (s.fresh.fadd (.HP_COUNT o) HP_COUNT.DISCARDS 1))
    ∧ (∀ (p : HostPort) (z : Sz) (v : Word), s.owner = none → exec (.ownRequest ⟨.host p, z, v⟩) s
        = .next ((s.fresh.fadd (.HP_COUNT p) HP_COUNT.DISCARDS 1).fset (.HP_STATUS p) HP_STATUS.DISCARD 1))
    ∧ (∀ (x : TimeIn) (r : State), s.fresh.advance x = some r →
        let due := ∃ b, s.lapseFrom = some b ∧ s.lapseMs.toNat * 1000000 * 2 ^ 32 ≤ r.time.base - b
        (∀ o : HostPort, s.owner = some o.val → s.linkUp o.val = false → due → ∃ t, exec (.ownershipLapse x) s = .next t ∧ t.owner = none
          ∧ t.flag (.HP_STATUS o) HP_STATUS.LAPSED = true ∧ t.reg .OWN_CLAIM = 0 ∧ t.reg .OWN_REQUEST = 0
          ∧ t.fget .OWN_STATUS OWN_STATUS.CHANGES = (s.fget .OWN_STATUS OWN_STATUS.CHANGES + 1) % 2 ^ 32
          ∧ t.fget (.FLT_LOG ((s.reg .FLT_LOG_IDX).toNat % 256) 0) FLT_LOG.CODE = 0x14)
        ∧ ((s.owner = none ∨ (∃ o, s.owner = some o ∧ s.linkUp o = true) ∨ ¬ due) → exec (.ownershipLapse x) s = .next (s.keepOuter r)))
    ∧ (∀ (o : HostPort) (v : Word), s.owner = some o.val → exec (.ownLapseWrite ⟨.host o, .full, v⟩) s
        = .next (if 100 ≤ OWN_LAPSE.LAPSE_MS.get v ∧ OWN_LAPSE.LAPSE_MS.get v ≤ 60000
            then s.fresh.setReg .OWN_LAPSE (Reg.OWN_LAPSE.info.write (s.reg .OWN_LAPSE) ⟨.host o, .full, v⟩) else s.fresh))

/-- The link of a port (R456, R464, R475): when it goes down, LINK_UP, the speed and the widths read 0, LINK_DOWN is set and the port's MSI-X
table and pending bits are reset; a link already down changes nothing. When it comes up, HP_STATUS shows what was negotiated, and the
lapse count of the owner ends. A pending MSI-X message goes out once the link is up and its vector is not masked, and is pending no more
(R464); otherwise nothing happens. The MSI-X layout is presumed (log entry 4), and what MSIX_PENDING_SEND tells is log entry 37. -/
def Obligations.HostLink : Prop :=
  (∀ (s : State) (p : HostPort), s.alive = true →
    (s.linkUp p.val = true → (∀ ch, ch < 32 → (tget {} s.idma (p.val * 32 + ch)).cur = none) → ∃ t, exec (.hostLinkDown p) s = .next t
      ∧ t.linkUp p.val = false ∧ t.fget (.HP_STATUS p) HP_STATUS.SPEED = 0
      ∧ t.fget (.HP_STATUS p) HP_STATUS.WIDTH = 0 ∧ t.fget (.HP_STATUS p) HP_STATUS.ACTIVE = 0
      ∧ t.flag (.HP_STATUS p) HP_STATUS.LINK_DOWN = true ∧ (t.host p.val).msix = [] ∧ (t.host p.val).pba = [] ∧ (t.host p.val).msixEn = false
      ∧ (∀ q : HostPort, q ≠ p → t.host q.val = s.host q.val) ∧ t.owner = s.owner
      ∧ (s.owner = some p.val → t.lapseFrom ≠ none ∧ t.lapseMs.toNat = s.fget .OWN_LAPSE OWN_LAPSE.LAPSE_MS))
    ∧ (s.linkUp p.val = false → exec (.hostLinkDown p) s = .next s.fresh)
    ∧ (∀ m : LinkMode, ∃ t, exec (.hostLinkUp p m) s = .next t ∧ t.linkUp p.val = true ∧ t.fget (.HP_STATUS p) HP_STATUS.SPEED = m.speed.toNat
      ∧ t.fget (.HP_STATUS p) HP_STATUS.WIDTH = m.width.toNat ∧ t.fget (.HP_STATUS p) HP_STATUS.ACTIVE = m.active.toNat
      ∧ (s.owner = some p.val → t.lapseFrom = none) ∧ t.hosts = s.hosts))
  ∧ (∀ (s : State) (p : HostPort) (v : MsixVec), s.alive = true →
    let masked := (tget 0x100000000 (s.host p.val).msix (2 * v.val + 1)).toNat.testBit 32
    (v.val ∈ (s.host p.val).pba → s.linkUp p.val = true → masked = false →
      exec (.msixPendingSend p v) s = .next ((s.fresh.modHost p.val (fun h =>
        { h with msixEn := true, fmask := false, pba := h.pba.filter (· != v.val) })).emit (.msix p v.val)))
    ∧ ((v.val ∉ (s.host p.val).pba ∨ s.linkUp p.val = false ∨ masked = true) → exec (.msixPendingSend p v) s = .next s.fresh))

/-- The aperture (R458 to R461): an offset that no enabled window reaches reads zeros and takes no write; in LPDDR5X a read returns the bytes
there when none of its words is in error, and a write by the owner changes exactly the bytes it covers. An enabled window that is not
aligned, or of a size outside 1 MiB to 1 GiB, is not written. The bytes of a word in error are log entry 48, other corners log entry 66. -/
def Obligations.Aperture : Prop :=
  ∀ (s : State) (p : HostPort) (off : AperOff), s.alive = true → s.boot_ ≠ 0 →
    (∀ len, s.aperGa off.toNat = none → exec (.apertureRead p off len) s = .next (s.fresh.emit (.readBytes p (List.replicate len 0))))
    ∧ (∀ d, s.owner = some p.val → s.aperGa off.toNat = none → exec (.apertureWrite p off d) s = .next s.fresh)
    ∧ (∀ ga len, s.aperGa off.toNat = some ga → gaSpace ga = 1 → gaZeros ga = true → gaDram ga + len ≤ dramSize →
        badIn s.dramBad (gaDram ga) len = [] →
        ∃ t, exec (.apertureRead p off len) s = .next t ∧ t.out = [.readBytes p (memRead s.dram (gaDram ga) len)] ∧ t.dram = s.dram ∧ t.regs = s.regs)
    ∧ (∀ ga d, s.owner = some p.val → s.aperGa off.toNat = some ga → gaSpace ga = 1 → gaZeros ga = true → gaDram ga + d.length ≤ dramSize →
        s.dramBad = [] → ∃ t, exec (.apertureWrite p off d) s = .next t ∧ t.regs = s.regs ∧ t.sram = s.sram
          ∧ (∀ i, i < d.length → memByte t.dram (gaDram ga + i) = d.getD i 0)
          ∧ (∀ a, (a < gaDram ga ∨ gaDram ga + d.length ≤ a) → memByte t.dram a = memByte s.dram a))
    ∧ (∀ (w : AperWin) (v : Word), s.owner = some p.val →
        let z := APER_WIN.SIZE_LOG2.get v
        let base := APER_WIN.BASE.get v * 2 ^ 20
        exec (.aperWinWrite w ⟨.host p, .full, v⟩) s
          = .next (if APER_WIN.ENABLE.get v = 1 ∧ (z < 20 ∨ 30 < z ∨ base % 2 ^ z ≠ 0 ∨ 2 ≤ gaSpace base) then s.fresh
              else s.fresh.setReg (.APER_WIN w) ((Reg.info (.APER_WIN w)).write (s.reg (.APER_WIN w)) ⟨.host p, .full, v⟩)))

/-! Stages and rate regions. -/

/-- STAGE_BOUNDARY (R32, R384, R588): fabric time reaches the next boundary, then every unit does its boundary's work. While no module epoch
is set the boundary is the next multiple of 2,048 ns and the counter stays; once the epoch has arrived it is the end boundary of the
stage, and the counter advances by one; before that, the boundary at the epoch makes it arrive and the counter stays. The order of the
units' work is the model's (log entry 73), and the moment within a stage log entry 31. -/
def Obligations.StageBoundary : Prop :=
  ∀ (s : State) (b : BoundaryIn), s.alive = true →
    exec (.stageBoundary b) s
      = .next (s.keepOuter (s.fresh.nextStage.boundaryWork (s.time.epochSet && s.time.arrived) s.stage b))
    ∧ (s.time.epochSet = false → s.nextStage.reg .STG_COUNT = s.reg .STG_COUNT
        ∧ s.nextStage.time.ns = BitVec.ofNat 64 ((s.time.ns.toNat / 2048 + 1) * 2048))
    ∧ (s.time.epochSet = true → s.time.arrived = true → s.nextStage.reg .STG_COUNT = s.reg .STG_COUNT + 1
        ∧ s.nextStage.time.ns = BitVec.ofNat 64 ((s.reg .FT_EPOCH).toNat + (s.stage + 1) * s.stageNs))
    ∧ (s.time.epochSet = true → s.time.arrived = false → s.nextStage.reg .STG_COUNT = s.reg .STG_COUNT
        ∧ (s.nextStage.time.arrived = true ↔ s.nextBoundary = (s.reg .FT_EPOCH).toNat))
    ∧ sameRegsBut [.STG_COUNT, .STG_STATUS, .OWN_STATUS] s s.nextStage ∧ sameMemory s s.nextStage

/-- At a boundary a region's monitors report (R43 to R45, R54, R55): the pace, a calibration update where there was one, which clears
CAL_STALE, and the count of consecutive excess stages, which a stage whose input power, output over 0.846, is at most the budget plus 5 %
resets to 0; then the budget written last comes into force. Other regions are left alone. A budget write that the owner makes (R54): one
below the loaded plan's declared peak draw of the region is discarded and sets BUDGET_REJ; any other is read back at once, and the budget
in force stays until the boundary. POWER and CAL_STALE (R45, R56, R57): with a count of 5 the module raises POWER as a flag, once; with 5
+ H as a stage abort whose faulting stage is the one that has just ended, once; and after 4,096 stages with no calibration it sets
CAL_STALE. Otherwise these events change nothing. That the budget compared is the one in force is log entry 47; a boundary without a
measurement is log entry 43, EXCESS_RUN with no budget log entry 99, the H of a region without a plan log entry 100. -/
def Obligations.RegionMonitors : Prop :=
  (∀ (s : State) (n e : Nat) (m : RegionMeas), n < 64 →
    let t := s.rgnBoundary n e m
    let b := (s.rgn n).budget.toNat
    t.fget (.RGN_PACE n) RGN_PACE.PACE = m.pace.toNat
    ∧ t.fget (.RGN_POWER n) RGN_POWER.EXCESS_RUN
        = (if 0 < b ∧ b * 105 * 846 < m.power * 100000 then min (s.fget (.RGN_POWER n) RGN_POWER.EXCESS_RUN + 1) 255 else 0)
    ∧ (∀ c, m.cal = some c → t.fget (.RGN_PACE n) RGN_PACE.CAL = c.toNat ∧ t.fget (.RGN_STATUS n) RGN_STATUS.CAL_STALE = 0
        ∧ t.fget (.RGN_PACE n) RGN_PACE.CAL_COUNT = (s.fget (.RGN_PACE n) RGN_PACE.CAL_COUNT + 1) % 2 ^ 32 ∧ (t.rgn n).calAge = 0)
    ∧ (m.cal = none → t.fget (.RGN_PACE n) RGN_PACE.CAL = s.fget (.RGN_PACE n) RGN_PACE.CAL ∧ (t.rgn n).calAge = (s.rgn n).calAge + 1)
    ∧ (t.rgn n).budget.toNat = s.fget (.RGN_BUDGET n) RGN_BUDGET.WATTS
    ∧ (∀ k, k ≠ n → t.rgn k = s.rgn k) ∧ sameRegsBut [.RGN_POWER n, .RGN_PACE n, .RGN_STATUS n] s t)
  ∧ (∀ (s : State) (n : Rgn) (a : Acc), s.alive = true → s.mayWrite a.by_ = true →
    let r := Reg.RGN_BUDGET n
    let v := r.info.write (s.reg r) a
    let peak := match s.planOfRgn n with | none => 0 | some e => (e.2.power.getD n []).foldl max 0
    exec (.rgnBudgetWrite n a) s
      = .next (if RGN_BUDGET.WATTS.get v < peak then s.fresh.fset (.RGN_STATUS n) RGN_STATUS.BUDGET_REJ 1 else s.fresh.setReg r v))
  ∧ (∀ (s : State) (n : Rgn), s.alive = true →
    let run := s.fget (.RGN_POWER n) RGN_POWER.EXCESS_RUN
    exec (.powerFlag n) s = .next (if 5 ≤ run ∧ (s.rgn n).flagRaised = false then
        ((s.fresh.modRgn n (fun r => { r with flagRaised := true })).fset (.RGN_STATUS n) RGN_STATUS.POWER 1).raise
          { code := 0x0E, cls := 0, origin := 1, id := n, parts := (s.partOfRgn n).toList }
      else s.fresh)
    ∧ exec (.powerAbort n) s = .next (if 5 + s.rgnH n ≤ run ∧ (s.rgn n).abortRaised = false then
        s.keepOuter ((((s.fresh.modRgn n (fun r => { r with abortRaised := true })).fset (.RGN_STATUS n) RGN_STATUS.POWER_ABORT 1).raise
          { code := 0x0E, cls := 1, origin := 1, id := n, fstage := some (s.stage - 1), parts := (s.partOfRgn n).toList }).haltEnded n)
      else s.fresh)
    ∧ exec (.calStale n) s = .next (if 4096 ≤ (s.rgn n).calAge then s.fresh.fset (.RGN_STATUS n) RGN_STATUS.CAL_STALE 1 else s.fresh))

/-- The work of a stage in a region (R33, R34, R61, R63, R65): work starts only at or after its start boundary and once the work before it has
finished; it finishes when every tile with a stream has passed the stage end with no command of the stage left, with lateness the time by
which it passes the end boundary, 0 ending the episode; and OVERSTAY is raised, once, for the stage that ends the horizon. In any other
state these events change nothing. What the end of a region's work leaves in RGN_LATE (R63): the lateness in ns, saturating, with its
greatest value kept, and no boundary counted once the work was in time. That the moments come as operands is log entry 45. -/
def Obligations.WorkOfAStage : Prop :=
  (∀ (s : State) (n : Rgn), s.alive = true →
    let r := s.rgn n
    (r.mirrorHeld = false → (s.rgnRuns n = false ∨ r.finished = false ∨ s.stage < r.next) → exec (.stageWorkStart n) s = .next s.fresh)
    ∧ (s.rgnRuns n = true → r.finished = true → r.next ≤ s.stage → r.mirrorHeld = false → s.mirrorWaits n r.next = false →
        let begun := (s.rgnTiles n).foldl (fun s g => s.workEdge g r.next)
          (s.fresh.modRgn n (fun q => { q with next := r.next + 1, finished := false }))
        exec (.stageWorkStart n) s = .next (s.keepOuter
          (if (s.rgnTiles n).any (fun g => s.hasStream g) then begun else begun.rgnFinish n r.next s.stageNs)))
    ∧ (s.rgnRuns n = true → r.finished = true → r.next ≤ s.stage → r.mirrorHeld = false → s.mirrorWaits n r.next = true → exec (.stageWorkStart n) s
        = .next ((s.fresh.modRgn n (fun q => { q with mirrorHeld := true })).fadd .SHARD_CFG SHARD_CFG.MIRROR_WAITS 1))
    ∧ (∀ ns, s.rgnRuns n = true → r.finished = false → ns ≤ s.stageNs → (s.rgnTiles n).all (fun g => s.tileDone g (r.next - 1)) = true →
        exec (.stageWorkFinish n ns) s = .next (s.fresh.rgnFinish n (r.next - 1)
          ((r.next - 1 + 1 : Nat) * s.stageNs - ((s.stage : Int) * s.stageNs + ns))))
    ∧ (∀ ns, (s.rgnRuns n = false ∨ r.finished = true ∨ s.stageNs < ns ∨ (s.rgnTiles n).all (fun g => s.tileDone g (r.next - 1)) = false) →
        exec (.stageWorkFinish n ns) s = .next s.fresh)
    ∧ (∀ e, r.s0 = some e → s.rgnRuns n = true → e + s.rgnH n < s.stage → s.rgnDone n (e + s.rgnH n) = false → r.overRaised = false →
        exec (.overstay n) s = .next (s.keepOuter (((((s.fresh.modRgn n (fun r => { r with overRaised := true })).modTel n
            (fun t => { t with flags := t.flags ||| 1 })).fset (.RGN_STATUS n) RGN_STATUS.OVERSTAY 1).raise
          { code := 0x07, cls := 1, origin := 1, id := n, fstage := some (e + s.rgnH n), parts := (s.partOfRgn n).toList }).haltEnded n)))
    ∧ ((∀ e, r.s0 = some e → s.rgnRuns n = false ∨ s.stage ≤ e + s.rgnH n ∨ s.rgnDone n (e + s.rgnH n) = true ∨ r.overRaised = true) →
        exec (.overstay n) s = .next s.fresh))
  ∧ (∀ (s : State) (n w : Nat) (margin : Int),
    let t := s.rgnFinish n w margin
    let late := min (-margin).toNat (2 ^ 20 - 1)
    t.fget (.RGN_LATE n) RGN_LATE.LATE_NS = late
    ∧ (margin < 0 → t.fget (.RGN_LATE n) RGN_LATE.MAX_NS = max late (s.fget (.RGN_LATE n) RGN_LATE.MAX_NS)
        ∧ t.fget (.RGN_LATE n) RGN_LATE.STAGES = s.fget (.RGN_LATE n) RGN_LATE.STAGES ∧ (t.rgn n).s0 = (s.rgn n).s0)
    ∧ (0 ≤ margin → t.fget (.RGN_LATE n) RGN_LATE.STAGES = 0 ∧ (t.rgn n).s0 = none)
    ∧ (t.rgn n).finished = true ∧ (∀ k, k ≠ n → t.rgn k = s.rgn k) ∧ sameRegsBut [.RGN_LATE n] s t ∧ sameMemory s t)

/-- A rate window (R46, R47, R49, R56): whatever the rate controller chooses, the voltage moves by at most 50 mV, never out of the region's
limits or 600 to 850 mV, never up while the count of excess stages is above 0, and down by 25 mV while the count is 5 or more; a change is
counted and quiesces the region until the window closes. Nothing else of the machine changes. A rate window closes (R46, R48): a quiesced
region issues again, what waited for its banks is delivered, and the heads of its queues begin; otherwise nothing happens. What the controller chooses is a free value
(log entry 46). -/
def Obligations.RateWindow : Prop :=
  (∀ (s : State) (n : Rgn), s.alive = true →
    let v := s.fget (.RGN_RATE n) RGN_RATE.V_NOW
    let lo := max 600 (s.fget (.RGN_TARGET n) RGN_TARGET.VMIN)
    let hi := min 850 (s.fget (.RGN_TARGET n) RGN_TARGET.VMAX)
    let run := s.fget (.RGN_POWER n) RGN_POWER.EXCESS_RUN
    ∃ t, exec (.rateWindowOpen n) s = .next t ∧
      let v' := t.fget (.RGN_RATE n) RGN_RATE.V_NOW
      v' ≤ v + 50 ∧ v ≤ v' + 50 ∧ (lo ≤ v → v ≤ hi → lo ≤ v' ∧ v' ≤ hi) ∧ (0 < run → v' ≤ v)
      ∧ (s.windowNow n = true → s.stewardUp = true → 5 ≤ run → lo < v → v' = max lo (v - 25))
      ∧ (v' ≠ v → t.fget (.RGN_RATE n) RGN_RATE.CHANGES = (s.fget (.RGN_RATE n) RGN_RATE.CHANGES + 1) % 2 ^ 32 ∧ (t.rgn n).quiesce = true)
      ∧ ((s.windowNow n = false ∨ s.stewardUp = false) → t = s.fresh)
      ∧ sameRegsBut [.RGN_RATE n, .RGN_STATUS n] s t ∧ sameMemory s t ∧ t.tiles = s.tiles ∧ t.parts = s.parts ∧ t.adu = s.adu)
  ∧ (∀ (s : State) (n : Rgn), s.alive = true →
    ((s.rgn n).quiesce = true → exec (.rateWindowClose n) s = .next (s.keepOuter ((s.rgnTiles n).foldl (fun s g => (s.drainLanding g).drainTile g)
      (s.fresh.modRgn n (fun r => { r with quiesce := false })))))
    ∧ ((s.rgn n).quiesce = false → exec (.rateWindowClose n) s = .next s.fresh))

/-- Service crossings (R41, R42): a fill that leaves the range 2 to 14 sets the crossing's alarm bit and raises D2D, a device stop, and one
that moves outside the range or returns into it only moves FILL, MIN and MAX. A read by the owner resets MIN and MAX to FILL after it
returns them, and a read of RGN_LATE resets MAX_NS; a read by the other port resets nothing (R474). A read of FT_NOW_NS returns fabric
time, which runs at 1 + RATE × 2^-48 of the time base (R367), and latches its fraction for the port that reads (R386, R474); a 32-bit read
returns the half it addresses (R7); no read reaches past the next boundary. The measured fill is an operand (log entry 45). -/
def Obligations.CrossingsAndReads : Prop :=
  (∀ (s : State) (c : Xing) (f : Fill), s.alive = true →
    let inRange (x : Nat) : Prop := 2 ≤ x ∧ x ≤ 14
    let was := s.fget (.XING_FILL c) XING_FILL.FILL
    (¬ inRange f → inRange was → exec (.xingFillExcursion c f) s = .next (s.keepOuter
      (((s.fresh.setFill c f).setReg .XING_ALARM (s.reg .XING_ALARM ||| BitVec.ofNat 64 (2 ^ c.val))).deviceStop { code := 0x15 })))
    ∧ (¬ inRange f → ¬ inRange was → exec (.xingFillExcursion c f) s = .next (s.fresh.setFill c f))
    ∧ (inRange f → exec (.xingFillReturn c f) s = .next (s.fresh.setFill c f))
    ∧ (s.setFill c f).fget (.XING_FILL c) XING_FILL.FILL = f.val
    ∧ (s.setFill c f).fget (.XING_FILL c) XING_FILL.MIN = min f.val (s.fget (.XING_FILL c) XING_FILL.MIN)
    ∧ (s.setFill c f).fget (.XING_FILL c) XING_FILL.MAX = max f.val (s.fget (.XING_FILL c) XING_FILL.MAX)
    ∧ (∀ (p : HostPort) (z : Sz), ∃ t, exec (.xingFillRead p c z) s = .next t ∧ t.out = [.read p (readPart z (s.reg (.XING_FILL c)))] ∧ sameRegsBut [.XING_FILL c] s t
        ∧ t.fget (.XING_FILL c) XING_FILL.FILL = was
        ∧ (s.owner = some p.val → t.fget (.XING_FILL c) XING_FILL.MIN = was ∧ t.fget (.XING_FILL c) XING_FILL.MAX = was)
        ∧ (s.owner ≠ some p.val → t.regs = s.regs))
    ∧ (∀ (p : HostPort) (n : Rgn) (z : Sz), ∃ t, exec (.rgnLateRead p n z) s = .next t ∧ t.out = [.read p (readPart z (s.reg (.RGN_LATE n)))]
        ∧ sameRegsBut [.RGN_LATE n] s t ∧ t.fget (.RGN_LATE n) RGN_LATE.LATE_NS = s.fget (.RGN_LATE n) RGN_LATE.LATE_NS
        ∧ (s.owner = some p.val → t.fget (.RGN_LATE n) RGN_LATE.MAX_NS = 0) ∧ (s.owner ≠ some p.val → t.regs = s.regs)))
  ∧ (∀ (s : State) (p : HostPort) (x : TimeIn) (z : Sz), s.alive = true →
    let total := s.fabric + timeUnits x * s.gain
    (total < s.nextBoundary * 2 ^ 80 → ∃ t, exec (.ftNowNsRead p z x) s = .next t
      ∧ t.out = [.read p (readPart z (BitVec.ofNat 64 (total / 2 ^ 80)))]
      ∧ t.time.ns = BitVec.ofNat 64 (total / 2 ^ 80) ∧ (t.host p.val).frac = BitVec.ofNat 32 (total / 2 ^ 48)
      ∧ t.time.frac = BitVec.ofNat 32 (total / 2 ^ 48) ∧ t.time.base = s.time.base + timeUnits x
      ∧ (∀ q : HostPort, q ≠ p → t.host q.val = s.host q.val) ∧ sameRegsBut [.STG_STATUS, .OWN_STATUS] s t)
    ∧ (s.nextBoundary * 2 ^ 80 ≤ total → exec (.ftNowNsRead p z x) s = .next s.fresh))

/-! Fabric time. -/

/-- The loss and return of the two inputs (R70 to R72, R368, R381, R382): a lost FREF clears FREF_OK, and a sync input silent past its limit
clears SYNC_OK; either begins a holdover while TIME_SET is 1 and the input is one that counts. The return of FREF ends a holdover that no
lost sync input keeps. At the limit, REF_LOSS is raised against every partition, once in a holdover, whose length then stands in HOLD_US. The
moment of an event within a stage is the model's choice (log entry 31), what holds after the limit log entry 96, and events out of
their condition log entry 44. -/
def Obligations.ReferenceLoss : Prop :=
  ∀ s : State, s.alive = true →
    let set_ := s.flag .FT_STATUS FT_STATUS.TIME_SET
    (∃ t, exec .frefLoss s = .next t ∧ t.flag .STG_STATUS STG_STATUS.FREF_OK = false ∧ t.holdover = (s.holdover || set_)
      ∧ sameRegsBut [.STG_STATUS, .OWN_STATUS] s t)
    ∧ (∃ t, exec .frefReturn s = .next t ∧ t.flag .STG_STATUS STG_STATUS.FREF_OK = true
      ∧ t.holdover = (s.holdover && set_ && s.syncWatched) ∧ sameRegsBut [.STG_STATUS, .OWN_STATUS] s t)
    ∧ (∀ (x : TimeIn) (r : State), s.fresh.advance x = some r →
      let silent (since : Option Nat) : Prop := ∃ b, since = some b ∧ s.fget .FT_LIMITS FT_LIMITS.SYNC_TO_US * 1000 * 2 ^ 32 < r.time.base - b
      let due := s.holdover = true ∧ s.time.refLost = false
        ∧ ∃ b, s.time.holdFrom = some b ∧ s.fget .HOLD_LIMIT HOLD_LIMIT.LIMIT_US * 1000 * 2 ^ 32 ≤ r.time.base - b
      (∃ t, exec (.syncTimeout x) s = .next t
        ∧ (t.flag .STG_STATUS STG_STATUS.SYNC_OK = true ↔ s.flag .STG_STATUS STG_STATUS.SYNC_OK = true ∧ ¬ silent s.time.sampleAt)
        ∧ (t.holdover = true ↔ s.holdover = true ∨ (s.syncWatched = true ∧ silent s.time.countAt)) ∧ sameRegsBut [.STG_STATUS, .OWN_STATUS] s t)
      ∧ (¬ due → exec (.holdoverLimitExpire x) s = .next (s.keepOuter r))
      ∧ (due → ∃ t, exec (.holdoverLimitExpire x) s = .next (s.keepOuter (t.raise { code := 0x0C, cls := 1, parts := List.range 8 }))
        ∧ t.time = { r.time with refLost := true } ∧ t.flag .STG_STATUS STG_STATUS.REF_LOSS = true
        ∧ t.fget .STG_STATUS STG_STATUS.HOLD_US = s.fget .HOLD_LIMIT HOLD_LIMIT.LIMIT_US % 2 ^ STG_STATUS.HOLD_US.len
        ∧ sameRegsBut [.STG_STATUS, .OWN_STATUS] s t ∧ sameMemory s t))

/-- Writes that steer fabric time (R374 to R377, R379, R382) by the owner or the Steward. A step is taken only while TIME_SET is 0, and sets
it; while it is 1 the write is discarded, sets STEP_REJ and TIME_JUMP and raises TIME_JUMP as a flag. RESET_TIME clears TIME_SET only with
no plan loaded. A rate is refused in holdover or beyond the greatest adjustment, and otherwise selects HOST mode; the watchdog gives it
back to the servo, which starts from the rate in force. The clause on holdover at TIME_SET is deduced (log entry 56). -/
def Obligations.SteeringWrites : Prop :=
  ∀ (s : State) (a : Acc), s.alive = true → s.mayWrite a.by_ = true →
    (∀ (x : TimeIn) (r : State), s.fresh.advance x = some r →
      (s.flag .FT_STATUS FT_STATUS.TIME_SET = false → ∃ t, exec (.ftStepWrite a x) s = .next t
        ∧ t.time.ns = r.time.ns + Reg.FT_STEP.info.write (s.reg .FT_STEP) a ∧ t.flag .FT_STATUS FT_STATUS.TIME_SET = true
        ∧ t.holdover = (s.holdover || !s.flag .STG_STATUS STG_STATUS.FREF_OK))
      ∧ (s.flag .FT_STATUS FT_STATUS.TIME_SET = true → exec (.ftStepWrite a x) s = .next (s.keepOuter
          (((r.fset .FT_STATUS FT_STATUS.STEP_REJ 1).fset .FT_STATUS FT_STATUS.TIME_JUMP 1).raise { code := 0x0D, cls := 0 })))
      ∧ (FT_CTRL.RESET_TIME.get (Reg.FT_CTRL.info.write (s.reg .FT_CTRL) a) = 0 → ∃ t, exec (.clientEnable a x) s = .next t
          ∧ t.reg .FT_CTRL = Reg.FT_CTRL.info.write (s.reg .FT_CTRL) a
          ∧ (t.flag .FT_CTRL FT_CTRL.CLIENT_EN = false → t.flag .STG_STATUS STG_STATUS.SYNC_OK = false ∧ t.time.ex = {})
          ∧ (s.flag .FT_CTRL FT_CTRL.CLIENT_EN = false → t.flag .FT_CTRL FT_CTRL.CLIENT_EN = true → t.time.countAt = some r.time.base)
          ∧ sameRegsBut [.FT_CTRL, .FT_STATUS, .STG_STATUS, .OWN_STATUS] s t)
      ∧ (let v := Reg.FT_RATE.info.write (s.reg .FT_RATE) a
         let q := toInt 40 (FT_RATE.RATE.get v)
         exec (.ftRateWrite a x) s = .next (s.keepOuter (if s.holdover = true ∨ q < -rateMax ∨ rateMax < q then r.fset .FT_STATUS FT_STATUS.RATE_REJ 1
           else (({ r with time := { r.time with wdFrom := r.time.base } } : State).setReg .FT_RATE v).fset .FT_STATUS FT_STATUS.MODE 0)))
      ∧ (let due := s.flag .FT_STATUS FT_STATUS.MODE = false
           ∧ s.fget .FT_LIMITS FT_LIMITS.WDOG_MS * 1000000 * 2 ^ 32 ≤ r.time.base - s.time.wdFrom
         (due → ∃ t, exec (.steeringWatchdogExpire x) s = .next t ∧ t.flag .FT_STATUS FT_STATUS.MODE = true
           ∧ t.flag .FT_STATUS FT_STATUS.SERVO_TAKE = true ∧ t.time.iTerm = s.rate ∧ t.reg .FT_RATE = s.reg .FT_RATE)
         ∧ (¬ due → exec (.steeringWatchdogExpire x) s = .next (s.keepOuter r))))
    ∧ (FT_CTRL.RESET_TIME.get (Reg.FT_CTRL.info.write (s.reg .FT_CTRL) a) = 1 → s.loadedParts ≠ [] →
        exec (.resetTime a) s = .next (s.keepOuter (s.fresh.passSome.fset .FT_STATUS FT_STATUS.STEP_REJ 1)))
    ∧ (FT_CTRL.RESET_TIME.get (Reg.FT_CTRL.info.write (s.reg .FT_CTRL) a) = 1 → s.loadedParts = [] → ∃ t, exec (.resetTime a) s = .next t
        ∧ t.flag .FT_STATUS FT_STATUS.TIME_SET = false ∧ t.holdover = false ∧ t.flag .FT_CTRL FT_CTRL.RESET_TIME = false)

/-- The messages of the two-way exchange (R369 to R373), each a time packet taken off a port whose link is UP: it is counted, and only a message
of the master, with the client on this port, reaches the exchange. A Sync gives t2, the timestamp of its arrival less INGRESS_PS, and t1
when it is one-step; a Follow_Up of that Sync gives t1; a Delay_Resp to the Delay_Req sent gives t4, before or after the Follow_Up; an
Announce, and a message that is discarded, only counts. A Delay_Req that is sent waits as a time packet for its SERVICE slot, whose start
is its timestamp: it joins the queue of 64, or sets TXQ_OVF there, and then its exchange yields no sample (R372). An exchange with its four
times gives one offset sample (R373, R380): beyond JUMP_NS it is refused, counted, sets TIME_JUMP and raises TIME_JUMP as a flag, and
FT_RATE stays; within it, SYNC_OK is set, and in SERVO mode outside holdover the servo runs, after a watchdog that is due (R379). `d` is
twice the offset and `w` twice the path delay. The layout of the messages is presumed (log entry 98), and that a Sync begins an exchange
is log entry 51. -/
def Obligations.TimeMessages : Prop :=
  (∀ (s : State) (p : Port) (k : Packet) (m : PtpMsg), s.alive = true → s.lstate p = lUP → isTime k = true → ptpOf k.payload = some m →
    let taken (r : State) : State := (r.takeInbound p (pktBytes k)).fadd (.TS_COUNT p) TS_COUNT.RX 1
    (m.kind = 11 → exec (.announceMessage p k) s = .next (taken s.fresh))
    ∧ (m.kind ∉ [0, 8, 9, 11] → m.kind < 16 → exec (.ptpDiscardedMessage p k) s = .next (taken s.fresh))
    ∧ (∀ (x : TimeIn) (r : State), s.fresh.advance x = some r →
      let heard := (taken r).clientOn p && (taken r).fromMaster m
      let ex := s.time.ex
      (m.kind = 0 → heard = false → exec (.syncMessage p k x) s = .next (s.keepOuter (taken r)))
      ∧ (m.kind = 0 → heard = true → ∃ (t : State) (ts : Int), exec (.syncMessage p k x) s = .next t
          ∧ ts * 2 ^ 64 < r.fabric + 2 ^ 64 ∧ (r.fabric : Int) < (ts + 1) * 2 ^ 64
          ∧ t.time = { r.time with ex :=
              { syncSeq := some m.seqId, t1 := if m.twoStep then none else some ((m.time + m.correction) * 1000)
                t2 := some (ts * 1000 - (s.fget (.TS_CORR p) TS_CORR.INGRESS_PS : Int) * 65536), syncCorr := m.correction } }
          ∧ t.regs = (taken r).regs)
      ∧ (m.kind = 8 → exec (.followUpMessage p k x) s = .next (s.keepOuter
          (if heard = true ∧ ex.syncSeq = some m.seqId ∧ ex.t1 = none then
            ((taken r).putEx { ex with t1 := some ((m.time + m.correction + ex.syncCorr) * 1000) }).exchange p else taken r)))
      ∧ (m.kind = 9 → exec (.delayRespMessage p k x) s = .next (s.keepOuter
          (if heard = true ∧ ex.reqSeq = some m.seqId then
            ((taken r).putEx { ex with t4 := some ((m.time - m.correction) * 1000) }).exchange p else taken r)))))
  ∧ (∀ (s : State) (p : Port) (id : BitVec 16), s.alive = true →
    (s.clientOn p = true → ∃ t, exec (.delayReqSend p id) s = .next t ∧ t.time.ex = { s.time.ex with reqSeq := some id, t4 := none, dropped := false }
      ∧ (∃ q, (t.port p.val).txService = (s.port p.val).txService ++ q ∧ q ≠ [] ∧ ∀ x ∈ q, x.time = some id) ∧ t.regs = s.regs)
    ∧ (s.clientOn p = false → exec (.delayReqSend p id) s = .next s.fresh))
  ∧ (∀ (s : State) (p : Port) (slot : Nat) (id : BitVec 16),
    let t := s.stampTx p slot id
    let start := s.slotPs slot * 65536
    t.fget (.TS_COUNT p) TS_COUNT.TX = (s.fget (.TS_COUNT p) TS_COUNT.TX + 1) % 2 ^ TS_COUNT.TX.len
    ∧ ((s.port p.val).tsq.length < 64 → ∃ ts : Int, (t.port p.val).tsq = (s.port p.val).tsq ++ [(id, ts)] ∧ t.time = s.time
        ∧ ts * 1000 < start + 1000 ∧ start < (ts + 1) * 1000)
    ∧ (64 ≤ (s.port p.val).tsq.length → (t.port p.val).tsq = (s.port p.val).tsq ∧ t.flag (.TS_TXQ_META p) TS_TXQ_META.TXQ_OVF = true
        ∧ (s.time.ex.reqSeq = some id → t.time.ex.dropped = true)))
  ∧ (∀ (s : State) (p : Port),
    let x := s.time.ex
    ((x.t1 = none ∨ x.t2 = none ∨ x.t4 = none ∨ x.reqSeq = none) → s.exchange p = s)
    ∧ (∀ t1 t2 t4 id, x.t1 = some t1 → x.t2 = some t2 → x.t4 = some t4 → x.reqSeq = some id →
      (x.dropped = true → s.exchange p = s.putEx {})
      ∧ (x.dropped = false → (∀ e ∈ (s.port p.val).tsq, e.1 ≠ id) → s.exchange p = s)
      ∧ (∀ tx, x.dropped = false → (s.port p.val).tsq = [(id, tx)] → ∃ u : State, (u.port p.val).tsq = [] ∧ u.time = { s.time with ex := {} }
          ∧ sameRegsBut [.TS_TXQ_META p, .TS_TXQ_NS p] s u
          ∧ (let t43 := t4 - (tx * 1000 + (s.fget (.TS_CORR p) TS_CORR.EGRESS_PS : Int) * 65536)
             s.exchange p = u.sample ((t2 - t1) - t43) ((t2 - t1) + t43)))))
  ∧ (∀ (s : State) (d w : Int),
    let t := s.sample d w
    let u := s.watchdog
    ((s.fget .FT_LIMITS FT_LIMITS.JUMP_NS : Int) * 131072000 < Int.natAbs d → t.flag .FT_STATUS FT_STATUS.TIME_JUMP = true
      ∧ t.fget .FT_STATUS FT_STATUS.REFUSED_COUNT = (s.fget .FT_STATUS FT_STATUS.REFUSED_COUNT + 1) % 2 ^ FT_STATUS.REFUSED_COUNT.len
      ∧ t.reg .FT_RATE = s.reg .FT_RATE ∧ t.flag .FT_SAMPLE FT_SAMPLE.REFUSED = true
      ∧ t.time.iTerm = u.time.iTerm ∧ t.reg .STG_STATUS = s.reg .STG_STATUS
      ∧ (let i := (s.reg .FLT_LOG_IDX).toNat % 256
         t.fget (.FLT_LOG i 0) FLT_LOG.CODE = 0x0D ∧ t.fget (.FLT_LOG i 0) FLT_LOG.CLASS = 0))
    ∧ ((Int.natAbs d : Int) ≤ (s.fget .FT_LIMITS FT_LIMITS.JUMP_NS : Int) * 131072000 → t.flag .STG_STATUS STG_STATUS.SYNC_OK = true
      ∧ t.flag .FT_SAMPLE FT_SAMPLE.REFUSED = false
      ∧ (s.flag .STG_STATUS STG_STATUS.FREF_OK = true → t.holdover = false)
      ∧ t.time.sampleAt = some s.time.base
      ∧ (u.flag .FT_STATUS FT_STATUS.MODE = false → t.reg .FT_RATE = s.reg .FT_RATE)
      ∧ (∀ ns : Int, d = ns * 131072000 → u.flag .FT_STATUS FT_STATUS.MODE = true → s.flag .STG_STATUS STG_STATUS.FREF_OK = true →
          let i := clampInt (-rateMax) rateMax (u.time.iTerm - (s.fget .FT_SERVO FT_SERVO.KI : Int) * ns)
          t.time.iTerm = i ∧ t.rate = clampInt (-rateMax) rateMax (i - (s.fget .FT_SERVO FT_SERVO.KP : Int) * ns))))

/-! Banks and LPDDR5X. -/

/-- The checks of an access to a bank, in order (R77 to R79, R84, R87): view 0b11 is DECODE even for no byte; no byte makes no access; an
address or extent outside a present bank, and a released retired patch, is BOUNDS; the owner proceeds; the pending owner waits; any other
agent is refused with OWNER, but for a remote access to a bank under scan from REMOTE, which waits (R102). That an access of no byte
passes the other checks is the model's reading (log entry 18). -/
def Obligations.AccessChecks : Prop :=
  ∀ (s : State) (g agent a n : Nat),
    let k := laBank a
    let owner := s.fget (.BANK_OWN g k) BANK_OWN.OWNER
    let pending := s.flag (.BANK_OWN g k) BANK_OWN.PEND = true ∧ s.fget (.BANK_OWN g k) BANK_OWN.PEND_TO = agent
    let outside := 2 ^ 29 ≤ a ∨ 72 ≤ k ∨ bankSize k < laOff a + n ∨ s.touchesRetired g k (laOff a) n = true
    (laView a = 3 → s.accCheck g agent a n = .refused 0x04)
    ∧ (laView a ≠ 3 → n = 0 → s.accCheck g agent a n = .ok)
    ∧ (laView a ≠ 3 → n ≠ 0 → outside → s.accCheck g agent a n = .refused 0x02)
    ∧ (laView a ≠ 3 → n ≠ 0 → ¬ outside → owner = agent → s.accCheck g agent a n = .ok)
    ∧ (laView a ≠ 3 → n ≠ 0 → ¬ outside → owner ≠ agent → pending → s.accCheck g agent a n = .wait)
    ∧ (laView a ≠ 3 → n ≠ 0 → ¬ outside → owner ≠ agent → ¬ pending → (s.tile g).scan = none → s.accCheck g agent a n = .refused 0x01)
    ∧ (∀ c, laView a ≠ 3 → n ≠ 0 → ¬ outside → owner ≠ agent → ¬ pending → (s.tile g).scan = some c →
        s.accCheck g agent a n = if agent = 7 ∧ c.bank = k ∧ c.old = 7 then .wait else .refused 0x01)

/-- BANK_ACCESS (R48, R77 to R80, R84, R87, R93): a refused access marks its event, raises its fault when an agent of the tile makes it, and
moves no byte; one that must wait moves none, and is kept, a remote one in the landing buffer, as is one at a bank of a quiesced region; a read of words without error returns the bytes there and changes nothing else; a write of words
without error writes each byte under its view, and no other byte of any memory. Errors in the words of a bank (R97): a read of one
single-bit error corrects and counts it, and of one uncorrectable word sets UE and raises SRAM_UE, charged to the agent that reads; a
write that covers a whole word makes it good. The bytes that an ended access leaves open are log entry 48; upsets come as operands (log
entry 75). -/
def Obligations.BankAccess : Prop :=
  (∀ (s : State) (g : Gt) (ag : Agent) (a : BitVec 32), s.alive = true → s.tilePresent g = true →
    let k := laBank a.toNat
    let key := sramKey g k (laOff a.toNat)
    (∀ op c, s.accCheck g ag.toNat a.toNat (match op with | .read n => n | .write d => d.length) = .refused c →
        exec (.bankAccess g ⟨ag, a, op, []⟩) s = .next (s.fresh.refuseAccess g ag.toNat c))
    ∧ (∀ op, s.accCheck g ag.toNat a.toNat (match op with | .read n => n | .write d => d.length) = .wait →
        exec (.bankAccess g ⟨ag, a, op, []⟩) s = .next (s.fresh.holdAccess g ⟨ag, a, op, []⟩))
    ∧ (∀ op, ag = 7 → (s.rgn (g / 8)).quiesce = true → (match op with | .read n => n | .write d => d.length) ≠ 0 →
        s.accCheck g 7 a.toNat (match op with | .read n => n | .write d => d.length) = .ok →
        exec (.bankAccess g ⟨ag, a, op, []⟩) s = .next (s.fresh.holdAccess g ⟨ag, a, op, []⟩))
    ∧ (∀ op, ∃ t, s.fresh.holdAccess g ⟨ag, a, op, []⟩ = { s.fresh with tiles := t }
        ∧ (ag ≠ 7 → ((s.holdAccess g ⟨ag, a, op, []⟩).tile g).held = (s.tile g).held ++ [⟨ag, a, op, []⟩])
        ∧ (ag = 7 → ∃ it, ((s.holdAccess g ⟨ag, a, op, []⟩).tile g).landing = (s.tile g).landing ++ [it] ∧ it.bank = k ∧ it.off = laOff a.toNat
            ∧ it.data = (match op with | .read _ => [] | .write d => d) ∧ it.readLen = (match op with | .read n => n | .write _ => 0)))
    ∧ (∀ n, (ag = 7 → (s.rgn (g / 8)).quiesce = false) → s.accCheck g ag.toNat a.toNat n = .ok → badIn s.sramBad key n = [] →
        exec (.bankAccess g ⟨ag, a, .read n, []⟩) s = .next (s.fresh.emit (.readData ag (memRead s.sram key n))))
    ∧ (∀ d, (ag = 7 → (s.rgn (g / 8)).quiesce = false) → s.accCheck g ag.toNat a.toNat d.length = .ok → s.sramBad = [] → s.lockOn = false →
        ∃ t, exec (.bankAccess g ⟨ag, a, .write d, []⟩) s = .next t ∧ t = { s.fresh with sram := t.sram }
          ∧ (∀ i, i < d.length → memByte t.sram (key + i) = viewByte (laView a.toNat) (memByte s.sram (key + i)) (d.getD i 0))
          ∧ (∀ b, (b < key ∨ key + d.length ≤ b) → memByte t.sram b = memByte s.sram b))
    ∧ (∀ op u l, exec (.bankAccess g ⟨ag, a, op, u :: l⟩) s = exec (.bankAccess g ⟨ag, a, op, l⟩) (s.upset g k u)))
  ∧ (∀ (s : State) (g : Nat) (who : Who) (key n w : Nat),
    (badIn s.sramBad key n = [] → s.eccRead g key n who = s)
    ∧ (badIn s.sramBad key n = [(w, 1)] → (s.eccRead g key n who).fget (.SRAM_ECC g) SRAM_ECC.CE_COUNT
          = (s.fget (.SRAM_ECC g) SRAM_ECC.CE_COUNT + 1) % 2 ^ 32 ∧ sameRegsBut [.SRAM_ECC g] s (s.eccRead g key n who)
          ∧ sameMemory s (s.eccRead g key n who))
    ∧ (badIn s.sramBad key n = [(w, 2)] → s.eccRead g key n who = s.sramUe g w who)
    ∧ (∀ k off data, key = sramKey g k off → data.length % 8 = 0 → off % 8 = 0 → badIn s.sramBad key data.length = [(w, 2)] →
        s.lockOn = false → tget 0 (s.bankWrite g k off 0 data who).sramBad w = 0 ∧ (s.bankWrite g k off 0 data who).regs = s.regs))

/-- HANDOVER and SCAN at a sequencer that can execute (R84, R90, R230, R251 to R253): a common field is DECODE; a refused one raises its fault
with the issue stage, raises its tally by 1 and moves no bank; a HANDOVER to the same agent only raises its tally; from an agent with a
queue the bank enters PENDING and the effect waits in that queue; with no room, and for a SCAN from SEQ while a scan of the tile runs (R104),
the sequencer stalls. What refuses a HANDOVER
or SCAN at enqueue (R84, R90, R252, R253): a bank that is not present, then a code that is no agent's, then a bank that is PENDING or
whose owner is not FROM. The enqueue of HANDOVER and SCAN is deduced (log entry 27), the wait for the scanner log entry 82. -/
def Obligations.HandoverAndScanCommands : Prop :=
  (∀ (s : State) (g : Gt) (bank : BitVec 7) (frm towards : Agent) (tally : TallyIx) (e : BitVec 32) (len : CmdLen), s.alive = true → s.seqReady g = true →
    let u := s.fresh
    let ho (scan : Bool) : PendHo := { bank := bank.toNat, frm := frm, towards := if scan then 8 else towards, tally := tally, e := e, scan := scan, stage := (s.tile g).issue }
    let cmd (scan common : Bool) : Instr := if scan then .scanOp g ⟨bank, frm, tally, e, common, len⟩ else .handover g ⟨bank, frm, towards, tally, e, common, len⟩
    ∀ scan : Bool,
      exec (cmd scan true) s = .next (s.keepOuter ((u.seqRefuse g 0x04).seqNext g len.toNat))
      ∧ (∀ c, s.hoRefusal g bank.toNat frm.toNat (ho scan).towards.toNat scan = some c →
          exec (cmd scan false) s = .next (s.keepOuter (((u.seqRefuse g c).raiseTally g tally 1).seqNext g len.toNat)))
      ∧ (s.hoRefusal g bank.toNat frm.toNat (ho scan).towards.toNat scan = none →
          (frm = (ho scan).towards → exec (cmd scan false) s = .next ((u.raiseTally g tally 1).seqNext g len.toNat))
          ∧ (frm ≠ (ho scan).towards → frm = 0 → scan = true → (s.tile g).scan ≠ none → exec (cmd scan false) s = .next (u.stall g 5))
          ∧ (frm ≠ (ho scan).towards → frm = 0 → (scan = false ∨ (s.tile g).scan = none) → exec (cmd scan false) s = .next (s.keepOuter (((u.pendEffect g (ho scan)).drainLanding g).seqNext g len.toNat)))
          ∧ (frm ≠ (ho scan).towards → 1 ≤ frm.toNat → frm.toNat ≤ 6 → s.queueRoom g frm.toNat = false → exec (cmd scan false) s = .next (u.stall g 1))
          ∧ (frm ≠ (ho scan).towards → 1 ≤ frm.toNat → frm.toNat ≤ 6 → s.queueRoom g frm.toNat = true → exec (cmd scan false) s
              = .next (s.keepOuter ((u.enterPending g (ho scan)).enqueue g frm.toNat (s.plainItem g (if scan then .scan bank.toNat else .handover bank.toNat)) len.toNat)))
          ∧ (frm ≠ (ho scan).towards → frm = 7 → exec (cmd scan false) s
              = .next (s.keepOuter ((((u.enterPending g (ho scan)).remoteEffects g bank.toNat).drainLanding g).seqNext g len.toNat)))))
  ∧ (∀ (s : State) (g bank frm towards : Nat) (scan : Bool),
    s.hoRefusal g bank frm towards scan =
      if 72 ≤ bank then some 0x02
      else if 8 ≤ frm ∨ (scan = false ∧ 8 ≤ towards) then some 0x04
      else if s.flag (.BANK_OWN g bank) BANK_OWN.PEND = true ∨ s.fget (.BANK_OWN g bank) BANK_OWN.OWNER ≠ frm then some 0x01
      else none)

/-- HANDOVER_EFFECT and SCAN_START (R86, R101): a pending handover or scan whose entry stands at the head of its agent's queue, with its gate
open, takes effect, a scan only while no other scan of the tile runs (R104); with nothing pending for the bank nothing happens. The effect point of a handover (R86): the bank has its new owner
and is no longer PENDING, the count of remote writes starts from 0 when REMOTE takes it, and the tally rises by 1. Nothing else of the
module changes, where no access waits at the bank. An event out of its condition changes nothing by log entry 44, the wait for the scanner
is log entry 82. -/
def Obligations.EffectPoints : Prop :=
  (∀ (s : State) (g : Gt) (k : Bank) (scan : Bool), s.alive = true →
    let row : Instr := if scan then .scanStart g k else .handoverEffect g k
    ((s.tile g).pend.find? (fun h => h.bank = k.val ∧ h.scan = scan) = none → exec row s = .next s.fresh)
    ∧ (∀ h, (s.tile g).pend.find? (fun h => h.bank = k.val ∧ h.scan = scan) = some h → h.frm ≠ 7 → s.atHead g h = true →
        (scan = true → (s.tile g).scan = none) → exec row s = .next (s.keepOuter ((((s.fresh.putQueue g h.frm.toNat ((s.queue g h.frm.toNat).drop 1)).pendEffect g h).drainLanding g).drain g h.frm.toNat)))
    ∧ (∀ h, (s.tile g).pend.find? (fun h => h.bank = k.val ∧ h.scan = scan) = some h → h.frm = 7 →
        exec row s = .next (s.keepOuter ((s.fresh.remoteEffects g k).drainLanding g)))
    ∧ (∀ h, (s.tile g).pend.find? (fun h => h.bank = k.val ∧ h.scan = scan) = some h → h.frm ≠ 7 →
        (s.atHead g h = false ∨ (scan = true ∧ (s.tile g).scan ≠ none)) → exec row s = .next s.fresh))
  ∧ (∀ (s : State) (g : Nat) (h : PendHo), h.bank < 72 → (∀ a ∈ (s.tile g).held, laBank a.addr.toNat ≠ h.bank) →
    let t := s.handoverEffect g h
    t.fget (.BANK_OWN g h.bank) BANK_OWN.OWNER = h.towards.toNat ∧ t.flag (.BANK_OWN g h.bank) BANK_OWN.PEND = false
    ∧ t.fget (.BANK_OWN g h.bank) BANK_OWN.RCOUNT = (if h.towards = 7 then 0 else s.fget (.BANK_OWN g h.bank) BANK_OWN.RCOUNT)
    ∧ t.fget (.TALLY g h.tally) TALLY.VALUE = (s.fget (.TALLY g h.tally) TALLY.VALUE + 1) % 2 ^ 32
    ∧ (∀ e ∈ (t.tile g).pend, e.bank ≠ h.bank) ∧ sameRegsBut [.BANK_OWN g h.bank, .TALLY g h.tally] s t ∧ sameMemory s t)

/-- SCAN_END (R101, R105, R106): the scan ends, counted, with its bank and patch recorded, the bank returns to the owner before the scan and
the SCAN's tally rises by 1; a failing patch takes the working spare in a free PATCH_MAP entry and sets RETIRE. What waited for the bank
then lands. With no scan in progress none of this happens; scans from REMOTE that waited for the scanner begin after it (log entry 82). The
scan's findings come as operands (log entry 45), and a patch number out of
range is log entry 49. -/
def Obligations.ScanEnd : Prop :=
  ∀ (s : State) (g : Gt) (failing : Bool), s.alive = true →
    let t := s.scanEnd g failing
    exec (.scanEnd g ⟨failing⟩) s = .next (s.keepOuter ((s.fresh.scanEnd g failing).drainLanding g))
    ∧ ((s.tile g).scan = none → t = s)
    ∧ (∀ c, (s.tile g).scan = some c → (∀ h ∈ (s.tile g).pend, h.scan = true → h.frm ≠ 7) → c.bank < 72 → c.patch < 256 → (t.tile g).scan = none
        ∧ t.fget (.BANK_OWN g c.bank) BANK_OWN.OWNER = c.old.toNat ∧ t.flag (.SCAN_STATUS g) SCAN_STATUS.ACTIVE = false
        ∧ t.fget (.SCAN_STATUS g) SCAN_STATUS.LAST_BANK = c.bank ∧ t.fget (.SCAN_STATUS g) SCAN_STATUS.LAST_PATCH = c.patch
        ∧ t.fget (.SCAN_STATUS g) SCAN_STATUS.SCANS = (s.fget (.SCAN_STATUS g) SCAN_STATUS.SCANS + 1) % 2 ^ 32
        ∧ t.fget (.TALLY g c.tally) TALLY.VALUE = (s.fget (.TALLY g c.tally) TALLY.VALUE + 1) % 2 ^ 32
        ∧ t.sram = s.sram ∧ t.dram = s.dram
        ∧ (∀ e, failing = true → s.freeEntry g = some e → c.spare < 4 → t.flag (.PATCH_MAP g e) PATCH_MAP.VALID = true
            ∧ t.flag (.PATCH_MAP g e) PATCH_MAP.RETIRED = false ∧ t.fget (.PATCH_MAP g e) PATCH_MAP.BANK = c.bank
            ∧ t.fget (.PATCH_MAP g e) PATCH_MAP.PATCH = c.patch ∧ t.fget (.PATCH_MAP g e) PATCH_MAP.SPARE = c.spare
            ∧ t.flag (.BANK_EVENT g) BANK_EVENT.RETIRE = true)
        ∧ (failing = false → ∀ e, e < 16 → t.reg (.PATCH_MAP g e) = s.reg (.PATCH_MAP g e)))

/-- LPDDR_REQUEST (R112, R114 to R116): a read of words without error returns the bytes there; a write changes exactly the bytes it covers.
Each leaves open the rows of its blocks, and neither touches a register, a bank or another unit. A read of a single-bit error counts it, and
so does the I/O die what link ECC corrects on the bus (R115); a request that would span two I/O dies is none. Errors come as operands (log entry 75), and the bytes of an access in error are log entry 48. -/
def Obligations.Lpddr5xRequests : Prop :=
  ∀ (s : State) (by_ : Requester) (off : BitVec 40), s.alive = true →
    let one (n : Nat) : Prop := off.toNat + n ≤ dramSize ∧ (n = 0 ∨ dramIod off.toNat = dramIod (off.toNat + n - 1))
    (∀ n, one n → badIn s.dramBad off.toNat n = [] → ∃ t, exec (.lpddrRequest ⟨by_, off, .read n, [], 0⟩) s = .next t
      ∧ t.out = [.readData 0xF (memRead s.dram off.toNat n)] ∧ t = { s.fresh with rows := t.rows, out := t.out })
    ∧ (∀ d, one d.length → s.dramBad = [] → s.lockOn = false → ∃ t, exec (.lpddrRequest ⟨by_, off, .write d, [], 0⟩) s = .next t
      ∧ t = { s.fresh with dram := t.dram, rows := t.rows } ∧ (∀ i, i < d.length → memByte t.dram (off.toNat + i) = d.getD i 0)
      ∧ (∀ b, (b < off.toNat ∨ off.toNat + d.length ≤ b) → memByte t.dram b = memByte s.dram b)
      ∧ (d ≠ [] → d.length ≤ 512 - off.toNat % 512 → tget 0 t.rows (dramRowKey off.toNat) = dramRow off.toNat))
    ∧ (∀ n w, one n → badIn s.dramBad off.toNat n = [(w, 1)] → ∃ t, exec (.lpddrRequest ⟨by_, off, .read n, [], 0⟩) s = .next t
      ∧ t.fget (.DR_ECC (dramIod (w * 8))) DR_ECC.CE_COUNT = (s.fget (.DR_ECC (dramIod (w * 8))) DR_ECC.CE_COUNT + 1) % 2 ^ 32)
    ∧ (∀ n k, one n → badIn s.dramBad off.toNat n = [] → 0 < k → ∃ t, exec (.lpddrRequest ⟨by_, off, .read n, [], k⟩) s = .next t
      ∧ t.fget (.DR_ECC (dramIod off.toNat)) DR_ECC.LINK_CE
          = (s.fget (.DR_ECC (dramIod off.toNat)) DR_ECC.LINK_CE + k) % 2 ^ DR_ECC.LINK_CE.len
      ∧ t.out = [.readData 0xF (memRead s.dram off.toNat n)] ∧ sameRegsBut [.DR_ECC (dramIod off.toNat)] s t ∧ sameMemory s t)
    ∧ (∀ op k, ¬ one (match op with | .read n => n | .write d => d.length) → exec (.lpddrRequest ⟨by_, off, op, [], k⟩) s = .next s.fresh)

/-- Refresh (R117 to R122): every interval raises the debt of each of the sixteen sets of the I/O die by 1, and a set whose debt would pass 8
is refreshed at once and counted instead; a planned window lowers its set's debt by 1 and is counted, and stays idle at −8 or without a
plan's window; RATE follows the worst of the nine readings and WORST_PKG its controller, and a passage out of the operating range raises THERMAL against every
partition (R123). The debt at its bounds is deduced (log entry 77), the origin of THERMAL log entry 52. -/
def Obligations.Refresh : Prop :=
  ∀ (s : State) (i : Iod) (k : RefBank), s.alive = true → (∀ j, j < 16 → -8 ≤ s.debt i j ∧ s.debt i j ≤ 8) →
    (s.flag (.DR_STATUS i) DR_STATUS.ZEROED = true → ∃ t, exec (.refreshInterval i) s = .next t ∧ (∀ j, j < 16 → t.debt i j = min 8 (s.debt i j + 1))
      ∧ t.fget (.DR_FORCED i) DR_FORCED.COUNT
          = (s.fget (.DR_FORCED i) DR_FORCED.COUNT + ((List.range 16).filter (fun j => s.debt i j = 8)).length) % 2 ^ 32)
    ∧ (s.flag (.DR_STATUS i) DR_STATUS.ZEROED = false → exec (.refreshInterval i) s = .next s.fresh)
    ∧ (s.windowPlanned i k = true → s.debt i k ≠ -8 → ∃ t, exec (.refreshWindow i k) s = .next t ∧ t.debt i k = s.debt i k - 1
      ∧ t.fget (.DR_DEBT i k) DR_DEBT.WINDOWS = (s.fget (.DR_DEBT i k) DR_DEBT.WINDOWS + 1) % 2 ^ 32 ∧ sameRegsBut [.DR_DEBT i k] s t)
    ∧ ((s.windowPlanned i k = false ∨ s.debt i k = -8) → exec (.refreshWindow i k) s = .next s.fresh)
    ∧ (∀ r : Mr4Result, let worst := r.readings.foldl (fun a b => max a b.toNat) 0
        ∃ pkg, (r.readings.getD pkg 0).toNat = worst ∧ ((r.readings.getD r.pkg 0).toNat = worst → pkg = r.pkg) ∧
        let u := (s.fresh.fset (.DR_STATUS i) DR_STATUS.RATE worst).fset (.DR_STATUS i) DR_STATUS.WORST_PKG pkg
        exec (.mr4Read i r) s = .next (if worst = 3 ∧ s.fget (.DR_STATUS i) DR_STATUS.RATE ≠ 3
          then u.raise { code := 0x0F, cls := 1, origin := 3, id := 8 + i, parts := List.range 8 } else u))

/-! The tile sequencer. -/

/-- SEQ_INSTRUCTION (R220 to R222, R224, R227, R230): an RV32IMC instruction at the program counter writes its register and goes on, jumps, or
stops the sequencer when it is undefined or its address lies outside IMEM; an engine command enters its queue with the issue stage, or
stalls the sequencer while the queue is full; an undefined command stops it with DECODE, and a SIGNAL or FENCE with a common field is refused
with DECODE (R230). How a sequencer goes on (R222, R227, R257): past
a command the program counter rises by its bytes and a stall has ended; a stall leaves the program counter and shows its cause; an
exception stops the sequencer at its instruction and raises its fault with the stage in progress (R519). The form of the stream is the
operand's (log entry 8), RV32IMC is presumed (log entry 25), and stalls are deduced (log entry 26). -/
def Obligations.SequencerInstruction : Prop :=
  (∀ (s : State) (g : Gt), s.alive = true → s.seqReady g = true →
    let pc := s.pc g
    let o := pc.toNat - 0x80000000
    let n := s.rvLen g
    let w := memNat (s.tile g).imem o n
    let out := if n = 4 then rv32 w pc (s.xreg g) else rv16 w pc (s.xreg g)
    let fits := 0x80000000 ≤ pc.toNat ∧ o + n ≤ 0x10000 ∧ pc.toNat % 2 = 0
    (s.tile g).imemBad = [] →
    (¬ fits → exec (.seqInstruction g (.rv [])) s = .next (s.keepOuter (s.fresh.seqStop g 0x02)))
    ∧ (fits → out = .illegal → exec (.seqInstruction g (.rv [])) s = .next (s.keepOuter (s.fresh.seqStop g 0x04)))
    ∧ (∀ rd v, fits → out = .set rd v → exec (.seqInstruction g (.rv [])) s = .next ((s.fresh.putX g rd v).seqNext g n))
    ∧ (∀ rd l t, fits → out = .jump rd l t → (s.tile g).loops = [] → exec (.seqInstruction g (.rv [])) s = .next ((s.fresh.putX g rd l).seqAt g t))
    ∧ (∀ a, fits → out = .mem a → exec (.seqInstruction g (.rv [])) s = .next (s.keepOuter (s.fresh.seqAccess g a n)))
    ∧ (fits → out = .skip → exec (.seqInstruction g (.rv [])) s = .next (s.fresh.seqNext g n))
    ∧ (∀ u l, exec (.seqInstruction g (.rv (u :: l))) s = exec (.seqInstruction g (.rv l)) (s.coreUpset g u))
    ∧ exec (.seqInstruction g .undefinedName) s = .next (s.keepOuter (((s.fresh.waitSteps g).seqRefuse g 0x04).fset (.SEQ_STATUS g) SEQ_STATUS.STATE 2))
    ∧ (∀ o, exec (.seqInstruction g (.signal o true)) s = .next (s.keepOuter ((s.fresh.seqRefuse g 0x04).seqNext g o.len.toNat)))
    ∧ (∀ ag t (len : CmdLen), exec (.seqInstruction g (.fence ag t true len)) s = .next (s.keepOuter ((s.fresh.seqRefuse g 0x04).seqNext g len.toNat)))
    ∧ (∀ h c (len : CmdLen), s.queueRoom g (engQueue c) = true → exec (.seqInstruction g (.engine h c len)) s = .next (s.keepOuter
        (((s.fresh.putQueue g (engQueue c) (s.queue g (engQueue c) ++ [s.engItem g h c])).drain g (engQueue c)).seqNext g len.toNat)))
    ∧ (∀ h c (len : CmdLen), s.queueRoom g (engQueue c) = false → exec (.seqInstruction g (.engine h c len)) s = .next (s.fresh.stall g 1))
    ∧ (∀ h c, (s.engItem g h c).stage = (s.tile g).issue ∧ (s.engItem g h c).phase = .queued))
  ∧ (∀ (s : State) (g n cause code : Nat), g < 512 →
    (s.seqNext g n).fget (.SEQ_PC g) SEQ_PC.PC = (s.fget (.SEQ_PC g) SEQ_PC.PC + n) % 2 ^ 32
    ∧ (s.seqNext g n).fget (.SEQ_STATUS g) SEQ_STATUS.WAIT_CAUSE = 0
    ∧ sameRegsBut [.SEQ_PC g, .SEQ_STATUS g, .SEQ_WAIT g] s (s.seqNext g n) ∧ sameMemory s (s.seqNext g n) ∧ (s.seqNext g n).tiles = s.tiles
    ∧ (s.stall g cause).fget (.SEQ_STATUS g) SEQ_STATUS.WAIT_CAUSE = cause % 8 ∧ (s.stall g cause).reg (.SEQ_PC g) = s.reg (.SEQ_PC g)
    ∧ (s.seqStop g code).fget (.SEQ_STATUS g) SEQ_STATUS.STATE = 2 ∧ (s.seqStop g code).reg (.SEQ_PC g) = s.reg (.SEQ_PC g)
    ∧ (s.flag (.SEQ_FAULT g) SEQ_FAULT.VALID = false → 1 ≤ code → code ≤ 0x17 → (s.seqStop g code).fget (.SEQ_FAULT g) SEQ_FAULT.CODE = code
        ∧ (s.seqStop g code).flag (.SEQ_FAULT g) SEQ_FAULT.VALID = true
        ∧ (s.seqStop g code).fget (.SEQ_FAULT g) SEQ_FAULT.STAGE = s.stage % 2 ^ 32))

/-- Loads and stores of a sequencer (R221, R223): a misaligned address, and one outside every range, stop it with BOUNDS; an access to a bank
passes the bank's checks as SEQ, with the issue stage; DMEM without errors is read and written without a check, each byte of a store at its address and
no other changed. Stores to the tile predicates and to the loop counts, and STAGE_END (R224, R226, R234, R242): half of PRED takes the
stored word; LC takes the count and FOREVER; STAGE_END adds 1 to the issue stage, or stalls while it is 4 or more above the work stage, and
with a common field it is DECODE (R230).
Stalls are deduced (log entry 26). -/
def Obligations.SequencerMemory : Prop :=
  (∀ (s : State) (g : Gt) (a : SeqMemOp), s.alive = true → s.seqReady g = true →
    let n := memBytes a.size
    let addr := a.addr.toNat
    let o := addr - 0x40000000
    let dmem := 0x40000000 ≤ addr ∧ addr < 0x40010000
    (addr % n ≠ 0 → exec (.seqBankLoadStore g a) s = .next (s.keepOuter (s.fresh.seqBadMem g addr 0x02)))
    ∧ (0x60000020 ≤ addr → addr % n = 0 → exec (.seqBankLoadStore g a) s = .next (s.keepOuter (s.fresh.seqStop g 0x02)))
    ∧ (addr % n = 0 → addr < 0x20000000 → ∀ c, s.accCheck g 0 addr n = .refused c →
        exec (.seqBankLoadStore g a) s = .next (s.keepOuter (s.fresh.seqBadMem g addr c)))
    ∧ (addr % n = 0 → addr < 0x20000000 → s.accCheck g 0 addr n = .wait →
        exec (.seqBankLoadStore g a) s = .next ((s.fresh.markWait g (laBank addr)).stall g 5))
    ∧ (addr % n = 0 → addr < 0x20000000 → s.accCheck g 0 addr n = .ok → a.store = true → exec (.seqBankLoadStore g a) s
        = .next (s.keepOuter ((s.fresh.bankWrite g (laBank addr) (laOff addr) (laView addr) (toLe n a.data.toNat)
            { agent := 0, stage := some (s.tile g).issue }).seqNext g (s.rvLen g))))
    ∧ (addr % n = 0 → addr < 0x20000000 → s.accCheck g 0 addr n = .ok → a.store = false → badIn s.sramBad (sramKey g (laBank addr) (laOff addr)) n = [] →
        exec (.seqBankLoadStore g a) s = .next ((s.fresh.putX g a.rd (BitVec.ofNat 32 (let v := memNat s.sram (sramKey g (laBank addr) (laOff addr)) n
          if a.signed then ofInt 32 (toInt (8 * n) v) else v))).seqNext g (s.rvLen g)))
    ∧ (addr % n = 0 → dmem → (s.tile g).dmemBad = [] → a.store = true → ∃ t, exec (.seqBankLoadStore g a) s = .next t
        ∧ (∀ i, i < n → memByte (t.tile g).dmem (o + i) = (toLe n a.data.toNat).getD i 0)
        ∧ (∀ b, (b < o ∨ o + n ≤ b) → memByte (t.tile g).dmem b = memByte (s.tile g).dmem b) ∧ sameMemory s t)
    ∧ (addr % n = 0 → dmem → (s.tile g).dmemBad = [] → a.store = false → a.signed = false → exec (.seqBankLoadStore g a) s
        = .next ((s.fresh.putX g a.rd (BitVec.ofNat 32 (memNat (s.tile g).dmem o n))).seqNext g (s.rvLen g))))
  ∧ (∀ (s : State) (g : Gt), s.alive = true → s.seqReady g = true →
    (∀ (hi : Bool) (v : BitVec 32), ∃ t, exec (.tilePredicateStore g hi v) s = .next t
      ∧ (t.reg (.PRED g)).toNat = (if hi then v.toNat * 2 ^ 32 + (s.reg (.PRED g)).toNat % 2 ^ 32 else (s.reg (.PRED g)).toNat / 2 ^ 32 * 2 ^ 32 + v.toNat)
      ∧ t.fget (.SEQ_PC g) SEQ_PC.PC = (s.fget (.SEQ_PC g) SEQ_PC.PC + s.rvLen g) % 2 ^ 32
      ∧ sameRegsBut [.PRED g, .SEQ_PC g, .SEQ_STATUS g, .SEQ_WAIT g] s t)
    ∧ (∀ (l : LoopLvl) (v : BitVec 32), ∃ t, exec (.loopCountStore g l v) s = .next t
      ∧ t.fget (.LOOP g l) LOOP.LC_COUNT = v.toNat % 2 ^ 24 ∧ t.fget (.LOOP g l) LOOP.LC_FOREVER = v.toNat / 2 ^ 24 % 2
      ∧ t.fget (.LOOP g l) LOOP.REMAIN = s.fget (.LOOP g l) LOOP.REMAIN
      ∧ sameRegsBut [.LOOP g l, .SEQ_PC g, .SEQ_STATUS g, .SEQ_WAIT g] s t)
    ∧ (∀ len : CmdLen, exec (.stageEnd g len true) s = .next (s.keepOuter ((s.fresh.seqRefuse g 0x04).seqNext g len.toNat)))
    ∧ (∀ len : CmdLen, 4 ≤ s.aheadOf g → exec (.stageEnd g len false) s = .next (s.fresh.stall g 4))
    ∧ (∀ len : CmdLen, s.aheadOf g < 4 → ∃ t, exec (.stageEnd g len false) s = .next t ∧ (t.tile g).issue = (s.tile g).issue + 1
      ∧ t.fget (.SEQ_PC g) SEQ_PC.PC = (s.fget (.SEQ_PC g) SEQ_PC.PC + len.toNat) % 2 ^ 32
      ∧ t.fget (.SEQ_STATUS g) SEQ_STATUS.WORK_STAGE = s.fget (.SEQ_STATUS g) SEQ_STATUS.WORK_STAGE))

/-- LOOP, ENDLOOP and BREAK (R241 to R245): LOOP opens a level with its count, or passes over its body when the count is 0; a fifth level, an
ENDLOOP or BREAK with no level open, and a common field on any of them (R230), is DECODE. ENDLOOP goes back while iterations remain and closes the level after the last; BREAK
closes it and leaves the body. The errors of loops are deduced (log entry 14). -/
def Obligations.Loops : Prop :=
  ∀ (s : State) (g : Gt) (len : CmdLen), s.alive = true → s.seqReady g = true →
    let n := (s.tile g).loops.length
    (∀ o : LoopOps, (4 ≤ n ∨ o.common = true) → exec (.openLoop g o) s = .next (s.keepOuter ((s.fresh.seqRefuse g 0x04).seqNext g o.len.toNat)))
    ∧ (∀ e ln, n < 4 → exec (.openLoop g ⟨.imm 0, e, ln, false⟩) s = .next (s.fresh.seqAt g e))
    ∧ (∀ (c : BitVec 24) e ln, n < 4 → c ≠ 0 → ∃ t, exec (.openLoop g ⟨.imm c, e, ln, false⟩) s = .next t
        ∧ t.fget (.LOOP g n) LOOP.REMAIN = c.toNat ∧ t.flag (.LOOP g n) LOOP.ACTIVE = true ∧ t.flag (.LOOP g n) LOOP.FOREVER = false
        ∧ (t.tile g).loops = ⟨s.pc g + BitVec.ofNat 32 ln.toNat, e⟩ :: (s.tile g).loops ∧ t.fget (.SEQ_STATUS g) SEQ_STATUS.LOOP_DEPTH = n + 1
        ∧ t.fget (.SEQ_PC g) SEQ_PC.PC = (s.fget (.SEQ_PC g) SEQ_PC.PC + ln.toNat) % 2 ^ 32)
    ∧ (exec (.endLoop g len true) s = .next (s.keepOuter ((s.fresh.seqRefuse g 0x04).seqNext g len.toNat))
        ∧ exec (.breakLoop g len true) s = .next (s.keepOuter ((s.fresh.seqRefuse g 0x04).seqNext g len.toNat)))
    ∧ (n = 0 → exec (.endLoop g len false) s = .next (s.keepOuter ((s.fresh.seqRefuse g 0x04).seqNext g len.toNat))
        ∧ exec (.breakLoop g len false) s = .next (s.keepOuter ((s.fresh.seqRefuse g 0x04).seqNext g len.toNat)))
    ∧ (∀ l r, (s.tile g).loops = l :: r →
        (s.flag (.LOOP g r.length) LOOP.FOREVER = true → exec (.endLoop g len false) s = .next (s.fresh.seqAt g l.start))
        ∧ (s.flag (.LOOP g r.length) LOOP.FOREVER = false → 1 < s.fget (.LOOP g r.length) LOOP.REMAIN → exec (.endLoop g len false) s
            = .next ((s.fresh.fset (.LOOP g r.length) LOOP.REMAIN (s.fget (.LOOP g r.length) LOOP.REMAIN - 1)).seqAt g l.start))
        ∧ (s.flag (.LOOP g r.length) LOOP.FOREVER = false → s.fget (.LOOP g r.length) LOOP.REMAIN ≤ 1 → exec (.endLoop g len false) s
            = .next ((s.fresh.closeLoop g).seqNext g len.toNat))
        ∧ exec (.breakLoop g len false) s = .next ((s.fresh.closeLoop g).seqAt g l.bodyEnd)
        ∧ ((s.closeLoop g).tile g).loops = r ∧ (r.length < 8 → (s.closeLoop g).fget (.SEQ_STATUS g) SEQ_STATUS.LOOP_DEPTH = r.length)
        ∧ (s.closeLoop g).flag (.LOOP g r.length) LOOP.ACTIVE = false)

/-- SIGNAL, WAIT and FENCE at a sequencer that can execute (R254 to R256, R301): SIGNAL of SEQ raises its tally by its amount at once, one of
an agent with a queue enters it, and one of any other code is DECODE; WAIT goes on when the tally has reached the value and else holds the
sequencer until it has, and with a common field it is DECODE (R230); a FENCE of a channel enters its queue, and one of no channel is DECODE. Tallies count modulo 2^32, and a value is
reached by the sign of the 32-bit difference (R237, R238). How a sequencer stalls is deduced (log entry 26). -/
def Obligations.SignalWaitFence : Prop :=
  (∀ (s : State) (g : Gt), s.alive = true →
    (∀ o : SignalOps, s.seqReady g = true →
      (o.agent = 0 → exec (.signalOp g o) s = .next ((s.fresh.raiseTally g o.tally o.amount.toNat).seqNext g o.len.toNat))
      ∧ (7 ≤ o.agent.toNat → exec (.signalOp g o) s = .next (s.keepOuter ((s.fresh.seqRefuse g 0x04).seqNext g o.len.toNat)))
      ∧ (o.agent ≠ 0 → o.agent.toNat < 7 → exec (.signalOp g o) s
          = .next (s.keepOuter (s.fresh.enqueue g o.agent.toNat (s.plainItem g (.signal o.tally o.amount)) o.len.toNat))))
    ∧ (∀ (t : TallyIx) (v : BitVec 32) (len : CmdLen), s.seqReady g = true →
      (s.tallyReached g t v.toNat = true → exec (.waitOp g t v len false) s = .next (s.fresh.seqNext g len.toNat))
      ∧ exec (.waitOp g t v len true) s = .next (s.keepOuter ((s.fresh.seqRefuse g 0x04).seqNext g len.toNat))
      ∧ (s.tallyReached g t v.toNat = false → exec (.waitOp g t v len false) s
          = .next (((s.fresh.seqNext g len.toNat).modTile g (fun x => { x with seqWait := some { what := .tally t v } })).stall g 2)))
    ∧ (∀ (t : TallyIx) (v : BitVec 32) (b : Nat), s.tilePresent g = true → (s.tile g).seqWait = some { what := .tally t v, waitB := b } →
      (s.tallyReached g t v.toNat = true → exec (.waitRelease g) s = .next ((s.fresh.modTile g (fun x => { x with seqWait := none })).waitSteps g))
      ∧ (s.tallyReached g t v.toNat = false → exec (.waitRelease g) s = .next s.fresh))
    ∧ (∀ (a : Agent) (t : TallyIx) (len : CmdLen), s.seqReady g = true →
      (3 ≤ a.toNat → a.toNat ≤ 6 → exec (.fenceOp g a t len) s = .next (s.keepOuter (s.fresh.enqueue g a.toNat (s.plainItem g (.fence t)) len.toNat)))
      ∧ (a = 0 → exec (.fenceOp g a t len) s = .next (s.keepOuter ((s.fresh.seqNext g len.toNat).seqFence g t none)))
      ∧ ((a = 1 ∨ a = 2 ∨ 7 ≤ a.toNat) → exec (.fenceOp g a t len) s = .next (s.keepOuter ((s.fresh.seqRefuse g 0x04).seqNext g len.toNat))))
    ∧ (∀ (a : Agent) (i : QItem) (r : List QItem) (t : TallyIx), s.tilePresent g = true → a ≠ 0 → s.queue g a.toNat = i :: r → i.body = .fence t →
        i.phase = .running → exec (.fenceComplete g a) s = .next (s.keepOuter (if s.doneReached g a.toNat i.captured.toNat
          then ((s.fresh.putQueue g a.toNat r).fenceDone g a.toNat t).drain g a.toNat else s.fresh))))
  ∧ (∀ (s : State) (g : Nat) (t : TallyIx) (n v : Nat),
    (s.raiseTally g t n).fget (.TALLY g t) TALLY.VALUE = (s.fget (.TALLY g t) TALLY.VALUE + n) % 2 ^ 32
    ∧ sameRegsBut [.TALLY g t] s (s.raiseTally g t n)
    ∧ (v < 2 ^ 32 → (s.tallyReached g t v = true ↔ (s.fget (.TALLY g t) TALLY.VALUE + 2 ^ 32 - v) % 2 ^ 32 < 2 ^ 31)))

/-- The ends of waits and commands, and writes of tallies (R231, R240, R261): a wait that has lasted the limit raises TALLY_WAIT once, for the
stage that has just ended; the first engine command in progress of MXE or VEC ends, or the first ACCSTORE, which may pass a MATMUL of the
other buffer (R227); a tally is written only while the tile's partition is
halted or has no plan, and is refused with TALLY_REJ otherwise. The end of an engine command (R231, R233, R238): its fault, if any, is
raised with its issue stage and shown in LAST_FAULT; its tallies rise by 1 whether it was run, skipped or refused; its entry leaves the
queue. The event TALLY_WAIT out of its condition is log entry 44. -/
def Obligations.WaitsAndEnds : Prop :=
  (∀ (s : State) (g : Gt), s.alive = true → s.tilePresent g = true →
    let lim := s.fget (.TALLY_LIMIT g) TALLY_LIMIT.LIMIT
    (∀ w, (s.tile g).seqWait = some w → w.waitB = lim → exec (.tallyWait g .seq) s
        = .next ((s.fresh.modTile g (fun t => { t with seqWait := some { w with waitB := lim + 1 } })).raiseTile g 0 0x06 (some (s.stage - 1))))
    ∧ (∀ w, (s.tile g).seqWait = some w → w.waitB ≠ lim → exec (.tallyWait g .seq) s = .next s.fresh)
    ∧ (∀ (a : Agent) (drain : Bool) ix, (a = 1 ∨ a = 2) → s.runningIx g a.toNat drain = some ix →
        exec (.engineCommandEnd g a drain) s = .next (s.keepOuter (s.fresh.endEntry g a.toNat ix)))
    ∧ (∀ (a : Agent) (drain : Bool), (a = 1 ∨ a = 2) → s.runningIx g a.toNat drain = none → exec (.engineCommandEnd g a drain) s = .next s.fresh)
    ∧ (∀ (t : TallyIx) (a : Acc), s.mayWrite a.by_ = true → exec (.tallyWrite g t a) s = .next (if s.tileIdle g = true
        then s.fresh.setReg (.TALLY g t) ((Reg.TALLY g t).info.write (s.reg (.TALLY g t)) a) else s.fresh.fset (.SEQ_STATUS g) SEQ_STATUS.TALLY_REJ 1)))
  ∧ (∀ (s : State) (g q ix : Nat) (i : QItem) (h : CmdHdr) (c : EngCmd), (s.queue g q)[ix]? = some i → i.body = .eng h c → (q = 1 ∨ q = 2) →
    let f := if i.fault = 0 then s else (s.setLastFault g q i.fault.toNat).raiseTile g q i.fault.toNat (some i.stage)
    let v := if q = 2 ∧ i.fault = 0 ∧ i.skipped = false then f.fadd (.VEC_WORK g) VEC_WORK.COMMANDS 1 else f
    let a := if h.sig0En then v.raiseTally g h.sig0T 1 else v
    let b := if h.sig1En then a.raiseTally g h.sig1T 1 else a
    s.endEntry g q ix = ((b.putQueue g q ((s.queue g q).eraseIdx ix)).refreshEngine g q).drain g q)

/-! The engines of a tile. -/

/-- An engine command (R46, R225, R231, R234 to R236) stays where it is while its region is quiesced and before its stage's gate opens, and
waits for its tally; then its predicate refuses it with DECODE, skips it, or lets it run: it has made its accesses, with the fault code of
its checks, 0 for none, or an access of it waits at a bank, from where it goes on with what it has done and without a second look at its
predicate (R236). Sent to an empty queue, it is first enqueued with its issue stage. Without room in a queue that does not hold it,
nothing happens. A row that names an engine command stands for the head of its queue by the model's choice (log entry 16). -/
def Obligations.EngineCommandBegins : Prop :=
  ∀ (s : State) (g : Gt) (h : CmdHdr) (m : MatmulOps) (a : AccstoreOps) (v : VecOps) (ch : TileCh) (d : Desc), s.alive = true → s.tilePresent g = true →
    ∀ e ∈ [(Instr.matmul g h m, EngCmd.matmul m, fun (i : QItem) (s : State) => s.matmul g m i), (.accstore g h a, .accstore a, fun i s => s.accstore g a i)]
        ++ (vecForms g h v).map (fun f => (f.2, EngCmd.vec f.1 v, fun (i : QItem) (s : State) => s.vecRun g f.1 v i))
        ++ [(DescOp.copy, Instr.copyOp (.tile g ch h) d), (.get, .getOp (.tile g ch h) d), (.put, .putOp (.tile g ch h) d),
            (.set, .setOp (.tile g ch h) d), (.clear, .clearOp (.tile g ch h) d), (.parity, .parity (.tile g ch h) d)].map (fun f =>
              (f.2, EngCmd.desc ch f.1 d, fun (i : QItem) (s : State) =>
                let q := s.chan (.tile g ch)
                if i.begun && q.cur.isSome then
                  let r := s.xferGo (.tile g ch)
                  (.ran (match (r.2.chan (.tile g ch)).cur with | none => 0 | some x => x.fault.toNat) (r.1 = .blocked), r.2)
                else if q.held.isSome || q.cur.isSome then (.stands, s)
                else if s.fget (.TDMA_CFG g ch) TDMA_CFG.SHARE = 0 then (.waits, s) else s.descRun (.tile g ch) f.1 d i.stage [] i)),
      let q := engQueue e.2.1
      let put (t : State) (i : QItem) : State := t.putQueue g q ((t.queue g q).set 0 i)
      let running (t : State) (i : QItem) : State := (put t { i with phase := .running }).refreshEngine g q
      let quiet := (s.rgn (g / 8)).quiesce = true
      (¬ quiet → s.queue g q = [] → exec e.1 s = exec e.1 (s.putQueue g q [s.engItem g h e.2.1]))
      ∧ (quiet → exec e.1 s = .next s.fresh)
      ∧ (s.queueRoom g q = false → (∀ i ∈ s.queue g q, i.body ≠ .eng h e.2.1) → exec e.1 s = .next s.fresh)
      ∧ (∀ i r, ¬ quiet → s.queue g q = i :: r → i.begun = true → i.waiting = true → i.body = .eng h e.2.1 →
          exec e.1 s = .next (s.keepOuter (s.fresh.runEntry g q 0 i e.2.2)))
      ∧ (∀ i r, ¬ quiet → s.queue g q = i :: r → i.phase = .queued → i.begun = false → i.body = .eng h e.2.1 →
          (s.gateOpen g i.stage = false → exec e.1 s = .next s.fresh)
          ∧ (s.gateOpen g i.stage = true → h.waitEn = true → s.tallyReached g h.waitT h.waitV.toNat = false →
              exec e.1 s = .next (put s.fresh { i with waiting := true }))
          ∧ (s.gateOpen g i.stage = true → (h.waitEn = false ∨ s.tallyReached g h.waitT h.waitV.toNat = true) →
              exec e.1 s = .next (s.keepOuter (match s.predicate g h i.pred with
                | .bad => running s.fresh { i with waiting := false, fault := 0x04 }
                | .skip => running s.fresh { i with waiting := false, skipped := true }
                | .run => match e.2.2 i s.fresh with
                  | (.waits, t) => put t { i with waiting := true, pastWait := true, waitB := if i.pastWait then i.waitB else 0 }
                  | (.stands, t) => put t { i with waiting := false, pastWait := true, waitB := 0 }
                  | (.holds j, t) => running t { j with begun := true, waiting := true, waitB := 0 }
                  | (.ran code more, t) => running t { i with begun := true, waiting := more, waitB := 0, fault := BitVec.ofNat 8 code }))))

/-- MATMUL of INT8 by INT8 (R165, R168, R178, R182): one row of K elements against N columns. Each of the N accumulator entries takes the sum
of the K products, modulo 2^32, added to what it held or, with INIT, to 0. No other entry of either buffer changes, and no byte of a bank.
The columns' elements lie in chunks of 64, column after column. ACCSTORE of integer accumulators (R184): a row of N entries in INT32 is
stored at D as N words, the buffer keeps its entries, and no other byte of a bank changes. A row is one step by the model's choice (log
entries 16, 22). -/
def Obligations.MatrixInteger : Prop :=
  (∀ (s : State) (g : Gt) (h : CmdHdr) (o : MatmulOps), s.alive = true → s.engineFree g 1 h → o.aFmt = 8 → o.bFmt = 8 → o.aIdx = false → o.m = 1 →
    let n := o.n.toNat
    let k := o.k.toNat
    0 < n → n ≤ 128 → 0 < k → s.sramBad = [] → (s.tile g).accBad = [] → s.clear g 1 o.a.toNat k → s.clear g 1 o.b.toNat ((k + 63) / 64 * n * 64) →
    let x (j : Nat) : Int := toInt 8 (s.laNat g o.a.toNat j 1)
    let y (c j : Nat) : Int := toInt 8 (s.laNat g o.b.toNat ((j / 64 * n + c) * 64 + j % 64) 1)
    ∃ t, exec (.matmul g h o) s = .next t
      ∧ (∀ c, c < n → tget 0 (t.tile g).acc (accKey o.acc.toNat o.accRow.toNat c)
          = (if o.init then 0 else tget 0 (s.tile g).acc (accKey o.acc.toNat o.accRow.toNat c))
            + BitVec.ofInt 32 ((List.range k).map (fun j => x j * y c j)).sum)
      ∧ (∀ b r c, c < 128 → (b ≠ o.acc.toNat ∨ r ≠ o.accRow.toNat ∨ n ≤ c) → r < 512 →
          tget 0 (t.tile g).acc (accKey b r c) = tget 0 (s.tile g).acc (accKey b r c))
      ∧ sameMemory s t ∧ t.queue g 1 = [{ s.engItem g h (.matmul o) with phase := .running, begun := true }]
      ∧ t.flag (.MXE_STATUS g) MXE_STATUS.BUSY = true)
  ∧ (∀ (s : State) (g : Gt) (h : CmdHdr) (o : AccstoreOps), s.alive = true → s.engineFree g 1 h → o.accFmt = 11 → o.dFmt = 11 → o.m = 1 →
    let n := o.n.toNat
    0 < n → n ≤ 128 → o.rmode = 0 → o.rowbind = 0 → s.sramBad = [] → (s.tile g).accBad = [] → s.clear g 1 o.d.toNat (4 * n) → laView o.d.toNat = 0 →
    ∃ t, exec (.accstore g h o) s = .next t
      ∧ (∀ j, j < n → t.laNat g o.d.toNat (4 * j) 4 = (tget 0 (s.tile g).acc (accKey o.acc.toNat o.accRow.toNat j)).toNat)
      ∧ sameBanksBut g o.d.toNat (4 * n) s t ∧ (∀ a, memByte t.dram a = memByte s.dram a) ∧ (t.tile g).acc = (s.tile g).acc
      ∧ t.queue g 1 = [{ s.engItem g h (.accstore o) with phase := .running, begun := true }])

/-- The VEC operations on one row of FP32 elements (R197, R204, R206 to R210): what each writes at D, from the elements of its sources. No
other byte of a bank changes. `A`, `B` and `C` are the rows of S1, S2 and S3; formats named and not used are plain (R127). Corners of the vector operations are deduced (log entry 24). -/
def Obligations.VectorFloat : Prop :=
  ∀ (s : State) (g : Gt) (h : CmdHdr) (o : VecOps), s.alive = true → s.engineFree g 2 h → s.sramBad = [] → o.rows = 1 → o.s1Idx = false → o.lim = false →
    o.rmode = 0 → o.rowbind = 0 → o.dFmt = 0 → o.dEstride = 1 → laView o.d.toNat = 0 →
    plainFmt o.s1Fmt → plainFmt o.s2Fmt → plainFmt o.s3Fmt →
    let n := o.count.toNat
    0 < n →
    let row (a : BitVec 32) : List Val := (List.range n).map (fun j => rne32 (Fmt.fp32.value (s.laNat g a.toNat (4 * j) 4)))
    let A := row o.s1
    let B := row o.s2
    let C := row o.s3
    let two (f : Val → Val → Val) : List Val := List.zipWith f A B
    let imm0 := val32 o.imm0
    let imm1 := val32 o.imm1
    ∀ e ∈ [(VecOp.add, Instr.addOp g h o, two (fun a b => rne32 (a.add b))), (.sub, .subOp g h o, two (fun a b => rne32 (a.sub b))),
        (.mul, .mulOp g h o, two (fun a b => rne32 (a.mul b))), (.fma, .fma g h o, List.zipWith (fun p c => rne32 (p.add c)) (two Val.mul) C),
        (.axpb, .axpb g h o, A.map (fun a => rne32 ((a.mul imm0).add imm1))), (.max, .maxOp g h o, two vMax), (.min, .minOp g h o, two vMin),
        (.abs, .absOp g h o, A.map Val.abs), (.neg, .negOp g h o, A.map Val.neg),
        (.sel, .selOp g h o, List.zipWith (fun ab c => if c.isZero then ab.2 else ab.1) (List.zip A B) C),
        (.cmpgt, .cmpgt g h o, two (fun a b => if b.lt a then .num false 1 0 else .zero)),
        (.exp, .expOp g h o, A.map fExp), (.ln, .ln g h o, A.map fLn), (.rcp, .rcp g h o, A.map fRcp), (.rsqrt, .rsqrt g h o, A.map fRsqrt),
        (.sqrt, .sqrt g h o, A.map fSqrt), (.sigmoid, .sigmoid g h o, A.map fSigmoid), (.tanh, .tanh g h o, A.map fTanh),
        (.silu, .silu g h o, A.map fSilu), (.gelu, .gelu g h o, A.map fGelu), (.swiglu, .swiglu g h o, two (fun a b => rne32 ((fSilu a).mul b))),
        (.rsum, .rsum g h o, [rSum A]), (.rsumsq, .rsumsq g h o, [rSumSq A]), (.rdot, .rdot g h o, [rDot (List.zip A B)]),
        (.rmax, .rmax g h o, [rMax A]), (.rmin, .rmin g h o, [rMin A]), (.softmax, .softmax g h o, softmaxRow A imm0 n),
        (.rmsnorm, .rmsnorm g h o, rmsnormRow A B imm0), (.layernorm, .layernorm g h o, layernormRow A B C imm0)],
      let size := 4 * e.2.2.length
      s.clear g 2 o.d.toNat size →
      (∀ x ∈ [(o.s1, o.s1Fmt, o.s1Estride), (o.s2, o.s2Fmt, o.s2Estride), (o.s3, o.s3Fmt, o.s3Estride)].take (srcCount e.1),
        x.2.1 = 0 ∧ x.2.2 = 1 ∧ s.clear g 2 x.1.toNat (4 * n) ∧ disjointLa x.1.toNat (4 * n) o.d.toNat size) →
      ∃ t, exec e.2.1 s = .next t
        ∧ (∀ j, j < e.2.2.length → t.laNat g o.d.toNat (4 * j) 4 = Fmt.fp32.encode .rne o.sat (e.2.2.getD j .zero))
        ∧ sameBanksBut g o.d.toNat size s t ∧ (∀ a, memByte t.dram a = memByte s.dram a)
        ∧ t.queue g 2 = [{ s.engItem g h (.vec e.1 o) with phase := .running, begun := true }]

/-- The integer VEC operations on one row of INT32 elements (R204, R205), modulo 2^32, with shift counts modulo 32; IOTA counts up from IMM0. -/
def Obligations.VectorInteger : Prop :=
  ∀ (s : State) (g : Gt) (h : CmdHdr) (o : VecOps), s.alive = true → s.engineFree g 2 h → s.sramBad = [] → o.rows = 1 → o.s1Idx = false → o.lim = false →
    o.rmode = 0 → o.rowbind = 0 → o.dFmt = 11 → o.dEstride = 1 → laView o.d.toNat = 0 →
    plainFmt o.s1Fmt → plainFmt o.s2Fmt → plainFmt o.s3Fmt →
    let n := o.count.toNat
    0 < n → s.clear g 2 o.d.toNat (4 * n) →
    let x (a : BitVec 32) (j : Nat) : BitVec 32 := BitVec.ofNat 32 (s.laNat g a.toNat (4 * j) 4)
    ∀ e ∈ [(VecOp.iadd, Instr.iadd g h o, fun j => x o.s1 j + x o.s2 j), (.isub, .isub g h o, fun j => x o.s1 j - x o.s2 j),
        (.imul, .imul g h o, fun j => x o.s1 j * x o.s2 j), (.imin, .imin g h o, fun j => if (x o.s2 j).slt (x o.s1 j) then x o.s2 j else x o.s1 j),
        (.imax, .imax g h o, fun j => if (x o.s1 j).slt (x o.s2 j) then x o.s2 j else x o.s1 j), (.iand, .iand g h o, fun j => x o.s1 j &&& x o.s2 j),
        (.ior, .ior g h o, fun j => x o.s1 j ||| x o.s2 j), (.ixor, .ixor g h o, fun j => x o.s1 j ^^^ x o.s2 j),
        (.ishl, .ishl g h o, fun j => x o.s1 j <<< ((x o.s2 j).toNat % 32)), (.ishr, .ishr g h o, fun j => (x o.s1 j).sshiftRight ((x o.s2 j).toNat % 32)),
        (.iota, .iota g h o, fun j => o.imm0 + BitVec.ofNat 32 j)],
      (∀ y ∈ [(o.s1, o.s1Fmt, o.s1Estride), (o.s2, o.s2Fmt, o.s2Estride)].take (srcCount e.1),
        y.2.1 = 11 ∧ y.2.2 = 1 ∧ s.clear g 2 y.1.toNat (4 * n) ∧ disjointLa y.1.toNat (4 * n) o.d.toNat (4 * n)) →
      ∃ t, exec e.2.1 s = .next t ∧ (∀ j, j < n → t.laNat g o.d.toNat (4 * j) 4 = (e.2.2 j).toNat)
        ∧ sameBanksBut g o.d.toNat (4 * n) s t ∧ t.queue g 2 = [{ s.engItem g h (.vec e.1 o) with phase := .running, begun := true }]

/-- RARGMAX, CVT, GATHER, SAMPLE and MERGE on one row (R204, R207, R213, R215 to R217): the index, the converted elements, the table elements
that the indices name, and the 32-byte candidate record. Formats that a command names and does not use are plain here (R127). Corners of the vector operations are deduced (log entry 24). -/
def Obligations.VectorRows : Prop :=
  ∀ (s : State) (g : Gt) (h : CmdHdr) (o : VecOps), s.alive = true → s.engineFree g 2 h → s.sramBad = [] → o.rows = 1 → o.s1Idx = false → o.lim = false →
    o.rmode = 0 → o.rowbind = 0 → o.dEstride = 1 → o.s1Estride = 1 → laView o.d.toNat = 0 →
    plainFmt o.s1Fmt → plainFmt o.s2Fmt → plainFmt o.s3Fmt →
    let n := o.count.toNat
    0 < n →
    let raw (j : Nat) : Val := Fmt.fp32.value (s.laNat g o.s1.toNat (4 * j) 4)
    let A : List Val := (List.range n).map (fun j => rne32 (raw j))
    let apart (k size : Nat) : Prop := s.clear g 2 o.s1.toNat k ∧ s.clear g 2 o.d.toNat size
      ∧ disjointLa o.s1.toNat k o.d.toNat size
    let did (op : VecOp) (size : Nat) (t : State) : Prop :=
      sameBanksBut g o.d.toNat size s t ∧ t.queue g 2 = [{ s.engItem g h (.vec op o) with phase := .running, begun := true }]
    (o.s1Fmt = 0 → o.dFmt = 11 → apart (4 * n) 4 → ∃ t, exec (.rargmax g h o) s = .next t ∧ did .rargmax 4 t
      ∧ t.laNat g o.d.toNat 0 4 = ofInt 32 (rArgmax A))
    ∧ (o.s1Fmt = 0 → o.dFmt = 1 → apart (4 * n) (2 * n) → ∃ t, exec (.cvt g h o) s = .next t ∧ did .cvt (2 * n) t
      ∧ ∀ j, j < n → t.laNat g o.d.toNat (2 * j) 2 = Fmt.bf16.encode .rne o.sat (raw j))
    ∧ (∀ ix : Nat → Nat, o.s1Fmt = 0 → o.dFmt = 0 → o.s2Fmt = 11 → o.s2Estride = 1 → o.s2.toNat % 4 = 0 → 0 < o.imm0.toInt →
        s.clear g 2 o.s2.toNat (4 * n) → apart (4 * o.imm0.toNat) (4 * n) → disjointLa o.s2.toNat (4 * n) o.d.toNat (4 * n) →
        (∀ j, j < n → ix j = s.laNat g o.s2.toNat (4 * j) 4 ∧ ix j < o.imm0.toNat) →
        ∃ t, exec (.gather g h o) s = .next t ∧ did .gather (4 * n) t
          ∧ ∀ j, j < n → t.laNat g o.d.toNat (4 * j) 4 = s.laNat g o.s1.toNat (4 * ix j) 4)
    ∧ (o.s1Fmt = 0 → apart (4 * n) 32 → ∃ t, exec (.sample g h o) s = .next t ∧ did .sample 32 t
      ∧ memRead t.sram (sramKey g (laBank o.d.toNat) (laOff o.d.toNat)) 32
          = candBytes (sampleRow A (val32 o.imm0) o.imm1 { seed := s.planSeed g, pos := 0, seated := false }))
    ∧ (plainFmt o.dFmt → apart (32 * n) 32 → ∃ t, exec (.merge g h o) s = .next t ∧ did .merge 32 t
      ∧ memRead t.sram (sramKey g (laBank o.d.toNat) (laOff o.d.toNat)) 32
          = candBytes (mergeRow ((List.range n).map (fun i =>
              candOf (memRead s.sram (sramKey g (laBank o.s1.toNat) (laOff o.s1.toNat) + 32 * i) 32)))))

/-! Data movers. -/

/-- COPY and PARITY on a channel of an I/O die that may take the next descriptor of its ring (R262, R268, R274, R278), within the module's own
LPDDR5X: COPY moves LEN bytes; PARITY writes P, the XOR of its shards, and Q, their Horner sum from the last shard. No other byte changes,
the descriptor leaves its ring and is the channel's current one. A descriptor that a check refuses moves nothing and ends with the check's
code. A row whose descriptor is not the one of the 64 bytes of the ring's next entry in LPDDR5X does nothing. That the bytes move when the
descriptor is taken, in which units, and how rings elsewhere name their descriptors, are the model's choice (log entries 76, 91). -/
def Obligations.DescriptorsMove : Prop :=
  ∀ (s : State) (i : Iod) (ch : IoCh) (b : Bytes) (d : Desc), s.alive = true → s.ioReady i ch d = true →
    let c := DescAt.io i ch b
    let ring := s.fget (.IDMA_RINGS i ch) IDMA_RINGS.DRING
    let n := d.len.toNat
    let rows := [(DescOp.copy, Instr.copyOp c d), (.get, .getOp c d), (.put, .putOp c d), (.set, .setOp c d), (.clear, .clearOp c d), (.parity, .parity c d)]
    let taken (t : State) (fault : Byte) (bytes : Nat) : Prop :=
      t.fget (.RING_IDX ring) RING_IDX.CONS = (s.fget (.RING_IDX ring) RING_IDX.CONS + 1) % 2 ^ 32
      ∧ ((t.chan (.io i ch)).cur.map (fun x => (x.fault, x.bytes, x.gets))) = some (fault, bytes, []) ∧ (∀ a, memByte t.sram a = memByte s.sram a)
    (∀ op e, s.ringNames i ch op d → s.descCheck (.io i ch) op d = some e → e < 256 → ∀ x ∈ rows, x.1 = op →
      ∃ t, exec x.2 s = .next t ∧ taken t (BitVec.ofNat 8 e) 0 ∧ t.dram = s.dram)
    ∧ (s.dramBad = [] → ∀ x ∈ rows, ¬ s.ringNames i ch x.1 d → exec x.2 s = .next s.fresh)
    ∧ (0 < n → d.rsvOp = none → d.rsvd0 = 0 → d.rsvd1 = 0 → d.paged = false → d.srcKind = 1 → d.dstKind = 1 → s.dramBad = [] →
        (∀ e ∈ s.late, e.chan ≠ .io i ch) → s.ownDram d.src n → s.ownDram d.dst n →
        let x := gaDram d.src.toNat
        let y := gaDram d.dst.toNat
        (s.ringNames i ch .copy d → (x + n ≤ y ∨ y + n ≤ x) → ∃ t, exec (.copyOp c d) s = .next t ∧ taken t 0 n
          ∧ (∀ j, j < n → memByte t.dram (y + j) = memByte s.dram (x + j)) ∧ (∀ a, (a < y ∨ y + n ≤ a) → memByte t.dram a = memByte s.dram a))
        ∧ (let q := gaDram d.qdst.toNat
           let shard (k : Nat) : Nat := x + k * d.shStride.toNat
           s.ringNames i ch .parity d → d.pq = 3 → d.shards.toNat ≤ 16 → s.ownDram d.qdst n → (y + n ≤ q ∨ q + n ≤ y) →
           s.ownDram d.src ((d.shards.toNat - 1) * d.shStride.toNat + n) →
           (∀ k, k < d.shards.toNat → (shard k + n ≤ y ∨ y + n ≤ shard k) ∧ (shard k + n ≤ q ∨ q + n ≤ shard k)) →
           ∃ t, exec (.parity c d) s = .next t ∧ taken t 0 n
             ∧ (∀ j, j < n → memByte t.dram (y + j) = (List.range d.shards.toNat).foldl (fun a k => a ^^^ memByte s.dram (shard k + j)) 0
                 ∧ memByte t.dram (q + j) = (List.range d.shards.toNat).foldr (fun k a => memByte s.dram (shard k + j) ^^^ gfDouble a) 0)
             ∧ (∀ a, (a < y ∨ y + n ≤ a) → (a < q ∨ q + n ≤ a) → memByte t.dram a = memByte s.dram a)))

/-- PUT, SET, CLEAR and GET of up to 4,096 bytes on a channel of an I/O die (R288 to R290, R300, R303): one request packet, numbered with the
channel's next SEQ, joins the queue of the port that leads to the other module, and the channel counts it as issued. A PUT, SET or CLEAR
carries the bytes of LPDDR5X that it sends; a GET names where its data shall land, and the channel expects that data. Descriptors of SET
and CLEAR are log entry 15, their moment log entry 76. -/
def Obligations.DescriptorsSend : Prop :=
  ∀ (s : State) (i : Iod) (ch : IoCh) (b : Bytes) (d : Desc) (p : Nat), s.alive = true → s.ioReady i ch d = true → d.rsvOp = none → d.rsvd0 = 0 → d.rsvd1 = 0 →
    d.paged = false → d.srcKind = 1 → d.dstKind = 1 → 0 < d.len.toNat → d.len.toNat ≤ 4096 → s.dramBad = [] → (∀ e ∈ s.late, e.chan ≠ .io i ch) →
    let c := DescAt.io i ch b
    let n := d.len.toNat
    let q := s.chan (.io i ch)
    let sent (t : State) (k : Packet) : Prop :=
      (t.port p).txAnswer = (s.port p).txAnswer ++ queued k ∧ (t.chan (.io i ch)).seq = q.seq + 1 ∧ (t.chan (.io i ch)).issued = q.issued + 1
      ∧ (t.chan (.io i ch)).done = q.done ∧ sameMemory s t
    let head (opc ga reply : Nat) : PktHdr := s.hdr opc ga n (0x8000 + i.val * 32 + ch.val) q.seq.toNat reply
    (∀ x ∈ [(Instr.putOp c d, 3, DescOp.put), (.setOp c d, 4, .set), (.clearOp c d, 5, .clear)], s.ringNames i ch x.2.2 d → s.ownDram d.src n →
        gaModule d.dst.toNat ≠ s.self → gaSpace d.dst.toNat < 2 → s.routesTo (gaModule d.dst.toNat) p → ∃ t, exec x.1 s = .next t
          ∧ sent t { hdr := head x.2.1 d.dst.toNat 0, payload := memRead s.dram (gaDram d.src.toNat) n }
          ∧ (t.chan (.io i ch)).open_ = q.open_ ++ [(q.seq, 1)]
          ∧ ((t.chan (.io i ch)).cur.map (fun x => (x.fault, x.bytes, x.gets))) = some (0, n, []))
    ∧ (s.ringNames i ch .get d → s.ownDram d.dst n → gaModule d.src.toNat ≠ s.self → gaSpace d.src.toNat < 2 → s.routesTo (gaModule d.src.toNat) p →
        ∃ t, exec (.getOp c d) s = .next t ∧ sent t { hdr := head 1 d.src.toNat (s.self * 2 ^ 48 + 2 ^ 46 + gaDram d.dst.toNat), payload := [] }
          ∧ ((t.chan (.io i ch)).cur.map (fun x => (x.fault, x.bytes, x.gets))) = some (0, 0, [(q.seq, d.dst.toNat)]))

/-- The end of a descriptor (R275 to R279): without a current one, or while an access, a landing, a burst or data is still to come,
nothing happens; else the channel is free, its bytes are counted, a code other than 0 is shown in LAST_FAULT and raised as a flag, and
CREC produces its record. A PCIe read error ends one that reads host memory with HOST_DOWN and stops its channel. A held record goes out
once its ring has room. A slot of the wheel (R272, R273) does nothing without a descriptor in progress; it carries a burst of one whose
accesses are made; and the last burst of a GET's data lands it in LPDDR5X and completes its request. The moment of the end is the
event's (log entry 76). -/
def Obligations.DescriptorEnds : Prop :=
  ∀ (s : State) (i : Iod) (ch : IoCh), s.alive = true →
    let c := ChanId.io i ch
    ((s.chan c).cur = none → exec (.descriptorEnd c) s = .next s.fresh ∧ exec (.pcieReadError i ch) s = .next s.fresh)
    ∧ (∀ x, (s.chan c).cur = some x →
        let ready := x.todo = [] ∧ x.landing = 0 ∧ x.asked = false ∧ (x.fault ≠ 0 ∨ (x.short = false ∧ x.bursts = 0 ∧ x.gets = []))
        let u := ((s.fresh.modChan c (fun q => { q with done := q.done + BitVec.ofNat 32 x.inq.length, cur := none })).dropLate c).countDesc c (x.bytes + x.bytes2)
        let stop := if s.flag (.IDMA_CTRL i ch) IDMA_CTRL.RUN then 0 else 2
        let length := if x.op = .parity ∧ x.d.pq = 3 then min x.bytes x.bytes2 else x.bytes
        let rec_ (code : Nat) : Bytes := crecBytes length x.d.tag code (b2n x.split + stop) s.stage (chanCode c)
        (ready → x.fault = 0 → exec (.descriptorEnd c) s = .next (s.keepOuter (if x.d.crec then u.putRecord c (rec_ 0) else u)))
        ∧ (ready → x.fault ≠ 0 → x.d.crec = false → exec (.descriptorEnd c) s = .next (s.keepOuter
            ((u.fset (.IDMA_STATUS i ch) IDMA_STATUS.LAST_FAULT x.fault.toNat).raise { code := x.fault.toNat, cls := 0, origin := 3, id := 8 + i })))
        ∧ (¬ ready → exec (.descriptorEnd c) s = .next s.fresh)
        ∧ (i.val < 2 → x.d.srcKind = 2 → ∃ t, exec (.pcieReadError i ch) s = .next t ∧ (t.chan c).cur = none ∧ t.flag (.IDMA_CTRL i ch) IDMA_CTRL.RUN = false
            ∧ t.fget (.IDMA_STATUS i ch) IDMA_STATUS.LAST_FAULT = 0x14 ∧ t.flag (.IDMA_EVENT i) IDMA_EVENT.HOST_DOWN = true)
        ∧ ((2 ≤ i.val ∨ x.d.srcKind ≠ 2) → exec (.pcieReadError i ch) s = .next s.fresh))
    ∧ (∀ b, (s.chan c).held = some b → exec (.completionRingResume c) s = .next (s.keepOuter
        (if s.boot.sealed = false ∧ s.ringIs (s.cring c) rCOMPLETION = true ∧ s.ringRoom (s.cring c) = true
          then ((s.fresh.ringPut (s.cring c) b (.io i ch)).modChan c (fun q => { q with held := none })).ringWait c else s.fresh)))
    ∧ ((s.chan c).held = none → exec (.completionRingResume c) s = .next s.fresh)
    ∧ (∀ t : Fin 256, let owner := wheelSlot ((List.range 32).map (fun k => (tget {} s.idma (i * 32 + k)).share)) t
        (owner = none → exec (.dmaBurst (.io i t)) s = .next s.fresh)
        ∧ (owner = some ch.val →
          (((s.chan c).cur = none ∨ (∃ x, (s.chan c).cur = some x ∧ x.fault ≠ 0)) → exec (.dmaBurst (.io i t)) s = .next s.fresh)
          ∧ (∀ x, (s.chan c).cur = some x → x.fault = 0 → x.todo = [] →
            (x.op ≠ .get → exec (.dmaBurst (.io i t)) s = .next (s.fresh.modChan c (fun q => { q with cur := some { x with bursts := x.bursts - 1 } })))
            ∧ (∀ seq b at_, x.op = .get → x.inq = [(seq, b, 1)] → x.gets = [(seq, at_)] → x.d.dstKind = 1 → gaSpace at_ = 1 → s.dramBad = [] →
              ∃ r, exec (.dmaBurst (.io i t)) s = .next r ∧ (r.chan c).done = (s.chan c).done + 1
                ∧ (r.chan c).cur = some { x with gets := [], inq := [], bytes := x.bytes + b.length }
                ∧ (∀ j, j < b.length → memByte r.dram (gaDram at_ + j) = b.getD j 0)
                ∧ (∀ a, (a < gaDram at_ ∨ gaDram at_ + b.length ≤ a) → memByte r.dram a = memByte s.dram a) ∧ r.sram = s.sram))))

/-! Packets. -/

/-- Requests of another module for this module's LPDDR5X (R291, R293, R295, R341): PUT, SET and CLEAR write each byte under their view and are
acknowledged; GET is answered with the bytes; an extent past LPDDR5X is refused with BOUNDS, raised as a flag, and a NACK. A packet for
another module is counted in FOREIGN, and while SELF_VALID is 0 every packet is discarded. A remote write at a bank (R88, R291, R295,
R298): it lands in a bank that REMOTE owns, unless its region is quiesced, and waits in the landing buffer while REMOTE is the bank's
pending owner; for any other owner it is refused with OWNER. What waits is tried again, in order, when the buffer is resumed. The module
number while SELF_VALID is 0 is deduced (log entry 19). -/
def Obligations.RequestPackets : Prop :=
  (∀ (s : State) (p : Port) (k : Packet), s.alive = true → s.dramBad = [] →
    let a := k.hdr.ga.toNat
    let u := s.fresh.takeInbound p (pktBytes k)
    let valid := s.flag .ROUTE_SELF ROUTE_SELF.SELF_VALID = true
    let mine := valid ∧ gaModule a = s.self ∧ gaSpace a = 1 ∧ gaZeros a = true
    ∀ x ∈ [(Instr.getRequestPacket p k, 1, 0), (.putPacket p k, 3, 0), (.setPacket p k, 4, 1), (.clearPacket p k, 5, 2)], k.hdr.opc.toNat = x.2.1 →
      let n := if x.2.1 = 1 then k.hdr.length.toNat else k.payload.length
      (mine → gaDram a + n ≤ dramSize → x.2.1 ≠ 1 → ∃ v : State, exec x.1 s = .next (s.keepOuter (v.sendOff .answer (s.ackOf k.hdr)))
        ∧ (∀ i, i < n → memByte v.dram (gaDram a + i) = viewByte x.2.2 (memByte s.dram (gaDram a + i)) (k.payload.getD i 0))
        ∧ (∀ b, (b < gaDram a ∨ gaDram a + n ≤ b) → memByte v.dram b = memByte s.dram b) ∧ v = { u with dram := v.dram, rows := v.rows })
      ∧ (mine → gaDram a + n ≤ dramSize → x.2.1 = 1 → ∃ v : State, exec x.1 s = .next (s.keepOuter (v.sendOff .answer
          { hdr := s.hdr 2 k.hdr.reply.toNat n k.hdr.issuer.toNat k.hdr.seq.toNat, payload := memRead s.dram (gaDram a) n })) ∧ v = { u with rows := v.rows })
      ∧ (mine → dramSize < gaDram a + n → exec x.1 s = .next (s.keepOuter ((u.raise { code := 0x02, cls := 0, origin := 6, addr := k.hdr.src.toNat }).sendOff
          .answer (s.nackOf k.hdr 0x02))))
      ∧ (valid → gaModule a ≠ s.self → s.isGroup (gaModule a) = false → exec x.1 s = .next (u.fadd .ROUTE_COUNT ROUTE_COUNT.FOREIGN 1))
      ∧ (¬ valid → exec x.1 s = .next u))
  ∧ (∀ (s : State) (g : Gt) (it : LandItem), s.alive = true → it.readLen = 0 → it.counts = true → it.land_ = none → it.ack = none → it.aper = none → it.chan = none →
    s.sramBad = [] → s.lockOn = false →
    let own := s.ownCheck g it.bank 7
    let quiet := (s.rgn (g / 8)).quiesce
    (quiet = false → own = .ok → (s.tile g).landing = [it] → ∃ t, exec (.landingBufferResume g) s = .next t ∧ (t.tile g).landing = []
      ∧ (∀ i, i < it.data.length → memByte t.sram (sramKey g it.bank it.off + i) = viewByte it.view.toNat (memByte s.sram (sramKey g it.bank it.off + i)) (it.data.getD i 0))
      ∧ (∀ b, (b < sramKey g it.bank it.off ∨ sramKey g it.bank it.off + it.data.length ≤ b) → memByte t.sram b = memByte s.sram b)
      ∧ (it.bank < 72 → (s.tile g).pend = [] →
          t.fget (.BANK_OWN g it.bank) BANK_OWN.RCOUNT = (s.fget (.BANK_OWN g it.bank) BANK_OWN.RCOUNT + 1) % 2 ^ BANK_OWN.RCOUNT.len))
    ∧ ((quiet = true ∨ own = .wait) → (s.tile g).landing = [it] → ∃ t, exec (.landingBufferResume g) s = .next t ∧ t.tile g = s.tile g
      ∧ t = { s.fresh with tiles := t.tiles })
    ∧ ((s.tile g).landing = [] → exec (.landingBufferResume g) s = .next s.fresh)
    ∧ ((quiet = true ∨ own = .wait) → s.arrive g it = (.waiting, s.modTile g (fun t => { t with landing := t.landing ++ [it] })))
    ∧ (∀ e, quiet = false → own = .refused e → s.arrive g it = (.refused e, s.bankEvent g e)))

/-- The answers of other modules (R293, R300, R302, R304): an ACK completes one packet of the channel that it names, a NACK does too and
leaves its code, for a tile channel to the FENCE that covers it and for an I/O-die channel in LAST_FAULT; one that answers a GET ends that
descriptor with its code. The next descriptor of an I/O-die channel waits for each answer of a packet (R304). GET data that the channel
expects enters the inbound path with the bursts that it takes (R273), and data that no descriptor expects only completes its request. A
packet with a reserved OPC is only counted (R289). The counter of reserved kinds is deduced (log entry 13). -/
def Obligations.AnswerPackets : Prop :=
  ∀ (s : State) (p : Port) (k : Packet), s.alive = true → s.flag .ROUTE_SELF ROUTE_SELF.SELF_VALID = true → gaModule k.hdr.ga.toNat = s.self →
    let u := s.fresh.takeInbound p (pktBytes k)
    let o := k.hdr.opc.toNat
    let seq := k.hdr.seq
    let code := BitVec.ofNat 8 k.hdr.length.toNat
    (∀ c, chanOf k.hdr.issuer.toNat = some c →
      let q := s.chan c
      (o = 6 → ∃ t, exec (.ackPacket p k) s = .next t ∧ (t.chan c).done = q.done + 1 ∧ (t.chan c).open_ = ((s.answered c seq).chan c).open_
          ∧ t = u.modChan c (fun q => { q with done := (t.chan c).done, open_ := (t.chan c).open_ }))
      ∧ (∀ n, q.open_ = [(seq, n)] → ((s.answered c seq).chan c).open_ = if n ≤ 1 then [] else [(seq, n - 1)])
      ∧ (o = 7 → q.cur = none → ∃ t, exec (.nackPacket p k) s = .next t ∧ (t.chan c).done = q.done + 1 ∧ (t.chan c).open_ = ((s.answered c seq).chan c).open_
          ∧ (∀ g ch, c = .tile g ch → (t.chan c).nacks = q.nacks ++ [(seq, code)] ∧ t.regs = s.regs)
          ∧ (∀ i ch, c = .io i ch → t.fget (.IDMA_STATUS i ch) IDMA_STATUS.LAST_FAULT = code.toNat ∧ (t.chan c).nacks = q.nacks))
      ∧ (∀ x at_, o = 7 → q.cur = some x → (seq, at_) ∈ x.gets → ∃ t, exec (.nackPacket p k) s = .next t ∧ (t.chan c).done = q.done + 1
          ∧ (t.chan c).cur = some { x with gets := x.gets.filter (·.1 != seq), fault := code })
      ∧ (o = 2 → (q.cur = none ∨ ∃ x, q.cur = some x ∧ ∀ e ∈ x.gets, e.1 ≠ seq) →
          exec (.getDataPacket p k) s = .next (u.modChan c (fun q => { q with done := q.done + 1 })))
      ∧ (∀ x at_, o = 2 → q.cur = some x → (seq, at_) ∈ x.gets → (∀ e ∈ x.inq, e.1 ≠ seq) → exec (.getDataPacket p k) s
          = .next (u.modChan c (fun q => { q with cur := some { x with inq := x.inq ++ [(seq, k.payload, divUp k.payload.length (chanBurst c))] } }))))
    ∧ ((o = 0 ∨ 8 < o) → exec (.reservedOpcPacket p k) s = .next (u.fadd .ROUTE_COUNT ROUTE_COUNT.FOREIGN 1))

/-! The Volbago Link. -/

/-- SLOT_SEND (R315, R317, R320, R322, R329, R330): a slot of the stage on a port that carries frames. In INIT it carries an INIT frame. When
the link is UP, a REPAIR slot carries a due control frame, else the queued retransmission, else IDLE; the other classes carry their oldest
waiting parcel while the window has room, which enters the replay buffer under the next sequence number. The parcel planned for a PLAN
slot leaves in it; one that meets a full window becomes late; and a slot whose planned parcel has not come carries IDLE, while one that
the plan assigns to no parcel carries a plan parcel without a planned slot, or answer traffic. Any other slot sends nothing. On the
near-end loop a frame stays at this end (VBL_CTRL). What is known of the plan's slots is the model's choice (log entry 11). -/
def Obligations.SlotsCarryFrames : Prop :=
  ∀ (s : State) (p : Port) (x : SlotIn), s.alive = true →
    let n := x.slot.toNat
    let here := s.portPresent p = true ∧ s.locked p = true ∧ n < s.fget (.VBL_SLOTS p) VBL_SLOTS.S
    let q := s.port p
    let next := s.fget (.VBL_TX p) VBL_TX.NEXT
    let room := s.outstanding p < 16384
    let data (cls seq retx : Nat) (b : Parcel) : Out := .frame p (s.frameOf p 1 cls retx n seq b.data.length (b2n b.first + 2 * b2n b.last) b.data)
    let carries (t : State) (cls : Nat) (b : Parcel) : Prop :=
      t.out = [data cls next 0 b] ∧ t.fget (.VBL_TX p) VBL_TX.NEXT = (next + 1) % 2 ^ 16
      ∧ (t.port p).replay = q.replay ++ [{ seq := BitVec.ofNat 16 next, parcel := b, retx := 0, acked := false, queued := false, order := q.order }]
      ∧ t.fget (.VBL_TXCOUNT p) VBL_TXCOUNT.DATA = (s.fget (.VBL_TXCOUNT p) VBL_TXCOUNT.DATA + 1) % 2 ^ 32 ∧ sameMemory s t
    let idle (cls : Nat) : Out := .frame p (s.frameOf p 0 cls 0 n 0 0 0 [])
    ((¬ here ∨ (s.lstate p ≠ 2 ∧ s.lstate p ≠ 3)) → exec (.slotSend p x) s = .next s.fresh)
    ∧ (∀ f : Frame, s.putFrame p f = if q.loop = true then s.modPort p (fun t => { t with loopq := t.loopq ++ [f] }) else s.emit (.frame p f))
    ∧ (here → q.loop = false → s.lstate p = 2 → exec (.slotSend p x) s = .next (s.fresh.emit (.frame p (s.frameOf p 5 (s.slotClass p n) 0 n 0 0 0 (toLe 2 1 ++ [q.cause])))))
    ∧ (here → q.loop = false → s.lstate p = 3 → q.txPlan = [] →
        (s.slotClass p n = 0 → q.ctlDue = true → q.sackFrom = none → ∃ t, exec (.slotSend p x) s = .next t ∧ (t.port p).ctlDue = false
          ∧ t.out = [.frame p (s.frameOf p 2 0 0 n 0 0 0 (s.controlBody p ((s.fget (.VBL_RX p) VBL_RX.CONSUMED + 1) % 2 ^ 16) (s.slotPs n)))]
          ∧ t.regs = s.regs ∧ sameMemory s t)
        ∧ (∀ r, s.slotClass p n = 0 → q.ctlDue = false → q.sackFrom = none → q.replay = [r] → r.queued = true → ∃ t, exec (.slotSend p x) s = .next t
          ∧ t.out = [data 0 r.seq.toNat (r.retx + 1) r.parcel] ∧ (t.port p).replay = [{ r with retx := r.retx + 1, queued := false, order := q.order }]
          ∧ t.fget (.VBL_TXCOUNT p) VBL_TXCOUNT.RETX = (s.fget (.VBL_TXCOUNT p) VBL_TXCOUNT.RETX + 1) % 2 ^ 32)
        ∧ (s.slotClass p n = 0 → q.ctlDue = false → q.sackFrom = none → (∀ r ∈ q.replay, r.queued = false) → q.probeDue = false → q.calDue = false →
          ∃ t, exec (.slotSend p x) s = .next t ∧ t.out = [idle 0] ∧ t.regs = s.regs ∧ sameMemory s t)
        ∧ (∀ b r, s.slotClass p n = 1 → q.txLate = b :: r → room → ∃ t, exec (.slotSend p x) s = .next t ∧ carries t 1 b.parcel ∧ (t.port p).txLate = r)
        ∧ (∀ b r, s.slotClass p n = 2 → q.txService = b :: r → room → ∃ t, exec (.slotSend p x) s = .next t ∧ carries t 2 b.parcel ∧ (t.port p).txService = r)
        ∧ (∀ b r, s.slotClass p n = 3 → x.assigned = false → q.txAnswer = b :: r → room → ∃ t, exec (.slotSend p x) s = .next t ∧ carries t 3 b.parcel ∧ (t.port p).txAnswer = r)
        ∧ (∀ c, s.slotClass p n = c → (c = 1 ∧ q.txLate = [] ∨ c = 2 ∧ q.txService = [] ∨ c = 3 ∧ (q.txAnswer = [] ∨ x.assigned = true)) → ∃ t, exec (.slotSend p x) s = .next t
          ∧ t.out = [idle c] ∧ t.regs = s.regs ∧ sameMemory s t))
    ∧ (∀ b, here → q.loop = false → s.lstate p = 3 → s.slotClass p n = 3 → q.txPlan = [b] → b.planned = none →
        (room → x.assigned = false → ∃ t, exec (.slotSend p x) s = .next t ∧ carries t 3 b.parcel ∧ (t.port p).txPlan = [])
        ∧ (x.assigned = true → ∃ t, exec (.slotSend p x) s = .next t ∧ t.out = [idle 3] ∧ (t.port p).txPlan = [b] ∧ t.regs = s.regs ∧ sameMemory s t))
    ∧ (∀ b, here → q.loop = false → s.lstate p = 3 → s.slotClass p n = 3 → q.txPlan = [b] → b.planned = some (s.stage, n) →
        (room → ∃ t, exec (.slotSend p x) s = .next t ∧ carries t 3 b.parcel ∧ (t.port p).txPlan = [])
        ∧ (¬ room → q.txLate = [] → ∃ t, exec (.slotSend p x) s = .next t ∧ t.out = [idle 3] ∧ (t.port p).txPlan = [] ∧ (t.port p).txLate = [b]
          ∧ t.fget (.VBL_CATCHUP p) VBL_CATCHUP.WAITING = b.parcel.data.length % 2 ^ 32))

/-- Frames that arrive (R311 to R314, R323, R325, R328, R334, R336 to R338): without lock on every lane nothing is received, and on the
near-end loop nothing but what this end sent; a frame that fails its CRC is counted and no more; one of another epoch than the partner's
is ignored, but for INIT. What is left is counted in GOOD and acts by its kind: DATA fills the receive buffer, CONTROL returns credits,
PROBE leaves its echo due with the time of its arrival, CAL counts bit errors, INIT of a new epoch names the partner or breaks a link
that is UP, and a reserved kind is counted. A frame that carries the time of its arrival comes within the stage in progress. What a break
leaves is the model's choice (log entry 12), and the PRBS is presumed (log entry 10). -/
def Obligations.FramesReceived : Prop :=
  ∀ (s r : State) (p : Port) (f : Frame) (z : TimeIn) (errors : Nat), s.alive = true → s.fresh.advance z = some r →
    let rows : List (Instr × Nat × State) := [(.idleFrame p f, 0, s.fresh), (.dataFrame p f, 1, s.fresh), (.controlFrame p f z, 2, r),
      (.probeFrame p f z, 3, r), (.calFrame p f errors, 4, s.fresh), (.initFrame p f, 5, s.fresh), (.reservedKindFrame p f, 6, s.fresh)]
    let q := s.port p
    let heard := s.portPresent p = true ∧ s.locked p = true ∧ s.lstate p ≠ 0 ∧ s.lstate p ≠ 4
    let open_ := heard ∧ q.loop = false
    let kind := f.kind.toNat % 16
    let good := open_ ∧ frameCrcOk f = true ∧ q.partner = some f.epoch
    let u := s.fresh.fadd (.VBL_RXCOUNT p) VBL_RXCOUNT.GOOD 1
    let con := s.fget (.VBL_RX p) VBL_RX.CONSUMED
    let dist := (f.seq.toNat + 2 ^ 17 - con - 1) % 2 ^ 16
    let held := q.recv.any (fun e => e.1 = f.seq.toNat)
    (∀ x ∈ rows, (¬ heard ∨ (q.loop = true ∧ q.loopq.head? ≠ some f)) → exec x.1 s = .next (s.keepOuter x.2.2))
    ∧ (∀ x ∈ rows, open_ → frameCrcOk f = false → exec x.1 s = .next (s.keepOuter (x.2.2.fadd (.VBL_RXCOUNT p) VBL_RXCOUNT.CRC_BAD 1)))
    ∧ (∀ x ∈ rows, x.2.1 = min kind 6 → kind ≠ 5 → open_ → frameCrcOk f = true → q.partner ≠ some f.epoch → exec x.1 s = .next (s.keepOuter x.2.2))
    ∧ (good → kind = 0 → exec (.idleFrame p f) s = .next u)
    ∧ (good → kind = 1 → 49152 ≤ dist → ∃ t, exec (.dataFrame p f) s = .next t ∧ (t.port p).ctlDue = true ∧ (t.port p).recv = q.recv
        ∧ t.fget (.VBL_ERR p) VBL_ERR.DUP = (s.fget (.VBL_ERR p) VBL_ERR.DUP + 1) % 2 ^ 16)
    ∧ (good → kind = 1 → dist < 49152 → 16384 ≤ dist → exec (.dataFrame p f) s = .next (u.fadd (.VBL_ERR p) VBL_ERR.SEQ_ERR 1))
    ∧ (good → kind = 1 → dist < 16384 → held = false → ∃ t, exec (.dataFrame p f) s = .next t
        ∧ (t.port p).recv = q.recv ++ [(f.seq.toNat, { data := f.body.take f.valid.toNat, first := f.flags.getLsbD 0, last := f.flags.getLsbD 1 })]
        ∧ t.fget (.VBL_RX p) VBL_RX.HELD = (s.fget (.VBL_RX p) VBL_RX.HELD + 1) % 2 ^ 15 ∧ t.fget (.VBL_RX p) VBL_RX.CONSUMED = con ∧ sameMemory s t)
    ∧ (good → kind = 2 → leAt f.body 8 1 % 2 = 0 → (∀ i, i < 128 → leAt f.body (128 + i) 1 = 0) →
        let cred := s.fget (.VBL_TX p) VBL_TX.CRED
        let far (x : Nat) : Nat := (x + 2 ^ 16 - cred) % 2 ^ 16
        let c := leAt f.body 0 2
        let legal := far c ≤ (s.fget (.VBL_TX p) VBL_TX.NEXT + 2 ^ 17 - 1 - cred) % 2 ^ 16
        ∃ t, exec (.controlFrame p f z) s = .next t
          ∧ (legal → t.fget (.VBL_TX p) VBL_TX.CRED = c ∧ (t.port p).replay = q.replay.filter (fun r => far c < far r.seq.toNat))
          ∧ (¬ legal → t.fget (.VBL_TX p) VBL_TX.CRED = cred ∧ (t.port p).replay = q.replay
              ∧ t.fget (.VBL_ERR p) VBL_ERR.CTRL_RANGE = (s.fget (.VBL_ERR p) VBL_ERR.CTRL_RANGE + 1) % 2 ^ 16))
    ∧ (good → kind = 3 → ∃ (t : State) (ps : Nat), exec (.probeFrame p f z) s = .next t ∧ (t.port p).probeRx = some (BitVec.ofNat 16 (leAt f.body 0 2), ps)
        ∧ ps * 2 ^ 80 < r.fabric * 1000 + 2 ^ 80 ∧ r.fabric * 1000 < (ps + 1) * 2 ^ 80 ∧ (t.port p).ctlDue = true
        ∧ t.regs = (r.fadd (.VBL_RXCOUNT p) VBL_RXCOUNT.GOOD 1).regs)
    ∧ (good → kind = 4 → exec (.calFrame p f errors) s = .next (u.fadd (.VBL_PHY p) VBL_PHY.CAL_ERR errors))
    ∧ (good → kind = 5 → exec (.initFrame p f) s = .next u)
    ∧ (good → 5 < kind → exec (.reservedKindFrame p f) s = .next (u.fadd (.VBL_ERR p) VBL_ERR.KIND_BAD 1))
    ∧ (open_ → frameCrcOk f = true → kind = 5 → q.partner ≠ some f.epoch → s.lstate p ≠ 3 → leAt f.body 0 2 = 1 →
        ∃ t, exec (.initFrame p f) s = .next t ∧ (t.port p).partner = some f.epoch ∧ t.regs = u.regs)
    ∧ (open_ → frameCrcOk f = true → kind = 5 → q.partner ≠ some f.epoch → s.lstate p = 3 → exec (.initFrame p f) s
        = .next (s.keepOuter (u.breakRaise p (if leAt f.body 2 1 = 0 then 0x0A else leAt f.body 2 1))))

/-- Events of a link (R311, R324, R326, R329, R332 to R338): the next parcel in order is consumed and a whole packet of one parcel is
delivered; the timers make a control frame, a retransmission, and after their number of stages a probe or a calibration frame due; the
echo of a probe gives ONE_WAY_NS to the nearest ns, and one too far from the plan's sets LAT_DRIFT; a ninth retransmission, and credits
owed for too long, break the link and raise their fault; a break empties the buffers, counts, and leads to training or DOWN; trained lanes
open a new epoch and take LOOPBACK. What a break leaves is the model's choice (log entry 12), and so is the phase of the intervals (log
entry 87); events out of their condition are log entry 44. -/
def Obligations.LinkEvents : Prop :=
  ∀ (s : State) (p : Port), s.alive = true →
    let q := s.port p
    let want := (s.fget (.VBL_RX p) VBL_RX.CONSUMED + 1) % 2 ^ 16
    (∀ b, q.recv = [(want, b)] → b.first = true → b.last = true → ∃ t, exec (.parcelConsume p) s = .next t ∧ t.inbound = s.inbound ++ [(p, b.data)]
        ∧ (t.port p).recv = [] ∧ t.fget (.VBL_RX p) VBL_RX.CONSUMED = want ∧ sameMemory s t)
    ∧ ((∀ e ∈ q.recv, e.1 ≠ want) → exec (.parcelConsume p) s = .next s.fresh)
    ∧ (s.portPresent p = true → s.lstate p = 3 → exec (.controlFrameTimer p) s = .next (s.fresh.modPort p (fun t => { t with ctlDue := true })))
    ∧ (s.lstate p = 3 → exec (.probeInterval p) s = .next (if 2 ^ VBL_TIMERS.PROBE_LOG2.get q.timers ≤ q.probeAge
          then s.fresh.modPort p (fun t => { t with probeDue := true, probeAge := 0 }) else s.fresh)
        ∧ exec (.calInterval p) s = .next (if 2 ^ VBL_TIMERS.CAL_LOG2.get q.timers ≤ q.calAge
          then s.fresh.modPort p (fun t => { t with calDue := true, calAge := 0 }) else s.fresh))
    ∧ (∀ (tag : BitVec 16) (sent turn arrival : Nat), q.probeSent = some (tag, sent) →
        let t := s.echo p tag.toNat turn arrival
        let far := arrival - sent - turn
        let plan := s.fget (.VBL_LAT p) VBL_LAT.PLAN_NS
        let drift := VBL_TIMERS.DRIFT_NS.get q.timers
        ∃ w, 2 * w * 1000 ≤ far + 1000 ∧ far ≤ 2 * w * 1000 + 1000 ∧ t.fget (.VBL_LAT p) VBL_LAT.ONE_WAY_NS = w % 2 ^ VBL_LAT.ONE_WAY_NS.len
          ∧ (t.port p).probeSent = none
          ∧ (w < 2 ^ VBL_LAT.ONE_WAY_NS.len → 0 < plan → 0 < drift → (plan + drift < w ∨ w + drift < plan) → t.flag (.VBL_STATUS p) VBL_STATUS.LAT_DRIFT = true))
    ∧ (s.lstate p ≠ 3 → ∀ c ∈ [Instr.controlFrameTimer p, .probeInterval p, .calInterval p, .creditTimeout p], exec c s = .next s.fresh)
    ∧ (∀ r, q.replay = [r] → r.acked = false → r.queued = false →
        (r.retx < 8 → ∃ t, exec (.replayTimerExpire p r.seq) s = .next t ∧ (t.port p).replay = [{ r with queued := true }] ∧ t.regs = s.regs)
        ∧ (8 ≤ r.retx → exec (.replayTimerExpire p r.seq) s = .next (s.keepOuter (s.fresh.breakRaise p 0x0B))))
    ∧ (∀ n, (∀ r ∈ q.replay, r.seq ≠ n) → exec (.replayTimerExpire p n) s = .next s.fresh)
    ∧ (s.lstate p = 3 → 0 < s.outstanding p → exec (.creditTimeout p) s = .next (s.keepOuter (s.fresh.breakRaise p 0x0A)))
    ∧ (s.lstate p = 3 → s.outstanding p = 0 → exec (.creditTimeout p) s = .next s.fresh)
    ∧ (∀ cause, (s.breakLink p cause).lstate p = (if q.ctrl.getLsbD 1 = true ∧ s.stopped = false then 1 else 4)
        ∧ (s.breakLink p cause).fget (.VBL_STATUS p) VBL_STATUS.BREAKS = (s.fget (.VBL_STATUS p) VBL_STATUS.BREAKS + 1) % 2 ^ 32
        ∧ (let k := (s.breakLink p cause).port p
           k.replay = [] ∧ k.recv = [] ∧ k.txPlan = [] ∧ k.txLate = [] ∧ k.txService = [] ∧ k.txAnswer = [] ∧ k.partner = none))
    ∧ (s.portPresent p = true → s.lstate p = 1 → ∃ t, exec (.trainingComplete p) s = .next t ∧ t.lstate p = 2 ∧ t.locked p = true
        ∧ (t.port p).loop = s.flag (.VBL_CTRL p) VBL_CTRL.LOOPBACK
        ∧ t.fget (.VBL_STATUS p) VBL_STATUS.EPOCH = (s.fget (.VBL_STATUS p) VBL_STATUS.EPOCH + 1) % 2 ^ 16)
    ∧ ((s.portPresent p = false ∨ s.lstate p ≠ 1) → exec (.trainingComplete p) s = .next s.fresh)
    ∧ (∀ l : Lane, s.portPresent p = true → (∃ t, exec (.laneLockLoss p l) s = .next t ∧ (∀ i, i < 4 →
          (t.fget (.VBL_STATUS p) VBL_STATUS.LANE_LOCK).testBit i = ((s.fget (.VBL_STATUS p) VBL_STATUS.LANE_LOCK).testBit i && decide (i ≠ l.val))) ∧ sameRegsBut [.VBL_STATUS p] s t)
        ∧ (∃ t, exec (.laneLockRegain p l) s = .next t ∧ (∀ i, i < 4 →
          (t.fget (.VBL_STATUS p) VBL_STATUS.LANE_LOCK).testBit i = ((s.fget (.VBL_STATUS p) VBL_STATUS.LANE_LOCK).testBit i || decide (i = l.val))) ∧ sameRegsBut [.VBL_STATUS p] s t))

/-- Writes of a bank's owner and of a patch's release by the owner of the module or the Steward (R91, R108): a bank moves only to an agent's
code 0 to 7 while the tile's partition is halted or has no plan, with the count of remote writes from 0 for REMOTE, and is refused with
OWN_REJ otherwise; RELEASE is set only in an entry that is in use and not retired. A fused tile takes neither (R2). Writes of a channel's
control and ring registers by the owner (R278, R283): a share that would pass the limit of the mover, and one above
256, set SHARE_REJ; RUN without a descriptor ring and a completion ring bound, and a change of rings on a channel that is not idle, set BIND_REJ;
every other write takes effect, and TOTAL follows the shares. Writes of a link's control and of the routes by the owner, and a read of
VBL_CATCHUP (R68, R334, R335, R350, R351): ENABLE starts training on a port with a role, and ends the link when it is cleared; a port
without a role keeps ENABLE 0; an absent port takes no write and reads 0 (R2). The routes change only while no plan is loaded, and then no longer match a hash. The owner's read of
VBL_CATCHUP brings MAX back to WAITING. That a write of REMOTE restarts the count also
where REMOTE owns the bank is log entry 84. Fields out of range are log entry 49; a link that goes down is log entry 63. -/
def Obligations.OwnerWrites : Prop :=
  (∀ (s : State) (g : Gt) (k : Bank) (e : PatchEntry) (a : Acc), s.alive = true → s.mayWrite a.by_ = true → s.tilePresent g = true →
    let o := BANK_OWN.OWNER.get (accOver a (s.reg (.BANK_OWN g k)))
    (a.size ≠ .hi → o < 8 → s.tileIdle g = true → ∃ t, exec (.bankOwnWrite g k a) s = .next t ∧ t.fget (.BANK_OWN g k) BANK_OWN.OWNER = o
      ∧ t.fget (.BANK_OWN g k) BANK_OWN.RCOUNT = (if o = 7 then 0 else s.fget (.BANK_OWN g k) BANK_OWN.RCOUNT)
      ∧ sameRegsBut [.BANK_OWN g k] s t ∧ sameMemory s t ∧ t.tiles = s.tiles)
    ∧ (a.size ≠ .hi → (8 ≤ o ∨ s.tileIdle g = false) → exec (.bankOwnWrite g k a) s = .next (s.fresh.fset (.BANK_EVENT g) BANK_EVENT.OWN_REJ 1))
    ∧ exec (.patchReleaseRequest g e a) s
        = .next (if s.flag (.PATCH_MAP g e) PATCH_MAP.VALID = true ∧ s.flag (.PATCH_MAP g e) PATCH_MAP.RETIRED = false
            then s.fresh.setReg (.PATCH_MAP g e) ((Reg.PATCH_MAP g e).info.write (s.reg (.PATCH_MAP g e)) a) else s.fresh))
  ∧ (∀ (s : State) (i : Iod) (ch : IoCh) (a : Acc), s.alive = true → s.mayWrite a.by_ = true →
    let r := Reg.IDMA_CTRL i ch
    let v := r.info.write (s.reg r) a
    let share := IDMA_CTRL.SHARE.get v
    let total := s.shareTotal i - s.fget r IDMA_CTRL.SHARE + share
    let bound (n t e : Nat) : Prop := s.fget (.RING_CFG n) RING_CFG.TYPE = t ∧ s.fget (.RING_CFG n) RING_CFG.ESIZE = e
    let rings := bound (s.fget (.IDMA_RINGS i ch) IDMA_RINGS.DRING) 5 2 ∧ bound (s.fget (.IDMA_RINGS i ch) IDMA_RINGS.CRING) 3 0
    (∀ c ∈ [Instr.idmaRun i ch a, .idmaStop i ch a, .idmaShareWrite i ch a],
      ((256 < share ∨ (s.fget r IDMA_CTRL.SHARE < share ∧ s.fget (.IDMA_SUM i) IDMA_SUM.LIMIT < total)) →
          exec c s = .next (s.fresh.fset (.IDMA_EVENT i) IDMA_EVENT.SHARE_REJ 1))
      ∧ (share ≤ 256 → (share ≤ s.fget r IDMA_CTRL.SHARE ∨ total ≤ s.fget (.IDMA_SUM i) IDMA_SUM.LIMIT) →
          (a.size ≠ .hi → IDMA_CTRL.RUN.get v = 1 → ¬ rings → exec c s = .next (s.fresh.fset (.IDMA_EVENT i) IDMA_EVENT.BIND_REJ 1))
          ∧ ((a.size = .hi ∨ IDMA_CTRL.RUN.get v ≠ 1 ∨ rings) →
              exec c s = .next ((s.fresh.setReg r v).fset (.IDMA_SUM i) IDMA_SUM.TOTAL total))))
    ∧ exec (.idmaRingsWrite i ch a) s = .next (if s.ioState i ch = 0
        then s.fresh.setReg (.IDMA_RINGS i ch) ((Reg.IDMA_RINGS i ch).info.write (s.reg (.IDMA_RINGS i ch)) a)
        else s.fresh.fset (.IDMA_EVENT i) IDMA_EVENT.BIND_REJ 1))
  ∧ (∀ (s : State) (p : Port) (a : Acc), s.alive = true → s.mayWrite a.by_ = true →
    let v := (Reg.VBL_CTRL p).info.write (s.reg (.VBL_CTRL p)) a
    let here := s.portPresent p = true
    let role := s.img.roles.getD p 0 ≠ 0 ∧ here
    let w := s.fresh.setReg (.VBL_CTRL p) v
    (∀ c ∈ [Instr.vblEnable p a, .vblDisable p a],
      (role → VBL_CTRL.ENABLE.get v = 1 → exec c s = .next (if s.lstate p = 0 then w.setLstate p (if s.stopped then 4 else 1) else w))
      ∧ (role → VBL_CTRL.ENABLE.get v = 0 → ∃ t, exec c s = .next t ∧ t.reg (.VBL_CTRL p) = v ∧ t.lstate p = (if s.stopped then 4 else 0)
          ∧ (t.port p).replay = [] ∧ (t.port p).partner = none
          ∧ t.fget (.VBL_STATUS p) VBL_STATUS.BREAKS = (s.fget (.VBL_STATUS p) VBL_STATUS.BREAKS + (if s.lstate p = 3 then 1 else 0)) % 2 ^ 32)
      ∧ (here → ¬ role → exec c s = .next (s.fresh.setReg (.VBL_CTRL p) (VBL_CTRL.ENABLE.set v 0)))
      ∧ (¬ here → exec c s = .next s.fresh))
    ∧ (∀ r : RouteReg, exec (.routeTableWrite r a) s = .next (if s.loadedParts = []
        then (s.fresh.setReg (routeRegOf r) ((routeRegOf r).info.write (s.reg (routeRegOf r)) a)).fset .ROUTE_STATUS ROUTE_STATUS.HASH_VALID 0
        else s.fresh.fset .ROUTE_STATUS ROUTE_STATUS.ROUTE_REJ 1))
    ∧ (∀ (h : HostPort) (z : Sz), ¬ here → exec (.vblCatchupRead h p z) s = .next (s.fresh.emit (.read h 0)))
    ∧ (∀ (h : HostPort) (z : Sz), here → ∃ t, exec (.vblCatchupRead h p z) s = .next t ∧ t.out = [.read h (readPart z (s.reg (.VBL_CATCHUP p)))]
        ∧ t.fget (.VBL_CATCHUP p) VBL_CATCHUP.WAITING = s.fget (.VBL_CATCHUP p) VBL_CATCHUP.WAITING
        ∧ (s.owner = some h.val → t.fget (.VBL_CATCHUP p) VBL_CATCHUP.MAX = s.fget (.VBL_CATCHUP p) VBL_CATCHUP.WAITING)
        ∧ (s.owner ≠ some h.val → t.regs = s.regs)))

/-! The launch relay. -/

/-- Launch packets of the module's own launch (R353 to R357, R361 to R365). DATA from the parent lands in the delivery area and extends what
is held without a gap; the whole stream held makes the module report. The first HEARTBEAT names the parent. A GRAFT_REQ takes a free graft
slot, or is refused with its reason. A GRAFT_ACK of the grandparent that is asked makes it the parent, to which a module that holds the stream reports
again, and a GRAFT_NAK ends the graft. DONE of a child
stands in its slot, and the root adds the counts. Packets of another launch, and reserved kinds, are counted in FOREIGN. The states of the
relay are deduced (log entry 54). -/
def Obligations.LaunchPackets : Prop :=
  ∀ (s : State) (p : Port) (k : LaunchPkt), s.alive = true → s.flag .ROUTE_SELF ROUTE_SELF.SELF_VALID = true →
    let u := s.fresh.takeMgmt p (launchBytes k)
    let mine := s.rlyOn = true ∧ k.launchId.toNat = s.fget .RLY_CTRL RLY_CTRL.LAUNCH_ID
    let kind := k.kind.toNat
    let src := k.src.toNat
    let hasParent := s.flag .RLY_FAMILY RLY_FAMILY.HAS_PARENT
    let state := s.fget .RLY_STATUS RLY_STATUS.STATE
    let gp := s.fget .RLY_FAMILY RLY_FAMILY.GRANDPARENT
    let off := k.streamOff.toNat
    let base := s.fget .RLY_AREA RLY_AREA.BASE * 0x4000000
    (∀ h n, mine → kind = 0 → s.rlyRoot = false → s.children = [] → hasParent = true → s.fget .RLY_FAMILY RLY_FAMILY.PARENT = src → s.relay.spans = [(0, h)] →
        off = h → k.data ≠ [] → h + k.data.length ≤ s.fget .RLY_AREA RLY_AREA.SIZE * 0x4000000 → base + h + k.data.length ≤ dramSize → s.dramBad = [] →
        s.relay.len = some n → h + k.data.length < n → ∃ t, exec (.launchData p k) s = .next t
          ∧ t.fget .RLY_PROGRESS RLY_PROGRESS.HELD = (h + k.data.length) % 2 ^ 40 ∧ t.relay.spans = [(0, h + k.data.length)] ∧ t.relay.heard = true
          ∧ t.fget .RLY_STATUS RLY_STATUS.STATE = state
          ∧ (∀ i, i < k.data.length → memByte t.dram (base + h + i) = k.data.getD i 0)
          ∧ (∀ b, (b < base + h ∨ base + h + k.data.length ≤ b) → memByte t.dram b = memByte s.dram b) ∧ t.sram = s.sram)
    ∧ (mine → kind = 1 → s.rlyRoot = false → hasParent = false → s.relay.spans = [] → k.streamLen ≠ 0 → ∃ t, exec (.launchHeartbeat p k) s = .next t
        ∧ t.flag .RLY_FAMILY RLY_FAMILY.HAS_PARENT = true ∧ t.fget .RLY_FAMILY RLY_FAMILY.PARENT = src
        ∧ t.fget .RLY_FAMILY RLY_FAMILY.GRANDPARENT = k.grandparent.toNat ∧ t.fget .RLY_FAMILY RLY_FAMILY.DEPTH = min (k.depth.toNat + 1) 8
        ∧ t.relay.len = some k.streamLen.toNat ∧ sameMemory s t)
    ∧ (kind = 2 → let nak (n : Nat) : Res := .next (s.keepOuter (u.sendLaunch src 4 off [] n (id := some k.launchId)))
        let stranger := s.rlyRoot = true ∨ hasParent = false ∨ s.fget .RLY_FAMILY RLY_FAMILY.PARENT ≠ src
        ((s.rlyOn = false ∨ (mine ∧ stranger ∧ 8 ≤ s.rlyDepth)) → exec (.graftReq p k) s = nak 3)
        ∧ (mine → stranger → s.rlyDepth < 8 → (∀ c ∈ s.children, s.fget (.RLY_CHILD c) RLY_CHILD.MODULE ≠ src) →
            (off + 67108864 < s.relay.fwd → exec (.graftReq p k) s = nak 2)
            ∧ (s.relay.fwd ≤ off + 67108864 → (∀ c ∈ [4, 5, 6, 7], c ∈ s.children) → exec (.graftReq p k) s = nak 1)
            ∧ (s.relay.fwd ≤ off → 4 ∉ s.children → ∃ t, exec (.graftReq p k) s = .next t ∧ t.fget (.RLY_CHILD 4) RLY_CHILD.MODULE = src
                ∧ t.flag (.RLY_CHILD 4) RLY_CHILD.VALID = true ∧ t.flag (.RLY_CHILD 4) RLY_CHILD.GRAFTED = true ∧ t.fget (.RLY_CHILD 4) RLY_CHILD.COUNT = 0
                ∧ t = s.keepOuter ((u.setReg (.RLY_CHILD 4) (t.reg (.RLY_CHILD 4))).sendLaunch src 3 off))))
    ∧ (let asked := s.rlyRoot = false ∧ s.relay.graft = true ∧ gp = src ∧ hasParent = true ∧ s.fget .RLY_FAMILY RLY_FAMILY.PARENT ≠ src
       let holds := s.relay.len = some s.rlyHeld
       (mine → kind = 3 → asked → ∃ t, exec (.graftAck p k) s = .next t ∧ t.fget .RLY_FAMILY RLY_FAMILY.PARENT = src ∧ t.relay.graft = false
          ∧ (¬ holds → t.fget .RLY_STATUS RLY_STATUS.STATE = 1 ∧ t.relay.doneSent = none)
          ∧ (holds → t.fget .RLY_STATUS RLY_STATUS.STATE = 2 ∧ t.relay.doneSent = some s.rlySum))
       ∧ (mine → kind = 4 → asked →
          let v := ({ u with relay := { s.relay with graft := false } } : State).fset .RLY_STATUS RLY_STATUS.STATE (if holds then 2 else if s.relay.heard then 1 else 4)
          exec (.graftNak p k) s = .next (s.keepOuter (if s.relay.heard = true then v else (v.fset .RLY_STATUS RLY_STATUS.RELAY 1).raise { code := 0x16, cls := 0 }))))
    ∧ (∀ c, mine → kind = 5 → s.rlyRoot = true → s.children = [c] → c < 8 → s.fget (.RLY_CHILD c) RLY_CHILD.MODULE = src → ∃ t, exec (.launchDone p k) s = .next t
        ∧ t.fget (.RLY_CHILD c) RLY_CHILD.COUNT = k.count.toNat ∧ t.fget .RLY_STATUS RLY_STATUS.TOTAL = (1 + k.count.toNat) % 2 ^ 32
        ∧ sameRegsBut [.RLY_CHILD c, .RLY_STATUS] s t ∧ sameMemory s t)
    ∧ (mine → 5 < kind → exec (.launchReservedKind p k) s = .next (u.fadd .ROUTE_COUNT ROUTE_COUNT.FOREIGN 1))
    ∧ (s.rlyOn = true → ¬ mine → ∀ x ∈ [(Instr.launchData p k, 0), (.launchHeartbeat p k, 1), (.graftReq p k, 2), (.graftAck p k, 3), (.graftNak p k, 4),
        (.launchDone p k, 5), (.launchReservedKind p k, 6)], x.2 = min kind 6 → exec x.1 s = .next (u.fadd .ROUTE_COUNT ROUTE_COUNT.FOREIGN 1))

/-- Timers and writes of the relay (R354, R358 to R360, R362, R363, R365, R366): a heartbeat to a child, at every depth; the silence of a parent asks the
grandparent for a graft, or without one fails, as a graft does that ends with the parent still silent; the root sends the stream that host
software has placed, and raises RELAY when fewer than expected have reported in time. ENABLE begins a launch and its end leaves nothing of
it. The states of the relay are deduced (log entry 54). -/
def Obligations.RelayTimers : Prop :=
  ∀ s : State, s.alive = true →
    let on := s.rlyOn = true
    let root := s.rlyRoot = true
    let state := s.fget .RLY_STATUS RLY_STATUS.STATE
    let family (f : Fld) : Nat := s.fget .RLY_FAMILY f
    let relay (u : State) : State := (u.fset .RLY_STATUS RLY_STATUS.RELAY 1).raise { code := 0x16, cls := 0 }
    let len := s.fget .RLY_FEED RLY_FEED.LEN
    let placed := min (s.fget .RLY_FEED RLY_FEED.AVAIL * 65536) len
    (∀ c : ChildSlot, exec (.heartbeatTimer c) s = .next (if on ∧ s.flag (.RLY_CHILD c) RLY_CHILD.VALID = true
        then s.keepOuter (s.fresh.sendLaunch (s.fget (.RLY_CHILD c) RLY_CHILD.MODULE) 1 s.rlyHeld) else s.fresh))
    ∧ ((¬ on ∨ root ∨ state ≠ 1 ∨ family RLY_FAMILY.HAS_PARENT = 0) → exec .silenceTimeout s = .next s.fresh)
    ∧ (on → ¬ root → state = 1 → family RLY_FAMILY.HAS_PARENT = 1 → family RLY_FAMILY.HAS_GP = 0 → exec .silenceTimeout s
        = .next (s.keepOuter (relay (s.fresh.fset .RLY_STATUS RLY_STATUS.STATE 4))))
    ∧ (on → ¬ root → state = 1 → family RLY_FAMILY.HAS_PARENT = 1 → family RLY_FAMILY.HAS_GP = 1 → ∃ t, exec .silenceTimeout s = .next t
        ∧ t.fget .RLY_STATUS RLY_STATUS.STATE = 3 ∧ t.relay.heard = false ∧ t.relay.graft = true ∧ sameMemory s t
        ∧ t.out = (s.fresh.sendLaunch (family RLY_FAMILY.GRANDPARENT) 2 s.rlyHeld (parent := some (family RLY_FAMILY.PARENT))).out)
    ∧ (on → s.relay.graft = true →
        let v := ({ s.fresh with relay := { s.relay with graft := false } } : State).fset .RLY_STATUS RLY_STATUS.STATE
          (if s.relay.len = some s.rlyHeld then 2 else if s.relay.heard then 1 else 4)
        exec .graftTimeout s = .next (s.keepOuter (if s.relay.heard = true then v else relay v)))
    ∧ ((¬ on ∨ s.relay.graft = false) → exec .graftTimeout s = .next s.fresh)
    ∧ (on → root → s.children = [] → s.dramBad = [] → s.relay.sent < placed → ∃ t, exec .rootSendPacket s = .next t ∧ sameMemory s t
        ∧ t.relay.sent = min (s.relay.sent + 4064) placed ∧ (t.relay.timerOn = true ↔ t.relay.sent = len)
        ∧ t.fget .RLY_STATUS RLY_STATUS.STATE = (if t.relay.sent = len then 2 else state))
    ∧ ((¬ on ∨ ¬ root ∨ (placed ≤ s.relay.sent ∧ len ≠ 0)) → exec .rootSendPacket s = .next s.fresh)
    ∧ (on → root → s.relay.timerOn = true → s.fget .RLY_EXPECT RLY_EXPECT.DONE_MS ≠ 0 →
        let u : State := { s.fresh with relay := { s.relay with timerOn := false } }
        exec .doneTimerExpire s = .next (if s.fget .RLY_STATUS RLY_STATUS.TOTAL < s.fget .RLY_EXPECT RLY_EXPECT.EXPECT
          then relay u else u))
    ∧ (∀ a : Acc, s.mayWrite a.by_ = true →
        let v := Reg.RLY_FEED.info.write (s.reg .RLY_FEED) a
        let w := Reg.RLY_CTRL.info.write (s.reg .RLY_CTRL) a
        (¬ on → RLY_FEED.AVAIL.get (s.reg .RLY_FEED) ≤ RLY_FEED.AVAIL.get v → exec (.rlyFeedWrite a) s = .next (s.fresh.setReg .RLY_FEED v))
        ∧ (¬ on → RLY_CTRL.ENABLE.get w = 1 → RLY_CTRL.ROOT.get w = 0 → 100 ≤ RLY_CTRL.TIMEOUT_US.get w →
            exec (.relayEnable a) s = .next ((s.fresh.setReg .RLY_CTRL w).fset .RLY_STATUS RLY_STATUS.STATE 1))
        ∧ (on → RLY_CTRL.ENABLE.get w = 0 → ∃ t, exec (.relayDisable a) s = .next t ∧ t.rlyOn = false ∧ t.relay = {} ∧ t.reg .RLY_FAMILY = 0
            ∧ t.reg .RLY_PROGRESS = 0 ∧ (∀ c ∈ [4, 5, 6, 7], t.reg (.RLY_CHILD c) = 0) ∧ (∀ c ∈ [0, 1, 2, 3], t.fget (.RLY_CHILD c) RLY_CHILD.COUNT = 0)
            ∧ t.fget .RLY_STATUS RLY_STATUS.STATE = 0 ∧ t.fget .RLY_STATUS RLY_STATUS.TOTAL = 0))

/-! Serving. -/

/-- The commands of the admission unit (R394 to R396, R426, R430, R433, R441, R442, R445, R451, R452), for a home with a serving plan whose
event records are held: the unit takes the entry from its ring and answers it with an event record that holds the first status of the
table that applies, and CMD_REJ is set where that is not OK. NOP has no record, and a switch and a capture have theirs when they take
effect. A ring from which the unit does not take its next command is left alone, and so is one in LPDDR5X whose next 64 bytes spell
another command than the row's (R388, R394). The order of the checks with reserved bits is log entry 58, and when commands are taken log
entries 61 and 103. -/
def Obligations.AduCommands : Prop :=
  ∀ (s : State) (c : CmdRing) (pl : Plan), s.alive = true → s.servePlan = some pl → s.isMember = false → s.flag .ADU_CTRL ADU_CTRL.EVENT_EN = false →
    (∀ e ∈ s.adu.reqs, e.2.state ≠ 5) → s.dramBad = [] →
    let ring := (s.cmdRing c).1
    let took (t : State) : Prop := t.fget (.RING_IDX ring) RING_IDX.CONS = (s.fget (.RING_IDX ring) RING_IDX.CONS + 1) % 2 ^ 32
    let answered (t : State) (code op req : Nat) : Prop :=
      took t ∧ (code ≠ 0 → t.flag .ADU_STATUS ADU_STATUS.CMD_REJ = true)
      ∧ t.adu.held = [[1, BitVec.ofNat 8 code, BitVec.ofNat 8 op, 0] ++ toLe 4 req ++ toLe 4 (s.stage % 2 ^ 32) ++ toLe 4 0 ++ List.replicate 16 0]
    let waits (t : State) : Prop := took t ∧ t.adu.held = [] ∧ t.adu.reqs = s.adu.reqs
    let none_ := 0xFFFFFFFF
    let at_ := ((s.reg (.RING_BASE ring)).toNat + s.fget (.RING_IDX ring) RING_IDX.CONS % s.ringSize ring * 64) % 2 ^ 40
    let named (op : Nat) (k : CmdOps) : Prop := s.fget (.RING_CFG ring) RING_CFG.KIND ≠ 1 ∨ cmdMatches (memRead s.dram at_ 64) op k = true
    let ops (b : BitVec 16) (d : BitVec 32) (e : BitVec 32) (f g : BitVec 16) (a : Word) : AduOps := ⟨0, b, d, e, f, g, a, 0⟩
    (∀ (o : AduOps) (q : SubmitOps) (op : Byte), ∀ i ∈ [(Instr.nop c, 0, CmdOps.bare), (.submit c q, 1, .submit q), (.wsSwitch c o, 0x10, .adu o),
        (.adSwitch c o, 0x11, .adu o), (.adClear c o, 0x12, .adu o), (.lpRegister c o, 0x13, .adu o), (.lpRelease c o, 0x14, .adu o),
        (.spRegister c o, 0x15, .adu o), (.spCapture c o, 0x16, .adu o), (.spRelease c o, 0x17, .adu o), (.aduReservedOpcode c op, op.toNat, .bare)],
      (s.takes c = false ∨ ¬ named i.2.1 i.2.2) → exec i.1 s = .next s.fresh)
    ∧ (s.takes c = true →
      (named 0 .bare → ∃ t, exec (.nop c) s = .next t ∧ waits t)
      ∧ (∀ op : Byte, opReserved op.toNat = true → named op.toNat .bare → ∃ t, exec (.aduReservedOpcode c op) s = .next t ∧ answered t 1 op.toNat none_)
      ∧ (∀ o : AduOps, o.b1 ≠ 0 → ∀ i ∈ [(Instr.wsSwitch c o, 0x10), (.adSwitch c o, 0x11), (.adClear c o, 0x12), (.lpRegister c o, 0x13), (.lpRelease c o, 0x14),
          (.spRegister c o, 0x15), (.spRelease c o, 0x17)], named i.2 (.adu o) → ∃ t, exec i.1 s = .next t ∧ answered t 2 i.2 none_ ∧ t.adu.reqs = s.adu.reqs)
      ∧ (∀ w : BitVec 16, let r := Reg.WS_STATE w.toNat
          let code := if 64 ≤ w.toNat then 4 else if s.flag r WS_STATE.VALID = false ∨ s.flag r WS_STATE.TWO = false then 12
            else if s.flag r WS_STATE.PENDING = true then 11 else 0
          named 0x10 (.adu (ops w 0 0 0 0 0)) → ∃ t, exec (.wsSwitch c (ops w 0 0 0 0 0)) s = .next t ∧ (code ≠ 0 → answered t code 0x10 none_)
            ∧ (code = 0 → waits t ∧ t.flag r WS_STATE.PENDING = true ∧ t.adu.switches = s.adu.switches ++ [.ws w.toNat]))
      ∧ (∀ x : BitVec 16, let r := Reg.AD_STATE x.toNat
          let code := if 256 ≤ x.toNat then 4 else if s.flag r AD_STATE.PENDING = true ∨ s.fget r AD_STATE.STATE = 2 then 11 else 0
          let used := if 256 ≤ x.toNat then 4 else if s.flag r AD_STATE.PENDING = true ∨ (s.adu.reqs.any (fun e => e.2.names x.toNat)) = true then 11 else 0
          (named 0x11 (.adu (ops x 0 0 0 0 0)) → ∃ t, exec (.adSwitch c (ops x 0 0 0 0 0)) s = .next t ∧ (code ≠ 0 → answered t code 0x11 none_)
            ∧ (code = 0 → waits t ∧ t.flag r AD_STATE.PENDING = true ∧ t.adu.switches = s.adu.switches ++ [.ad x.toNat]))
          ∧ (named 0x12 (.adu (ops x 0 0 0 0 0)) → ∃ t, exec (.adClear c (ops x 0 0 0 0 0)) s = .next t ∧ answered t used 0x12 none_
            ∧ (used = 0 → t.fget r AD_STATE.STATE = 0 ∧ t.fget r AD_STATE.GEN = s.fget r AD_STATE.GEN)))
      ∧ (∀ l : BitVec 16, let r := Reg.LP_STATE l.toNat
          let code := if 1024 ≤ l.toNat then 4 else if s.flag r LP_STATE.VALID = false ∨ s.flag r LP_STATE.RELEASED = true then 12 else 0
          named 0x14 (.adu (ops l 0 0 0 0 0)) → ∃ t, exec (.lpRelease c (ops l 0 0 0 0 0)) s = .next t ∧ answered t code 0x14 none_
            ∧ (code = 0 → s.fget r LP_STATE.REFS ≠ 0 → t.reg r = LP_STATE.RELEASED.set (s.reg r) 1) ∧ (code = 0 → s.fget r LP_STATE.REFS = 0 → t.reg r = 0))
      ∧ (∀ h : BitVec 32, let r := Reg.SP_STATE h.toNat
          let code := if 65536 ≤ h.toNat then 4 else if s.flag r SP_STATE.VALID = false ∨ s.flag r SP_STATE.RELEASED = true then 12 else 0
          named 0x17 (.adu (ops 0 h 0 0 0 0)) → ∃ t, exec (.spRelease c (ops 0 h 0 0 0 0)) s = .next t ∧ answered t code 0x17 none_
            ∧ (code = 0 → s.fget r SP_STATE.REFS ≠ 0 → t.reg r = SP_STATE.RELEASED.set (s.reg r) 1) ∧ (code = 0 → s.fget r SP_STATE.REFS = 0 → t.reg r = 0))
      ∧ (∀ (l : BitVec 16) (len : BitVec 32) (off : Word), let r := Reg.LP_STATE l.toNat
          let f := memNat s.dram off.toNat 4
          len.toNat ≤ 256 → off.toNat + 4 ≤ dramSize →
          let code := if 1024 ≤ l.toNat ∨ len = 0 then 4 else if s.flag r LP_STATE.VALID = true then 12 else if s.frameFree pl f = false then 13 else 0
          named 0x13 (.adu (ops l len 0 0 0 off)) → ∃ t, exec (.lpRegister c (ops l len 0 0 0 off)) s = .next t ∧ answered t code 0x13 none_
            ∧ (code = 0 → t.flag r LP_STATE.VALID = true ∧ t.fget r LP_STATE.LEN = len.toNat ∧ t.fget r LP_STATE.REFS = 0 ∧ f ∈ t.adu.regUsed ∧ t.lpFramesOf l.toNat = [f]))
      ∧ (∀ (h f : BitVec 32) (fill lp : BitVec 16), let r := Reg.SP_STATE h.toNat
          let code := if 65536 ≤ h.toNat ∨ fill = 0 ∨ 256 < fill.toNat ∨ (lp.getLsbD 15 = false ∧ 1024 ≤ lp.toNat) then 4
            else if s.flag r SP_STATE.VALID = true then 12 else if s.frameFree pl f.toNat = false then 13 else 0
          named 0x15 (.adu (ops 0 h f fill lp 0)) → ∃ t, exec (.spRegister c (ops 0 h f fill lp 0)) s = .next t ∧ answered t code 0x15 none_
            ∧ (code = 0 → f.toNat < 2 ^ 23 → t.fget r SP_STATE.FRAME = f.toNat ∧ t.fget r SP_STATE.FILL = fill.toNat ∧ t.flag r SP_STATE.VALID = true
              ∧ t.fget r SP_STATE.REFS = 0 ∧ t.flag r SP_STATE.LP_NONE = lp.getLsbD 15 ∧ f.toNat ∈ t.adu.regUsed))
      ∧ (∀ q first : BitVec 32, let r := s.req q.toNat
          q.toNat < 262144 → (r.state = 1 ∨ r.state = 2) → r.prefixLen = 0 → r.maxNew = 0 → 2 ≤ r.promptLen.toNat → pl.group.1 ≤ 1 →
          (∀ e ∈ s.adu.captures, e.1 ≠ q.toNat) → first.toNat + r.capPages ≤ 65536 → 0 < r.capPages → s.handlesFree first.toNat r.capPages = true →
          named 0x16 (.adu (ops 0 q first 0 0 0)) → ∃ t, exec (.spCapture c (ops 0 q first 0 0 0)) s = .next t ∧ waits t ∧ t.adu.captures = s.adu.captures ++ [(q.toNat, first.toNat)])
      ∧ (∀ o : SubmitOps, o.flags = 0 → o.tail = 0 → o.lpset.getLsbD 15 = true → o.prefixLen = 0 →
          let q := o.req.toNat
          let bare := o.adapter.getLsbD 15
          let code := if 262144 ≤ q ∨ 4096 ≤ o.account.toNat ∨ (bare = false ∧ 256 ≤ o.adapter.toNat) then 4 else if (s.req q).state ≠ 0 then 5
            else if s.ringIs o.ring.toNat 1 = false ∨ s.flag (.RING_CFG o.ring.toNat) RING_CFG.BOUND = true then 6
            else if s.acctCfg o.account.toNat ACCT_CFG.WEIGHT = 0 then 7
            else if o.promptLen = 0 ∨ pl.posLimit < o.promptLen.toNat + o.maxNew.toNat then 8
            else if bare = false ∧ s.fget (.AD_STATE o.adapter.toNat) AD_STATE.STATE = 0 then 10 else 0
          named 1 (.submit o) → ∃ t, exec (.submit c o) s = .next t ∧ answered t code 1 q ∧ (code ≠ 0 → t.adu.reqs = s.adu.reqs)
            ∧ (code = 0 → let r := t.req q
                r.state = 1 ∧ r.account = o.account ∧ r.ring = o.ring ∧ r.promptLen = o.promptLen ∧ r.known = o.promptLen ∧ r.commit = 0 ∧ r.nextFill = 0
                ∧ r.maxNew = o.maxNew ∧ r.stopId = o.stopId ∧ r.seed = o.seed ∧ r.seq = 0 ∧ r.seat = 0xFFFF
                ∧ memRead t.dram (s.img.aduOff + q * 128) 128 = reqBytes r ∧ t.flag (.RING_CFG o.ring.toNat) RING_CFG.BOUND = true
                ∧ t.fget (.RING_CFG o.ring.toNat) RING_CFG.REQ = q
                ∧ t.fget .ADU_STATUS ADU_STATUS.SUBMITS = (s.fget .ADU_STATUS ADU_STATUS.SUBMITS + 1) % 2 ^ 32)))

/-- Rings, accounts and what the admission unit shows (R390 to R392, R398, R406, R418, R419, R435, R474): writes of a ring's configuration and
indices within their rules; the write of a balance waits for a seating point; a cancelled request ends with reason 3; an immediate clear
lands; held event records go out when their ring has room. Accounts before the first seating point are log entry 59, pages that come free
log entry 62. -/
def Obligations.RingsAndAccounts : Prop :=
  ∀ (s : State) (a : Acc), s.alive = true → s.mayWrite a.by_ = true →
    (∀ n : RingIx, let r := Reg.RING_CFG n
      let v := r.info.write (s.reg r) a
      let keeps (w : Word) : Word := RING_CFG.VECTOR.set (RING_CFG.IRQ_EN.set w (RING_CFG.IRQ_EN.get v)) (RING_CFG.VECTOR.get v)
      exec (.ringCfgWrite n a) s = .next (
        if s.flag r RING_CFG.ENABLE = true ∧ RING_CFG.ENABLE.get v = 1 then s.fresh.setReg r (keeps (s.reg r))
        else if s.flag r RING_CFG.ENABLE = true ∧ s.fget r RING_CFG.TYPE = 1 ∧ s.flag r RING_CFG.BOUND = true then s.fresh.fset (.RING_STAT n) RING_STAT.CFG_REJ 1
        else if s.flag r RING_CFG.ENABLE = true then s.fresh.setReg r (keeps (RING_CFG.ENABLE.set (s.reg r) 0))
        else if RING_CFG.ENABLE.get v = 0 then s.fresh.setReg r v
        else if ringCfgOk v (s.reg (.RING_BASE n)) = true then (s.fresh.setReg r v).setReg (.RING_IDX n) 0
        else s.fresh.fset (.RING_STAT n) RING_STAT.CFG_REJ 1))
    ∧ (∀ n : RingIx, a.size ≠ .lo → s.fget (.RING_CFG n) RING_CFG.TYPE ∈ [1, 3, 4] →
      let new := RING_IDX.CONS.get (accOver a (s.reg (.RING_IDX n)))
      exec (.ringConsWrite n a) s = .next (if (new + 2 ^ 32 - s.fget (.RING_IDX n) RING_IDX.CONS) % 2 ^ 32 ≤ s.ringHeld n
        then s.fresh.fset (.RING_IDX n) RING_IDX.CONS new else s.fresh.fadd (.RING_STAT n) RING_STAT.IDX_REJ 1))
    ∧ (∀ n : RingIx, (a.size = .lo ∨ s.fget (.RING_CFG n) RING_CFG.TYPE ∉ [1, 3, 4]) → exec (.ringConsWrite n a) s = .next s.fresh)
    ∧ (∀ n : RingIx, a.size ≠ .hi → s.boot_ ≠ 0 →
      let new := a.val.toNat % 2 ^ 32
      exec (.doorbellWrite n a) s = .next (if (s.ringIs n 2 = true ∨ s.ringIs n 5 = true)
          ∧ (new + 2 ^ 32 - s.fget (.RING_IDX n) RING_IDX.PROD) % 2 ^ 32 ≤ s.ringSize n - s.ringHeld n
        then s.fresh.fset (.RING_IDX n) RING_IDX.PROD new else s.fresh.fadd (.RING_STAT n) RING_STAT.IDX_REJ 1))
    ∧ (∀ n : Account, ∃ t, exec (.acctBalWrite n a) s = .next t ∧ t.regs = s.regs
        ∧ (tget 0 s.adu.balWrites n = 0 → tget 0 t.adu.balWrites n = ((Reg.ACCT_BAL n).info.write (s.reg (.ACCT_BAL n)) a).toNat + 1))
    ∧ (∀ n : Account, let v := (Reg.ACCT_CFG n).info.write (s.reg (.ACCT_CFG n)) a
      1 ≤ ACCT_CFG.PWEIGHT.get v → ACCT_CFG.PWEIGHT.get v ≤ 16 → exec (.acctCfgWrite n a) s = .next (s.fresh.setReg (.ACCT_CFG n) v))
    ∧ (∀ (w : CancelWord) (j : Fin 64), let q := w.val * 64 + j.val
      let r := s.req q
      a.size = .full → a.val = BitVec.ofNat 64 (2 ^ j.val) →
      ((r.state = 0 ∨ r.state = 5) → exec (.aduCancelWrite w a) s = .next s.fresh.aduRefresh)
      ∧ (1 ≤ r.state → r.state < 5 → r.finalOut = false → s.boundNow q = [] → s.adu.recs = [] → s.aduRoom r.ring.toNat 1 = false → s.dramBad = [] →
          s.flag .ADU_CTRL ADU_CTRL.EVENT_EN = false → (∀ e ∈ s.adu.reqs, e.2.state ≠ 5) → ∃ t, exec (.aduCancelWrite w a) s = .next t
            ∧ (t.req q).state = 5 ∧ (t.req q).reason = 3 ∧ (t.req q).spill.length = r.spill.length + 1 ∧ (t.reg (.ADU_CANCEL w)).getLsbD j = true
            ∧ t.adu.held.length = s.adu.held.length + 1))
    ∧ (∀ (g : Gt) (i : Fin 8192), (s.tile g).clears = [[i]] → ∃ t, exec (.immediateClearLand g [i]) s = .next t ∧ (t.tile g).clears = []
        ∧ (∀ k, k < 64 → (t.reg (.SEAT_PRED g (i.val / 64))).getLsbD k = ((s.reg (.SEAT_PRED g (i.val / 64))).getLsbD k && decide (k ≠ i.val % 64)))
        ∧ sameRegsBut [.SEAT_PRED g (i.val / 64)] s t ∧ sameMemory s t)
    ∧ (∀ (g : Gt) (l : SeatList), l ∉ (s.tile g).clears → exec (.immediateClearLand g l) s = .next s.fresh)
    ∧ (∀ b, s.adu.held = [b] → exec .eventRingResume s = .next (s.keepOuter
        (if s.flag .ADU_CTRL ADU_CTRL.EVENT_EN = true ∧ s.aduRoom s.eventRing 4 = true
          then (({ s.fresh with adu := { s.adu with held := [] } } : State).ringPut s.eventRing b).aduRefresh else s.fresh.aduRefresh)))
    ∧ (s.adu.held = [] → exec .eventRingResume s = .next s.fresh.aduRefresh)
    ∧ (∀ (p : HostPort) (z : Sz), ∃ t, exec (.kvPoolRead p z) s = .next t ∧ t.out = [.read p (readPart z (s.reg .KV_POOL))] ∧ t.fget .KV_POOL KV_POOL.FREE = s.fget .KV_POOL KV_POOL.FREE
        ∧ (s.owner = some p.val → t.fget .KV_POOL KV_POOL.MIN_FREE = s.fget .KV_POOL KV_POOL.FREE) ∧ (s.owner ≠ some p.val → t.regs = s.regs))

/-- Mirror packets (R340, R341, R437, R448, R449, R542): a management packet for the module with OFFSET 2, whose payload names its kind. At a
member, a binding record joins its round and is written to the binding half while the pool has frames for its pages, and is an empty
seat's there when the pool runs dry; the selector half issues the round write once; an end notice returns the frames of its requests; and
an immediate clear is on its way to every tile. At a module that is no member they change nothing that the admission unit holds; one for
another module is counted in FOREIGN, and while SELF_VALID is 0 every packet is discarded. Page tables at a member are log entry 36, a dry
pool there is log entry 102. -/
def Obligations.MirrorPackets : Prop :=
  ∀ (s : State) (port : Port) (k : Packet), s.alive = true → s.dramBad = [] →
    let a := k.hdr.ga.toNat
    k.hdr.opc = 8 → gaSpace a = 1 → gaDram a = 2 → gaZeros a = true → 32 ≤ k.payload.length →
    let m := mirrorOf k.payload
    let kind := leAt k.payload 8 1
    let u := s.fresh.takeInbound port (pktBytes k)
    let valid := s.flag .ROUTE_SELF ROUTE_SELF.SELF_VALID = true
    let mine := valid ∧ gaModule a = s.self
    let r := m.round.toNat
    let x := s.memberRound r
    (∀ i ∈ [(Instr.mirrorBinding port k, 0), (.mirrorSelector port k, 1), (.mirrorEndNotice port k, 2), (.mirrorImmediateClear port k, 3)], kind = i.2 →
      let shown (v : State) : State := if i.2 % 2 = 0 then v.aduRefresh else v
      (¬ valid → exec i.1 s = .next (shown u))
      ∧ (valid → gaModule a ≠ s.self → s.isGroup (gaModule a) = false → exec i.1 s = .next (shown (u.fadd .ROUTE_COUNT ROUTE_COUNT.FOREIGN 1)))
      ∧ (mine → s.isMember = false → exec i.1 s = .next (shown u)))
    ∧ (∀ p pl rt, mine → s.serving = some (p, pl, rt) → s.isMember = true →
      (∀ b : Binding, kind = 0 → b = { seat := m.first.toNat, req := leAt m.records 0 4, prefill := decide (leAt m.records 4 1 = 1), active := decide (leAt m.records 5 1 = 1), start := leAt m.records 8 4, count := leAt m.records 12 4, seed := BitVec.ofNat 64 (leAt m.records 24 8), charge := 0 } →
          m.records.length = 64 →
          let at_ := if b.prefill then b.start else b.start - 1
          let pages := pl.pages at_ (at_ + b.count - 1)
          (pl.privBase + s.adu.privUsed.length + pages.length ≤ pl.frames → ∃ t, exec (.mirrorBinding port k) s = .next t
            ∧ (t.memberRound r).bindings = x.bindings ++ [b] ∧ (t.memberRound r).issued = x.issued ∧ t.sram = s.sram)
          ∧ (∀ j, pl.frames ≤ pl.privBase → pages = [j] → j < pl.stretch / 256 → b.req ∉ s.adu.tables → ∃ t, exec (.mirrorBinding port k) s = .next t
            ∧ (t.memberRound r).bindings = x.bindings ∧ t.flag .WT_EVENT WT_EVENT.POOL_DRY = true
            ∧ memRead t.dram (s.bindingOff r + b.seat * 64) 64 = emptyBinding))
      ∧ (kind = 1 → x.bindings ≠ [] → x.issued = false →
          let v := u.aduWrite (pl.selBase + r % 2 * 0x200) (m.records.take 512)
          exec (.mirrorSelector port k) s = .next (s.keepOuter ((v.issueRound p (v.roundStage p rt r) x.bindings).putRound { x with issued := true })))
      ∧ (kind = 2 → m.count = 1 → ∃ t, exec (.mirrorEndNotice port k) s = .next t
          ∧ t.adu.privUsed = s.adu.privUsed.filter (fun e => e.2 != leAt m.records 0 4 + 1) ∧ t.adu.tables = s.adu.tables.filter (· != leAt m.records 0 4)
          ∧ sameMemory s t)
      ∧ (kind = 3 → ∃ t, exec (.mirrorImmediateClear port k) s = .next t ∧ t = { u with tiles := t.tiles } ∧ (∀ g ∈ s.partTiles p, s.tilePresent g = true → (s.partTiles p).Nodup →
          (t.tile g).clears = (s.tile g).clears ++ [(List.range m.count.toNat).map (fun i => Fin.ofNat 8192 (leAt m.records (2 * i) 2))])))

/-! Start-up, loads, the Steward, recovery and attestation. -/

/-- Calibration and the firmware's report (R41, R81, R478, R485): with every phase passed the module is ready for firmware, its banks and
LPDDR5X hold zeros and no error, and every crossing's fill stands at 8; a phase that fails leaves FAILED with its number. The firmware reports while it is verified, or is late. In any
other boot state these events change nothing. Events out of their condition are log entry 44, the end of calibration log entry 69. -/
def Obligations.BootEvents : Prop :=
  ∀ s : State, s.alive = true →
    (∀ c : CalResult, s.boot_ = 0 → c.failed = none → ∃ t, exec (.calibrationComplete c) s = .next t ∧ t.boot_ = 1 ∧ t.sram = [] ∧ t.sramBad = [] ∧ t.dram = []
        ∧ t.dramBad = [] ∧ t.fget .BOOT_STATE BOOT_STATE.CAUSE = 0 ∧ t.fget .BOOT_STATE BOOT_STATE.CAL_MS = c.calMs.toNat
        ∧ (∀ i : Iod, t.flag (.DR_STATUS i) DR_STATUS.TRAINED = true ∧ t.flag (.DR_STATUS i) DR_STATUS.ZEROED = true)
        ∧ (∀ x : Xing, t.fget (.XING_FILL x) XING_FILL.FILL = 8))
    ∧ (∀ (c : CalResult) (k : Fin 5), s.boot_ = 0 → c.failed = some k → ∃ t, exec (.calibrationComplete c) s = .next t ∧ t.boot_ = 7
        ∧ t.fget .BOOT_STATE BOOT_STATE.CAUSE = k.val + 1 ∧ t.alive = false ∧ t.flag .FLT_STATUS FLT_STATUS.FAULT_N = true
        ∧ (k.val < 3 → t.sram = s.sram) ∧ (k.val < 4 → t.dram = s.dram))
    ∧ (s.boot_ ≠ 0 → ∀ c, exec (.calibrationComplete c) s = .next s.fresh)
    ∧ (s.boot_ = 2 → (∃ t, exec (.firmwareReady []) s = .next t ∧ t.boot_ = 3 ∧ ∀ n : SrcIx, n.val ≠ 610 → t.src n = s.src n)
        ∧ (∀ n prio target, n.val ≤ 605 → target.toNat < 4 → ∃ t, exec (.firmwareReady [(n, prio, target)]) s = .next t ∧ t.boot_ = 3
            ∧ (t.src n).prio = prio ∧ (t.src n).target = target ∧ (t.src n).pend = (s.src n).pend)
        ∧ ∃ t, exec .firmwareReadyTimeout s = .next t ∧ t.boot_ = 7 ∧ t.fget .BOOT_STATE BOOT_STATE.CAUSE = 6)
    ∧ (s.boot_ ≠ 2 → (∀ l, exec (.firmwareReady l) s = .next s.fresh) ∧ exec .firmwareReadyTimeout s = .next s.fresh)

/-- Loads (R479 to R483, R485, R491, R494, R495, R526) by the owner: before calibration ends, and while a load is in progress, a write of GO
is refused with LOAD_REJ; a kind that the boot state does not allow ends with STATE, and bytes out of range with RANGE; any other load
runs its checks on its bytes, at a moment of the stage in progress. It ends at LOAD_END: refused with its status, or committed whole: a
firmware payload stands at the start of Steward memory and the four cores start at ENTRY; a plan's packets count from 0, and one whose
epoch has passed by then, or whose fabric time is unset again, is refused with TIME (R383, R385). UNLOAD halts a RUNNING partition and
empties another. When a load reads its bytes is deduced (log entry 67), the end of UNLOAD (log entry 70), the time at load (log entry
107) and the address ENTRY (log entry 104) too; that the I/O-die channels' packets count from 0 again is log entry 106. -/
def Obligations.Loads : Prop :=
  ∀ s : State, s.alive = true →
    let result (t : State) (kind part status : Nat) : Prop :=
      t.fget .BOOT_RESULT BOOT_RESULT.STATUS = status ∧ t.fget .BOOT_RESULT BOOT_RESULT.KIND = kind ∧ t.fget .BOOT_RESULT BOOT_RESULT.PARTITION = part
      ∧ t.flag .BOOT_CTRL BOOT_CTRL.GO = false ∧ t.boot.load = none
    (∀ a : Acc, s.mayWrite a.by_ = true → BOOT_CTRL.GO.get (accOver a 0) = 1 →
      let v := Reg.BOOT_CTRL.info.write (s.reg .BOOT_CTRL) a
      let kind := BOOT_CTRL.KIND.get v
      let part := BOOT_CTRL.PARTITION.get v
      let len := BOOT_CTRL.LENGTH.get v
      let off := (s.reg .BOOT_ADDR).toNat
      let busy := s.flag .BOOT_CTRL BOOT_CTRL.GO = true
      let ranged := off % 8 = 0 ∧ len ≠ 0 ∧ off + len ≤ dramSize ∧ len ≤ loadMax kind
      ∀ c ∈ [Instr.loadFirmware a, .loadStructure a, .loadPlan a, .loadCert a, .unload a, .loadRefusedKind a],
        ((s.boot_ = 0 ∨ busy) → exec c s = .next (s.fresh.fset .BOOT_STATE BOOT_STATE.LOAD_REJ 1))
        ∧ (s.boot_ ≠ 0 → ¬ busy → s.kindOk kind = false → ∃ t, exec c s = .next t ∧ result t kind part 1)
        ∧ (s.boot_ ≠ 0 → ¬ busy → s.kindOk kind = true → kind ≠ 5 → ¬ ranged → ∃ t, exec c s = .next t ∧ t.reg .BOOT_CTRL = v
            ∧ t.boot.load = some { kind := kind, part := part, outcome := .refused 2 none })
        ∧ (s.boot_ ≠ 0 → ¬ busy → s.kindOk kind = true → kind ≠ 5 → ranged → s.dramBad = [] → ∃ t u : State, exec c s = .next t
            ∧ t.boot.load = some { kind := kind, part := part, outcome := u.loadChecked kind part u.time.ns.toNat (memRead s.dram off len) }
            ∧ u = { s.fresh with regs := u.regs, irq := u.irq, rows := u.rows, free := u.free, time := u.time }
            ∧ sameRegsBut [.BOOT_CTRL, .STG_STATUS, .OWN_STATUS] s u ∧ (u.time.ns.toNat < s.nextBoundary ∨ u.time.ns = s.time.ns)
            ∧ t.reg .BOOT_CTRL = v ∧ sameMemory s t)
        ∧ (s.boot_ ≠ 0 → ¬ busy → s.kindOk kind = true → kind = 5 →
            (s.pstate part = 0 → ∃ t, exec c s = .next t ∧ result t 5 part 1)
            ∧ (s.pstate part = 2 → ∃ t, exec c s = .next t ∧ (t.part part).haltAt = some (s.stage + 1) ∧ (t.part part).unloading = true
                ∧ t.boot.load = some { kind := 5, part := part, outcome := .unload } ∧ t.reg .BOOT_CTRL = v)
            ∧ (s.pstate part ≠ 0 → s.pstate part ≠ 2 → ∃ t, exec c s = .next t ∧ result t 5 part 0 ∧ t.pstate part = 0 ∧ (t.part part).plan = none)))
    ∧ (s.boot.load = none → exec .loadEnd s = .next s.fresh)
    ∧ (∀ l, s.boot.load = some l → l.kind < 6 → l.part < 8 →
        (s.stopped = true → l.outcome ≠ .unload → ∃ t, exec .loadEnd s = .next t ∧ result t l.kind l.part 1)
        ∧ (s.stopped = false →
          (∀ status x, l.outcome = .refused status x → status ≠ 0 → status < 256 → ∃ t, exec .loadEnd s = .next t ∧ result t l.kind l.part status ∧ t.boot_ = s.boot_)
          ∧ (∀ svn entry meas payload, l.outcome = .firmware svn entry meas payload → ∃ t, exec .loadEnd s = .next t ∧ result t l.kind l.part 0 ∧ t.boot_ = 2
              ∧ t.fget .FW_INFO FW_INFO.SVN = svn.toNat ∧ t.boot.measFw = meas ∧ t.boot.fwLen = payload.length
              ∧ t.stw.mem = memWrite s.stw.mem 0 payload ∧ (∀ c : Core, (tget {} t.stw.cores c).pc = entry.setWidth 64) ∧ t.fget .STW_STATUS STW_STATUS.RUNNING = 0xF)
          ∧ (∀ i meas, l.outcome = .structure_ i meas → ∃ t, exec .loadEnd s = .next t ∧ result t l.kind l.part 0 ∧ t.boot_ = 4 ∧ t.img = i ∧ t.boot.measImg = meas)
          ∧ (∀ pl meas, l.outcome = .plan pl meas →
              (s.flag .FT_STATUS FT_STATUS.TIME_SET = true → s.nextBoundary ≤ pl.epochNs → s.time.ns.toNat < pl.epochNs → ∃ t, exec .loadEnd s = .next t
                ∧ result t l.kind l.part 0 ∧ t.pstate l.part = 1 ∧ (t.part l.part).plan = some pl ∧ (t.part l.part).meas = meas ∧ t.time.epochSet = true
                ∧ (∀ (i : Iod) (ch : IoCh), (t.chan (.io i ch)).seq = 0))
              ∧ ((s.flag .FT_STATUS FT_STATUS.TIME_SET = false ∨ (pl.epochNs ≤ s.time.ns.toNat ∧ s.nextBoundary ≤ 2 ^ 64)) → ∃ t, exec .loadEnd s = .next t
                ∧ result t l.kind l.part 11 ∧ t.parts = s.parts))
          ∧ (∀ ch, l.outcome = .cert ch → ∃ t, exec .loadEnd s = .next t ∧ result t l.kind l.part 0 ∧ t.boot.chain = some ch)))

/-- The interrupt controller, the mailbox and telemetry (R501, R502, R504 to R509, R511, R513): a claim takes the source that leads for its
core and nests; a completion must name the innermost one; a software source has an edge; a forwarded source is sent and becomes ACTIVE; a
mailbox request and its reply pass BUSY and raise their sources; an interval's end latches the records that the Steward then writes; a
single-bit error of the Steward's memory is counted, and an uncorrectable one stops its cores and stands on FAULT_N. Claims and forwards
are deduced (log entry 65); that one row brings both kinds of error is log entry 104. -/
def Obligations.StewardCommands : Prop :=
  ∀ s : State, s.alive = true →
    let runs := s.flag .FLT_STATUS FLT_STATUS.STEWARD_UE = false
    (∀ (c : Core) (n : Nat) (q : IrqSrc), runs → s.coreBest c = some (n, q) → ∃ t, exec (.coreClaim c) s = .next t ∧ t.out = [.claim c (some n)]
        ∧ (t.src n).active = true ∧ (t.src n).pend = false ∧ t.claims c = (n, q.prio) :: s.claims c ∧ t.regs = s.regs)
    ∧ (∀ c : Core, runs → s.coreBest c = none → exec (.coreClaim c) s = .next (s.fresh.emit (.claim c none)))
    ∧ (∀ (c : Core) (n : SrcIx), runs → (∀ l r, s.claims c = (n.val, l) :: r → ∃ t, exec (.coreComplete c n) s = .next t ∧ t.claims c = r
          ∧ (t.src n).active = false ∧ (t.src n).reentered = (s.src n).pend ∧ t.regs = s.regs)
        ∧ ((∀ l r, s.claims c ≠ (n.val, l) :: r) → exec (.coreComplete c n) s = .next (s.fresh.fset (.CORE_LEVEL c) CORE_LEVEL.COMP_REJ 1)))
    ∧ (∀ (c : Core) (n : SrcIx), ¬ runs → exec (.coreClaim c) s = .next s.fresh ∧ exec (.coreComplete c n) s = .next s.fresh)
    ∧ (∀ a : Acc, s.mayWrite a.by_ = true →
        let n := INT_SET.SOURCE.get (accWide a)
        (a.size ≠ .hi → 768 ≤ n → ∃ t, exec (.intSet a) s = .next t ∧ (t.src n).pend = true ∧ (t.src n).edges = (s.src n).edges + 1 ∧ t.regs = s.regs)
        ∧ ((a.size = .hi ∨ n < 768) → exec (.intSet a) s = .next s.fresh)
        ∧ (∀ m : SrcIx, a.size = .full → ∃ t, exec (.intSrcWrite m a) s = .next t ∧ (t.src m).prio.toNat = INT_SRC.PRIO.get a.val
            ∧ (t.src m).target.toNat = INT_SRC.TARGET.get a.val ∧ (t.src m).pend = ((s.src m).pend && decide (INT_SRC.PEND.get a.val = 0))
            ∧ (t.src m).edges = (s.src m).edges ∧ (INT_SRC.ACTIVE.get a.val = 0 → (t.src m).active = (s.src m).active)
            ∧ (INT_SRC.ACTIVE.get a.val = 1 → a.by_ = .steward → (t.src m).active = false) ∧ (∀ k : SrcIx, k ≠ m → t.src k = s.src k))
        ∧ (let v := Reg.MB_CTRL.info.write (s.reg .MB_CTRL) a
           let len := MB_CTRL.LEN.get v
           MB_CTRL.GO.get (accOver a 0) = 1 →
            ((s.flag .MB_CTRL MB_CTRL.BUSY = true ∨ len = 0 ∨ 256 < len) → exec (.mbRequest a) s = .next (s.fresh.fset .MB_CTRL MB_CTRL.MB_REJ 1))
            ∧ (s.flag .MB_CTRL MB_CTRL.BUSY = false → 1 ≤ len → len ≤ 256 → ∃ t, exec (.mbRequest a) s = .next t ∧ t.flag .MB_CTRL MB_CTRL.BUSY = true
                ∧ t.fget .MB_CTRL MB_CTRL.LEN = len ∧ (t.src 612).pend = true)))
    ∧ (∀ f : FwdIx, let r := Reg.FWD f
        (s.flag r FWD.ENABLE = false → exec (.forwardSend f) s = .next s.fresh)
        ∧ (s.flag r FWD.ENABLE = true → s.candidate (32 + f) (s.fget r FWD.THRESH) = none → exec (.forwardSend f) s = .next s.fresh)
        ∧ (∀ n q, s.flag r FWD.ENABLE = true → s.candidate (32 + f) (s.fget r FWD.THRESH) = some (n, q) → ∃ t, exec (.forwardSend f) s = .next t
            ∧ (t.src n).active = true ∧ (t.src n).pend = false
            ∧ t.fget r FWD.SENT = (s.fget r FWD.SENT + (if s.linkUp (s.fget r FWD.PORT) = true then 1 else 0)) % 2 ^ FWD.SENT.len))
    ∧ (∀ (tag : Byte) (b : Bytes), s.stewardUp = true → s.flag .MB_CTRL MB_CTRL.BUSY = true → b ≠ [] → b.length ≤ 256 → ∃ t, exec (.mbReply tag b) s = .next t
        ∧ t.flag .MB_CTRL MB_CTRL.BUSY = false ∧ t.fget .MB_CTRL MB_CTRL.RSP_LEN = b.length ∧ t.fget .MB_CTRL MB_CTRL.RSP_TAG = tag.toNat
        ∧ (∀ i, i < b.length → (toLe 8 (t.reg (.MB_RSP (i / 8))).toNat).getD (i % 8) 0 = b.getD i 0) ∧ (t.src 611).pend = true)
    ∧ (∀ (tag : Byte) (b : Bytes), (s.stewardUp = false ∨ s.flag .MB_CTRL MB_CTRL.BUSY = false) → exec (.mbReply tag b) s = .next s.fresh)
    ∧ (s.telOn = true → s.stage % 2 ^ s.fget .TEL_CFG TEL_CFG.TLOG2 = 0 → s.tel.last ≠ some s.stage → ∃ t, exec .telemetryIntervalEnd s = .next t
        ∧ t.tel.latched.length = ((List.range 64).filter (fun n => (s.rgn n).budget != 0)).length ∧ t.tel.last = some s.stage
        ∧ t.fget .TEL_CFG TEL_CFG.LOST = (s.fget .TEL_CFG TEL_CFG.LOST + s.tel.latched.length) % 2 ^ 18 ∧ (∀ n, n < 64 → (t.rgn n).tel = {}))
    ∧ ((s.telOn = false ∨ s.tel.last = some s.stage) → exec .telemetryIntervalEnd s = .next s.fresh)
    ∧ (∀ b, s.stewardUp = true → s.tel.latched = [b] → s.dramBad = [] →
        let i := (s.reg .TEL_IDX).toNat
        let at_ := (s.tel.base.toNat + i % 2 ^ s.fget .TEL_CFG TEL_CFG.TEL_LOG2 * 64) % dramSize
        ∃ t, exec .telemetryRecordWrite s = .next t ∧ t.tel.latched = [] ∧ t.reg .TEL_IDX = BitVec.ofNat 64 (i + 1) ∧ (t.src 613).pend = true
          ∧ (∀ j, j < b.length → memByte t.dram (at_ + j) = b.getD j 0))
    ∧ ((s.stewardUp = false ∨ s.tel.latched = []) → exec .telemetryRecordWrite s = .next s.fresh)
    ∧ (∀ u : Upset, (u.ue = false → exec (.stewardMemoryUe u) s = .next (s.fresh.fadd .STW_STATUS STW_STATUS.CE_COUNT 1))
        ∧ (u.ue = true → ∃ t, exec (.stewardMemoryUe u) s = .next t ∧ t.fget .STW_STATUS STW_STATUS.RUNNING = 0
          ∧ t.flag .FLT_STATUS FLT_STATUS.STEWARD_UE = true ∧ t.flag .FLT_STATUS FLT_STATUS.FAULT_N = true ∧ t.stewardUp = false
          ∧ memNat t.stw.mem (u.word % 262144 * 8) 8 = memNat s.stw.mem (u.word % 262144 * 8) 8 ^^^ u.flip.toNat))

/-- Recovery (R528 to R531, R536, R537, R539 to R541): a resume latches its values and ends with the first failure's status, or with the
partition LOADED at its new start; lock-step summaries of the partner at P15 are counted when they match and raise LOCKSTEP when they do
not, or when the partner's is late, and its signatures show where the two first differ; a management packet for another module is counted
in FOREIGN, and while SELF_VALID is 0 every packet is discarded (R340, R341, R542); a fence order is refused with its reason and counted, or fences the module, which is a device stop. Corners of resume
and fence are deduced (log entry 72), those of lock-step log entries 28 and 55, and of a resumed partition log entry 32. -/
def Obligations.Recovery : Prop :=
  ∀ s : State, s.alive = true →
    let ended (t : State) (status : Nat) : Prop := t.resume = none ∧ t.flag .RESUME_CTRL RESUME_CTRL.GO = false ∧ t.fget .RESUME_CTRL RESUME_CTRL.STATUS = status
    (∀ a : Acc, s.mayWrite a.by_ = true →
      let w := Reg.RESUME_CTRL.info.write (s.reg .RESUME_CTRL) a
      let part := RESUME_CTRL.PARTITION.get w
      (s.flag .RESUME_CTRL RESUME_CTRL.GO = true → exec (.resume a) s = .next (s.fresh.fset .RESUME_CTRL RESUME_CTRL.RESUME_REJ 1))
      ∧ (s.flag .RESUME_CTRL RESUME_CTRL.GO = false → RESUME_CTRL.GO.get w = 1 → ∃ t, exec (.resume a) s = .next t ∧ t.reg .RESUME_CTRL = w
          ∧ t.resume = some { part := part, addr := (s.reg .RESUME_ADDR).toNat, len := RESUME_CTRL.LENGTH.get w, c := (s.reg .RESUME_C).toNat, q := (s.reg .RESUME_Q).toNat, early := s.resumeState part || s.boot.load.isSome } ∧ t.parts = s.parts)
      ∧ (let v := Reg.FENCE_SUBMIT.info.write (s.reg .FENCE_SUBMIT) a
         let off := FENCE_SUBMIT.OFFSET.get v
         let len := FENCE_SUBMIT.LENGTH.get v
         s.flag .FENCE_SUBMIT FENCE_SUBMIT.GO = false → FENCE_SUBMIT.GO.get (accOver a 0) = 1 → off + len ≤ dramSize → s.dramBad = [] →
          ∃ t, exec (.fenceSubmit a) s = .next t ∧ t.flag .FENCE_SUBMIT FENCE_SUBMIT.GO = true ∧ t.fence = s.fence ++ [(true, memRead s.dram off len)]))
    ∧ (s.resume = none → exec .resumeCheckEnd s = .next s.fresh)
    ∧ (∀ u pl, s.resume = some u → u.part < 8 → (s.part u.part).plan = some pl → s.dramBad = [] →
        let b := memRead s.dram u.addr u.len
        let first := if u.early || s.resumeState u.part then 1 else if dramSize < u.addr + u.len then 2 else if sha512 b != (s.part u.part).meas then 2
          else if s.resumeStage pl u then 3 else if s.resumeShift pl u then 4 else 0
        ∃ t, exec .resumeCheckEnd s = .next t ∧ ended t first ∧ (first ≠ 0 → t.parts = s.parts)
          ∧ (first = 0 → pl.round = none → t.pstate u.part = 1 ∧ (t.part u.part).commitC = u.c
              ∧ (s.pstate u.part = 3 → (t.part u.part).start = u.q)))
    ∧ (∀ (p : Port) (k : Packet), k.hdr.opc = 8 → gaSpace k.hdr.ga.toNat = 1 → gaZeros k.hdr.ga.toNat = true →
        let u := s.fresh.takeInbound p (pktBytes k)
        let valid := s.flag .ROUTE_SELF ROUTE_SELF.SELF_VALID = true
        let mine := valid ∧ gaModule k.hdr.ga.toNat = s.self
        let b := k.payload
        let stage := leAt b 0 8
        (∀ x ∈ [(Instr.lockstepSummary p k, decide (b.length = 16), 4), (.lockstepSignatures p k, decide (16 < b.length), 4), (.fenceOrder p k, true, 3)],
          x.2.1 = true → gaDram k.hdr.ga.toNat = x.2.2 →
            (¬ valid → exec x.1 s = .next u)
            ∧ (valid → gaModule k.hdr.ga.toNat ≠ s.self → s.isGroup (gaModule k.hdr.ga.toNat) = false → exec x.1 s = .next (u.fadd .ROUTE_COUNT ROUTE_COUNT.FOREIGN 1))
            ∧ (mine → p ≠ 15 → x.2.2 = 4 → exec x.1 s = .next u))
        ∧ (mine → p = 15 → gaDram k.hdr.ga.toNat = 4 → b.length = 16 → s.lockOn = true → s.lock.partner = [] → s.lock.failed = none → s.lock.matched = [] →
          ∀ own : Word, s.lock.own = [(stage, own)] →
            (own.toNat = leAt b 8 8 → ∃ t, exec (.lockstepSummary p k) s = .next t ∧ t.lock.matched = [stage]
              ∧ t.fget .LS_FIRST LS_FIRST.MATCHED = (s.fget .LS_FIRST LS_FIRST.MATCHED + 1) % 2 ^ 32)
            ∧ (own.toNat ≠ leAt b 8 8 → ∃ t, exec (.lockstepSummary p k) s = .next t ∧ t.lock.failed = some stage
              ∧ t.flag .LS_STATUS LS_STATUS.LOCKSTEP = true ∧ t.fget .LS_STATUS LS_STATUS.STATE = 2 ∧ t.fget .LS_STATUS LS_STATUS.STAGE = stage % 2 ^ 32))
        ∧ (mine → p = 15 → gaDram k.hdr.ga.toNat = 4 → 16 < b.length → s.lock.failed = some stage → s.lock.first = none →
          let at_ := leAt b 8 8
          let n := (b.length - 16) / 8
          let differs (j : Nat) : Bool := decide (at_ + j < (s.sigList stage).length) && ((s.sigList stage).getD (at_ + j) 0).toNat != leAt b (16 + 8 * j) 8
          (∀ j, (List.range n).find? differs = some j → exec (.lockstepSignatures p k) s
              = .next ((({ u with lock := { s.lock with first := some (at_ + j) } } : State).fset .LS_FIRST LS_FIRST.LT ((at_ + j) / 7)).fset
                  .LS_FIRST LS_FIRST.AGENT ((at_ + j) % 7)))
          ∧ ((∀ j, j < n → differs j = false) → exec (.lockstepSignatures p k) s = .next u))
        ∧ (mine → gaDram k.hdr.ga.toNat = 3 → exec (.fenceOrder p k) s = .next { u with fence := s.fence ++ [(false, b)] }))
    ∧ (∀ stage own : Word, s.lockOn = true → s.lock.partner = [] → s.lock.failed = none → s.lock.own = [(stage.toNat, own)] →
        (stage.toNat + s.fget .LS_CTRL LS_CTRL.WINDOW + 1 ≤ s.stage →
          exec (.lockstepTimeout stage) s = .next (s.keepOuter (s.fresh.lockFail stage.toNat 3)))
        ∧ (s.stage < stage.toNat + s.fget .LS_CTRL LS_CTRL.WINDOW + 1 → exec (.lockstepTimeout stage) s = .next s.fresh))
    ∧ ((s.fence = [] ∨ s.flag .FLT_STATUS FLT_STATUS.STEWARD_UE = true) → exec .fenceCheckEnd s = .next s.fresh)
    ∧ (∀ submit b r, s.fence = (submit, b) :: r → s.flag .FLT_STATUS FLT_STATUS.STEWARD_UE = false →
        let v : State := { s.fresh with fence := r }
        let u := if submit then v.fset .FENCE_SUBMIT FENCE_SUBMIT.GO 0 else v
        (s.fenceReason b ≠ 0 → exec .fenceCheckEnd s = .next ((u.fset .FENCE_STATUS FENCE_STATUS.LAST_REASON (s.fenceReason b)).fadd .FENCE_STATUS FENCE_STATUS.REFUSED 1))
        ∧ (s.fenceReason b = 0 → ∃ t, exec .fenceCheckEnd s = .next t ∧ t.flag .FENCE_STATUS FENCE_STATUS.FENCED = true ∧ t.stopped = true ∧ t.fence = r
            ∧ t.reg .FENCE_EPOCH = BitVec.ofNat 64 (leAt b 8 8)))

/-- SPDM requests of a binding (R496 to R498): Busy before the firmware runs; a connection begins with GET_VERSION and passes its steps in
order, and a request out of order is Unexpected; digests and certificates are of the installed chain; measurements are of what is loaded.
MCTP control messages are answered in every boot state. The order of requests is presumed (log entry 41); signatures and nonces are free
bytes (log entry 71). -/
def Obligations.Attestation : Prop :=
  ∀ (s : State) (b : SpdmBinding), s.alive = true →
    let x := s.spdmOf b
    let requests (slot : BitVec 4) (off len : BitVec 16) (ix : Byte) (signed : Bool) (nonce : Bytes) : List Instr :=
      [.getDigests b, .getCertificate b slot off len, .challenge b slot nonce, .getMeasurements b ix signed nonce]
    (s.boot_ ≠ 3 → s.boot_ ≠ 4 → ∀ slot off len ix signed nonce, ∀ c ∈ [Instr.getVersion b, .getCapabilities b, .negotiateAlgorithms b] ++ requests slot off len ix signed nonce,
      exec c s = .next (s.fresh.emit (.spdmBusy b)))
    ∧ (s.stewardUp = true →
      (∃ t, exec (.getVersion b) s = .next t ∧ t.out = [.version b] ∧ t.spdmOf b = { version := true } ∧ t.regs = s.regs)
      ∧ (x.version = true → ∃ t, exec (.getCapabilities b) s = .next t ∧ t.out = [.capabilities b] ∧ t.spdmOf b = { version := true, caps := true } ∧ t.regs = s.regs)
      ∧ (x.version = false → exec (.getCapabilities b) s = .next (s.fresh.emit (.spdmUnexpected b)))
      ∧ (x.caps = true → ∃ t, exec (.negotiateAlgorithms b) s = .next t ∧ t.out = [.algorithms b]
          ∧ t.spdmOf b = { version := true, caps := true, algs := true } ∧ t.regs = s.regs)
      ∧ (x.caps = false → exec (.negotiateAlgorithms b) s = .next (s.fresh.emit (.spdmUnexpected b)))
      ∧ (x.algs = false → ∀ slot off len ix signed nonce, ∀ c ∈ requests slot off len ix signed nonce, exec c s = .next (s.fresh.emit (.spdmUnexpected b)))
      ∧ (x.algs = true →
        exec (.getDigests b) s = .next (s.fresh.emit (.digests b (s.boot.chain.map sha512)))
        ∧ (∀ (slot : BitVec 4) (off len : BitVec 16), exec (.getCertificate b slot off len) s = .next (match s.boot.chain with
            | none => s.fresh.emit (.spdmInvalid b)
            | some c => if slot = 0 ∧ off.toNat < c.length
                then s.fresh.emit (.certificate b ((c.drop off.toNat).take len.toNat) (c.length - off.toNat - min len.toNat (c.length - off.toNat)))
                else s.fresh.emit (.spdmInvalid b)))
        ∧ (∀ (slot : BitVec 4) (nonce : Bytes), (s.boot.chain = none ∨ slot ≠ 0) → exec (.challenge b slot nonce) s = .next (s.fresh.emit (.spdmInvalid b)))
        ∧ (∀ (c nonce : Bytes), s.boot.chain = some c → ∃ t n g, exec (.challenge b 0 nonce) s = .next t ∧ t.out = [.challengeAuth b (sha512 c) n g]
            ∧ n.length = 32 ∧ g.length = 132 ∧ t = { s with free := t.free, out := t.out })
        ∧ (∀ nonce, exec (.getMeasurements b 0 false nonce) s = .next (s.fresh.emit (.measurements b [(0, [13])] none))
            ∧ exec (.getMeasurements b 2 false nonce) s = .next (s.fresh.emit (.measurements b [(2, s.boot.measFw)] none))
            ∧ exec (.getMeasurements b 4 false nonce) s = .next (s.fresh.emit (.measurements b [(4, sha512 (Config.fuseImage s.fuses.readable))] none))
            ∧ exec (.getMeasurements b 6 false nonce) s = .next (s.fresh.emit (.spdmInvalid b)))))
    ∧ (∀ cmd : Byte, exec (.mctpControl b cmd) s = .next (s.fresh.emit (.mctp b cmd)))

/-- Access to registers by an offset (R2, R5 to R7, R9, R341, R462, R465, R542, R543): an aligned write of 4 or 8 bytes to an assigned offset
by the owner follows the register's rule, and any other does nothing, but is counted from a non-owner. A read of BAR0 gives the part of the
register that it addresses, and 0 for another size or alignment and for an unassigned offset; a doorbell reads as PROD. A read request of
another module is answered with the registers' bytes; one with a bad length or a GA that is no BAR0 offset, and a management packet of no
known kind, is counted in MGMT_BAD, and one for another module in FOREIGN. Corners of register packets are deduced (log entries 38, 64);
the moment of a write is log entry 31, and the reads without a row are log entry 104. -/
def Obligations.RegisterAccess : Prop :=
  ∀ s : State, s.alive = true →
    (∀ (w : RegWrite) (v : State), let a := accOf w
      let r := Reg.ofOff (w.off.toNat / 8 * 8)
      (s.fresh.advance w.at_ = none → exec (.registerWrite w) s = .next s.fresh)
      ∧ (s.fresh.advance w.at_ = some v →
        (s.mayWrite w.by_ = true → (a = none ∨ r = none ∨ ∃ q, r = some q ∧ s.regAbsent q = true) → exec (.registerWrite w) s = .next (s.keepOuter v))
        ∧ (∀ p : HostPort, w.by_ = .host p → s.owner ≠ some p.val → (a = none ∨ r = none ∨ ∃ q, r = some q ∧ s.regAbsent q = true) → exec (.registerWrite w) s
            = .next (s.keepOuter ((v.fadd (.HP_COUNT p) HP_COUNT.DISCARDS 1).fset (.HP_STATUS p) HP_STATUS.DISCARD 1)))
        ∧ (∀ b q, a = some b → r = some q → s.mayWrite w.by_ = true → s.regAbsent q = false → q ∈ [.STG_STATUS, .BOOT_ADDR, .RLY_EXPECT, .ADU_REQ_SEL, .FWD 3, .TALLY_LIMIT 9] →
            exec (.registerWrite w) s = .next (s.keepOuter (v.setReg q (q.info.write (v.reg q) b))))))
    ∧ (∀ (p : HostPort) (off : BitVec 26) (bytes : Nat),
        let z : Option Sz := if bytes = 8 ∧ off.toNat % 8 = 0 then some .full else if bytes = 4 ∧ off.toNat % 8 = 0 then some .lo
          else if bytes = 4 ∧ off.toNat % 8 = 4 then some .hi else none
        ((z = none ∨ Reg.ofOff (off.toNat / 8 * 8) = none) → s.bar0Read p off bytes = s.emit (.read p 0))
        ∧ (∀ q y, z = some y → Reg.ofOff (off.toNat / 8 * 8) = some q → q ∈ [.STG_STATUS, .BOOT_ADDR, .RLY_EXPECT, .ADU_REQ_SEL, .FWD 3] →
            s.bar0Read p off bytes = s.emit (.read p (match y with | .full => s.reg q | .lo => s.reg q &&& 0xFFFFFFFF | .hi => s.reg q >>> 32))))
    ∧ (∀ (p : HostPort) (n : RingIx), s.boot_ ≠ 0 → s.doorbellRead p n .full = s.emit (.read p (BitVec.ofNat 64 (s.fget (.RING_IDX n) RING_IDX.PROD))))
    ∧ (∀ (p : Port) (k : Packet), k.hdr.opc.toNat = 8 → s.flag .ROUTE_SELF ROUTE_SELF.SELF_VALID = true →
        let u := s.fresh.takeInbound p (pktBytes k)
        let ga := k.hdr.ga.toNat
        let len := leAt k.payload 0 4
        let bar0 := bits ga 45 26 = 0
        (gaModule ga = s.self →
          (gaSpace ga = 2 → (k.payload.length ≠ 8 ∨ len < 8 ∨ 4064 < len ∨ len % 8 ≠ 0 ∨ ga % 8 ≠ 0 ∨ ¬ bar0) → exec (.registerReadRequest p k) s
              = .next (u.fadd .FLT_STATUS FLT_STATUS.MGMT_BAD 1))
          ∧ (gaSpace ga = 2 → k.payload.length = 8 → len = 8 → ga % 2 ^ 46 = 0 → ∃ t, exec (.registerReadRequest p k) s = .next t
              ∧ t = s.keepOuter (u.sendOff .service { hdr := s.hdr 8 (k.hdr.src.toNat * 2 ^ 48 + ga % 2 ^ 48) 16, payload := k.payload.drop 4 ++ [0, 0, 0, 0] ++ toLe 8 (match Reg.ofOff 0 with | none => 0 | some r => (u.regRead none r).1).toNat }))
          ∧ (mgmtKnown ga = false → exec (.managementDiscard p k) s = .next (u.fadd .FLT_STATUS FLT_STATUS.MGMT_BAD 1))
          ∧ (mgmtKnown ga = true → exec (.managementDiscard p k) s = .next s.fresh))
        ∧ (gaModule ga ≠ s.self → s.isGroup (gaModule ga) = false →
          exec (.managementDiscard p k) s = .next (u.fadd .ROUTE_COUNT ROUTE_COUNT.FOREIGN 1)
          ∧ (gaSpace ga = 2 → exec (.registerReadRequest p k) s = .next (u.fadd .ROUTE_COUNT ROUTE_COUNT.FOREIGN 1))))
end

