-- ==== Sys2Proof/Laws/State.lean ====
section
/-! SUPPORT. What each update of State leaves as it was, field by field, so that no proof unfolds a record update. -/

namespace Sys2Proof.Machine

/-! `putReg` changes only `regs`. -/

@[simp] theorem State.putReg_pending (s : State) (r : Reg) (v : Word) : (s.putReg r v).pending = s.pending := rfl
@[simp] theorem State.putReg_out (s : State) (r : Reg) (v : Word) : (s.putReg r v).out = s.out := rfl
@[simp] theorem State.putReg_free (s : State) (r : Reg) (v : Word) : (s.putReg r v).free = s.free := rfl
@[simp] theorem State.putReg_irq (s : State) (r : Reg) (v : Word) : (s.putReg r v).irq = s.irq := rfl
@[simp] theorem State.putReg_cores (s : State) (r : Reg) (v : Word) : (s.putReg r v).cores = s.cores := rfl
@[simp] theorem State.putReg_pwr (s : State) (r : Reg) (v : Word) : (s.putReg r v).pwr = s.pwr := rfl
@[simp] theorem State.putReg_fuses (s : State) (r : Reg) (v : Word) : (s.putReg r v).fuses = s.fuses := rfl
@[simp] theorem State.putReg_hosts (s : State) (r : Reg) (v : Word) : (s.putReg r v).hosts = s.hosts := rfl
@[simp] theorem State.putReg_lapseMs (s : State) (r : Reg) (v : Word) : (s.putReg r v).lapseMs = s.lapseMs := rfl
@[simp] theorem State.putReg_lapseFrom (s : State) (r : Reg) (v : Word) : (s.putReg r v).lapseFrom = s.lapseFrom := rfl
@[simp] theorem State.putReg_sram (s : State) (r : Reg) (v : Word) : (s.putReg r v).sram = s.sram := rfl
@[simp] theorem State.putReg_sramBad (s : State) (r : Reg) (v : Word) : (s.putReg r v).sramBad = s.sramBad := rfl
@[simp] theorem State.putReg_dram (s : State) (r : Reg) (v : Word) : (s.putReg r v).dram = s.dram := rfl
@[simp] theorem State.putReg_dramBad (s : State) (r : Reg) (v : Word) : (s.putReg r v).dramBad = s.dramBad := rfl
@[simp] theorem State.putReg_rows (s : State) (r : Reg) (v : Word) : (s.putReg r v).rows = s.rows := rfl
@[simp] theorem State.putReg_rgns (s : State) (r : Reg) (v : Word) : (s.putReg r v).rgns = s.rgns := rfl
@[simp] theorem State.putReg_late (s : State) (r : Reg) (v : Word) : (s.putReg r v).late = s.late := rfl
@[simp] theorem State.putReg_lateUsed (s : State) (r : Reg) (v : Word) : (s.putReg r v).lateUsed = s.lateUsed := rfl
@[simp] theorem State.putReg_tiles (s : State) (r : Reg) (v : Word) : (s.putReg r v).tiles = s.tiles := rfl
@[simp] theorem State.putReg_idma (s : State) (r : Reg) (v : Word) : (s.putReg r v).idma = s.idma := rfl
@[simp] theorem State.putReg_ports (s : State) (r : Reg) (v : Word) : (s.putReg r v).ports = s.ports := rfl
@[simp] theorem State.putReg_inbound (s : State) (r : Reg) (v : Word) : (s.putReg r v).inbound = s.inbound := rfl
@[simp] theorem State.putReg_relay (s : State) (r : Reg) (v : Word) : (s.putReg r v).relay = s.relay := rfl
@[simp] theorem State.putReg_time (s : State) (r : Reg) (v : Word) : (s.putReg r v).time = s.time := rfl
@[simp] theorem State.putReg_ringIrq (s : State) (r : Reg) (v : Word) : (s.putReg r v).ringIrq = s.ringIrq := rfl
@[simp] theorem State.putReg_adu (s : State) (r : Reg) (v : Word) : (s.putReg r v).adu = s.adu := rfl
@[simp] theorem State.putReg_parts (s : State) (r : Reg) (v : Word) : (s.putReg r v).parts = s.parts := rfl
@[simp] theorem State.putReg_img (s : State) (r : Reg) (v : Word) : (s.putReg r v).img = s.img := rfl
@[simp] theorem State.putReg_boot (s : State) (r : Reg) (v : Word) : (s.putReg r v).boot = s.boot := rfl
@[simp] theorem State.putReg_stw (s : State) (r : Reg) (v : Word) : (s.putReg r v).stw = s.stw := rfl
@[simp] theorem State.putReg_resume (s : State) (r : Reg) (v : Word) : (s.putReg r v).resume = s.resume := rfl
@[simp] theorem State.putReg_lock (s : State) (r : Reg) (v : Word) : (s.putReg r v).lock = s.lock := rfl
@[simp] theorem State.putReg_fence (s : State) (r : Reg) (v : Word) : (s.putReg r v).fence = s.fence := rfl
@[simp] theorem State.putReg_spdm (s : State) (r : Reg) (v : Word) : (s.putReg r v).spdm = s.spdm := rfl
@[simp] theorem State.putReg_tel (s : State) (r : Reg) (v : Word) : (s.putReg r v).tel = s.tel := rfl

/-! `putSrc` changes only `irq`. -/

@[simp] theorem State.putSrc_pending (s : State) (n : Nat) (q : IrqSrc) : (s.putSrc n q).pending = s.pending := rfl
@[simp] theorem State.putSrc_out (s : State) (n : Nat) (q : IrqSrc) : (s.putSrc n q).out = s.out := rfl
@[simp] theorem State.putSrc_free (s : State) (n : Nat) (q : IrqSrc) : (s.putSrc n q).free = s.free := rfl
@[simp] theorem State.putSrc_regs (s : State) (n : Nat) (q : IrqSrc) : (s.putSrc n q).regs = s.regs := rfl
@[simp] theorem State.putSrc_cores (s : State) (n : Nat) (q : IrqSrc) : (s.putSrc n q).cores = s.cores := rfl
@[simp] theorem State.putSrc_pwr (s : State) (n : Nat) (q : IrqSrc) : (s.putSrc n q).pwr = s.pwr := rfl
@[simp] theorem State.putSrc_fuses (s : State) (n : Nat) (q : IrqSrc) : (s.putSrc n q).fuses = s.fuses := rfl
@[simp] theorem State.putSrc_hosts (s : State) (n : Nat) (q : IrqSrc) : (s.putSrc n q).hosts = s.hosts := rfl
@[simp] theorem State.putSrc_lapseMs (s : State) (n : Nat) (q : IrqSrc) : (s.putSrc n q).lapseMs = s.lapseMs := rfl
@[simp] theorem State.putSrc_lapseFrom (s : State) (n : Nat) (q : IrqSrc) : (s.putSrc n q).lapseFrom = s.lapseFrom := rfl
@[simp] theorem State.putSrc_sram (s : State) (n : Nat) (q : IrqSrc) : (s.putSrc n q).sram = s.sram := rfl
@[simp] theorem State.putSrc_sramBad (s : State) (n : Nat) (q : IrqSrc) : (s.putSrc n q).sramBad = s.sramBad := rfl
@[simp] theorem State.putSrc_dram (s : State) (n : Nat) (q : IrqSrc) : (s.putSrc n q).dram = s.dram := rfl
@[simp] theorem State.putSrc_dramBad (s : State) (n : Nat) (q : IrqSrc) : (s.putSrc n q).dramBad = s.dramBad := rfl
@[simp] theorem State.putSrc_rows (s : State) (n : Nat) (q : IrqSrc) : (s.putSrc n q).rows = s.rows := rfl
@[simp] theorem State.putSrc_rgns (s : State) (n : Nat) (q : IrqSrc) : (s.putSrc n q).rgns = s.rgns := rfl
@[simp] theorem State.putSrc_late (s : State) (n : Nat) (q : IrqSrc) : (s.putSrc n q).late = s.late := rfl
@[simp] theorem State.putSrc_lateUsed (s : State) (n : Nat) (q : IrqSrc) : (s.putSrc n q).lateUsed = s.lateUsed := rfl
@[simp] theorem State.putSrc_tiles (s : State) (n : Nat) (q : IrqSrc) : (s.putSrc n q).tiles = s.tiles := rfl
@[simp] theorem State.putSrc_idma (s : State) (n : Nat) (q : IrqSrc) : (s.putSrc n q).idma = s.idma := rfl
@[simp] theorem State.putSrc_ports (s : State) (n : Nat) (q : IrqSrc) : (s.putSrc n q).ports = s.ports := rfl
@[simp] theorem State.putSrc_inbound (s : State) (n : Nat) (q : IrqSrc) : (s.putSrc n q).inbound = s.inbound := rfl
@[simp] theorem State.putSrc_relay (s : State) (n : Nat) (q : IrqSrc) : (s.putSrc n q).relay = s.relay := rfl
@[simp] theorem State.putSrc_time (s : State) (n : Nat) (q : IrqSrc) : (s.putSrc n q).time = s.time := rfl
@[simp] theorem State.putSrc_ringIrq (s : State) (n : Nat) (q : IrqSrc) : (s.putSrc n q).ringIrq = s.ringIrq := rfl
@[simp] theorem State.putSrc_adu (s : State) (n : Nat) (q : IrqSrc) : (s.putSrc n q).adu = s.adu := rfl
@[simp] theorem State.putSrc_parts (s : State) (n : Nat) (q : IrqSrc) : (s.putSrc n q).parts = s.parts := rfl
@[simp] theorem State.putSrc_img (s : State) (n : Nat) (q : IrqSrc) : (s.putSrc n q).img = s.img := rfl
@[simp] theorem State.putSrc_boot (s : State) (n : Nat) (q : IrqSrc) : (s.putSrc n q).boot = s.boot := rfl
@[simp] theorem State.putSrc_stw (s : State) (n : Nat) (q : IrqSrc) : (s.putSrc n q).stw = s.stw := rfl
@[simp] theorem State.putSrc_resume (s : State) (n : Nat) (q : IrqSrc) : (s.putSrc n q).resume = s.resume := rfl
@[simp] theorem State.putSrc_lock (s : State) (n : Nat) (q : IrqSrc) : (s.putSrc n q).lock = s.lock := rfl
@[simp] theorem State.putSrc_fence (s : State) (n : Nat) (q : IrqSrc) : (s.putSrc n q).fence = s.fence := rfl
@[simp] theorem State.putSrc_spdm (s : State) (n : Nat) (q : IrqSrc) : (s.putSrc n q).spdm = s.spdm := rfl
@[simp] theorem State.putSrc_tel (s : State) (n : Nat) (q : IrqSrc) : (s.putSrc n q).tel = s.tel := rfl

/-! `refreshLine` changes only `irq`. -/

@[simp] theorem State.refreshLine_pending (s : State) (n : Nat) : (s.refreshLine n).pending = s.pending := rfl
@[simp] theorem State.refreshLine_out (s : State) (n : Nat) : (s.refreshLine n).out = s.out := rfl
@[simp] theorem State.refreshLine_free (s : State) (n : Nat) : (s.refreshLine n).free = s.free := rfl
@[simp] theorem State.refreshLine_regs (s : State) (n : Nat) : (s.refreshLine n).regs = s.regs := rfl
@[simp] theorem State.refreshLine_cores (s : State) (n : Nat) : (s.refreshLine n).cores = s.cores := rfl
@[simp] theorem State.refreshLine_pwr (s : State) (n : Nat) : (s.refreshLine n).pwr = s.pwr := rfl
@[simp] theorem State.refreshLine_fuses (s : State) (n : Nat) : (s.refreshLine n).fuses = s.fuses := rfl
@[simp] theorem State.refreshLine_hosts (s : State) (n : Nat) : (s.refreshLine n).hosts = s.hosts := rfl
@[simp] theorem State.refreshLine_lapseMs (s : State) (n : Nat) : (s.refreshLine n).lapseMs = s.lapseMs := rfl
@[simp] theorem State.refreshLine_lapseFrom (s : State) (n : Nat) : (s.refreshLine n).lapseFrom = s.lapseFrom := rfl
@[simp] theorem State.refreshLine_sram (s : State) (n : Nat) : (s.refreshLine n).sram = s.sram := rfl
@[simp] theorem State.refreshLine_sramBad (s : State) (n : Nat) : (s.refreshLine n).sramBad = s.sramBad := rfl
@[simp] theorem State.refreshLine_dram (s : State) (n : Nat) : (s.refreshLine n).dram = s.dram := rfl
@[simp] theorem State.refreshLine_dramBad (s : State) (n : Nat) : (s.refreshLine n).dramBad = s.dramBad := rfl
@[simp] theorem State.refreshLine_rows (s : State) (n : Nat) : (s.refreshLine n).rows = s.rows := rfl
@[simp] theorem State.refreshLine_rgns (s : State) (n : Nat) : (s.refreshLine n).rgns = s.rgns := rfl
@[simp] theorem State.refreshLine_late (s : State) (n : Nat) : (s.refreshLine n).late = s.late := rfl
@[simp] theorem State.refreshLine_lateUsed (s : State) (n : Nat) : (s.refreshLine n).lateUsed = s.lateUsed := rfl
@[simp] theorem State.refreshLine_tiles (s : State) (n : Nat) : (s.refreshLine n).tiles = s.tiles := rfl
@[simp] theorem State.refreshLine_idma (s : State) (n : Nat) : (s.refreshLine n).idma = s.idma := rfl
@[simp] theorem State.refreshLine_ports (s : State) (n : Nat) : (s.refreshLine n).ports = s.ports := rfl
@[simp] theorem State.refreshLine_inbound (s : State) (n : Nat) : (s.refreshLine n).inbound = s.inbound := rfl
@[simp] theorem State.refreshLine_relay (s : State) (n : Nat) : (s.refreshLine n).relay = s.relay := rfl
@[simp] theorem State.refreshLine_time (s : State) (n : Nat) : (s.refreshLine n).time = s.time := rfl
@[simp] theorem State.refreshLine_ringIrq (s : State) (n : Nat) : (s.refreshLine n).ringIrq = s.ringIrq := rfl
@[simp] theorem State.refreshLine_adu (s : State) (n : Nat) : (s.refreshLine n).adu = s.adu := rfl
@[simp] theorem State.refreshLine_parts (s : State) (n : Nat) : (s.refreshLine n).parts = s.parts := rfl
@[simp] theorem State.refreshLine_img (s : State) (n : Nat) : (s.refreshLine n).img = s.img := rfl
@[simp] theorem State.refreshLine_boot (s : State) (n : Nat) : (s.refreshLine n).boot = s.boot := rfl
@[simp] theorem State.refreshLine_stw (s : State) (n : Nat) : (s.refreshLine n).stw = s.stw := rfl
@[simp] theorem State.refreshLine_resume (s : State) (n : Nat) : (s.refreshLine n).resume = s.resume := rfl
@[simp] theorem State.refreshLine_lock (s : State) (n : Nat) : (s.refreshLine n).lock = s.lock := rfl
@[simp] theorem State.refreshLine_fence (s : State) (n : Nat) : (s.refreshLine n).fence = s.fence := rfl
@[simp] theorem State.refreshLine_spdm (s : State) (n : Nat) : (s.refreshLine n).spdm = s.spdm := rfl
@[simp] theorem State.refreshLine_tel (s : State) (n : Nat) : (s.refreshLine n).tel = s.tel := rfl

/-! `pulse` changes only `irq`. -/

@[simp] theorem State.pulse_pending (s : State) (n : Nat) : (s.pulse n).pending = s.pending := rfl
@[simp] theorem State.pulse_out (s : State) (n : Nat) : (s.pulse n).out = s.out := rfl
@[simp] theorem State.pulse_free (s : State) (n : Nat) : (s.pulse n).free = s.free := rfl
@[simp] theorem State.pulse_regs (s : State) (n : Nat) : (s.pulse n).regs = s.regs := rfl
@[simp] theorem State.pulse_cores (s : State) (n : Nat) : (s.pulse n).cores = s.cores := rfl
@[simp] theorem State.pulse_pwr (s : State) (n : Nat) : (s.pulse n).pwr = s.pwr := rfl
@[simp] theorem State.pulse_fuses (s : State) (n : Nat) : (s.pulse n).fuses = s.fuses := rfl
@[simp] theorem State.pulse_hosts (s : State) (n : Nat) : (s.pulse n).hosts = s.hosts := rfl
@[simp] theorem State.pulse_lapseMs (s : State) (n : Nat) : (s.pulse n).lapseMs = s.lapseMs := rfl
@[simp] theorem State.pulse_lapseFrom (s : State) (n : Nat) : (s.pulse n).lapseFrom = s.lapseFrom := rfl
@[simp] theorem State.pulse_sram (s : State) (n : Nat) : (s.pulse n).sram = s.sram := rfl
@[simp] theorem State.pulse_sramBad (s : State) (n : Nat) : (s.pulse n).sramBad = s.sramBad := rfl
@[simp] theorem State.pulse_dram (s : State) (n : Nat) : (s.pulse n).dram = s.dram := rfl
@[simp] theorem State.pulse_dramBad (s : State) (n : Nat) : (s.pulse n).dramBad = s.dramBad := rfl
@[simp] theorem State.pulse_rows (s : State) (n : Nat) : (s.pulse n).rows = s.rows := rfl
@[simp] theorem State.pulse_rgns (s : State) (n : Nat) : (s.pulse n).rgns = s.rgns := rfl
@[simp] theorem State.pulse_late (s : State) (n : Nat) : (s.pulse n).late = s.late := rfl
@[simp] theorem State.pulse_lateUsed (s : State) (n : Nat) : (s.pulse n).lateUsed = s.lateUsed := rfl
@[simp] theorem State.pulse_tiles (s : State) (n : Nat) : (s.pulse n).tiles = s.tiles := rfl
@[simp] theorem State.pulse_idma (s : State) (n : Nat) : (s.pulse n).idma = s.idma := rfl
@[simp] theorem State.pulse_ports (s : State) (n : Nat) : (s.pulse n).ports = s.ports := rfl
@[simp] theorem State.pulse_inbound (s : State) (n : Nat) : (s.pulse n).inbound = s.inbound := rfl
@[simp] theorem State.pulse_relay (s : State) (n : Nat) : (s.pulse n).relay = s.relay := rfl
@[simp] theorem State.pulse_time (s : State) (n : Nat) : (s.pulse n).time = s.time := rfl
@[simp] theorem State.pulse_ringIrq (s : State) (n : Nat) : (s.pulse n).ringIrq = s.ringIrq := rfl
@[simp] theorem State.pulse_adu (s : State) (n : Nat) : (s.pulse n).adu = s.adu := rfl
@[simp] theorem State.pulse_parts (s : State) (n : Nat) : (s.pulse n).parts = s.parts := rfl
@[simp] theorem State.pulse_img (s : State) (n : Nat) : (s.pulse n).img = s.img := rfl
@[simp] theorem State.pulse_boot (s : State) (n : Nat) : (s.pulse n).boot = s.boot := rfl
@[simp] theorem State.pulse_stw (s : State) (n : Nat) : (s.pulse n).stw = s.stw := rfl
@[simp] theorem State.pulse_resume (s : State) (n : Nat) : (s.pulse n).resume = s.resume := rfl
@[simp] theorem State.pulse_lock (s : State) (n : Nat) : (s.pulse n).lock = s.lock := rfl
@[simp] theorem State.pulse_fence (s : State) (n : Nat) : (s.pulse n).fence = s.fence := rfl
@[simp] theorem State.pulse_spdm (s : State) (n : Nat) : (s.pulse n).spdm = s.spdm := rfl
@[simp] theorem State.pulse_tel (s : State) (n : Nat) : (s.pulse n).tel = s.tel := rfl

/-! `emit` changes only `out`. -/

@[simp] theorem State.emit_pending (s : State) (o : Out) : (s.emit o).pending = s.pending := rfl
@[simp] theorem State.emit_free (s : State) (o : Out) : (s.emit o).free = s.free := rfl
@[simp] theorem State.emit_regs (s : State) (o : Out) : (s.emit o).regs = s.regs := rfl
@[simp] theorem State.emit_irq (s : State) (o : Out) : (s.emit o).irq = s.irq := rfl
@[simp] theorem State.emit_cores (s : State) (o : Out) : (s.emit o).cores = s.cores := rfl
@[simp] theorem State.emit_pwr (s : State) (o : Out) : (s.emit o).pwr = s.pwr := rfl
@[simp] theorem State.emit_fuses (s : State) (o : Out) : (s.emit o).fuses = s.fuses := rfl
@[simp] theorem State.emit_hosts (s : State) (o : Out) : (s.emit o).hosts = s.hosts := rfl
@[simp] theorem State.emit_lapseMs (s : State) (o : Out) : (s.emit o).lapseMs = s.lapseMs := rfl
@[simp] theorem State.emit_lapseFrom (s : State) (o : Out) : (s.emit o).lapseFrom = s.lapseFrom := rfl
@[simp] theorem State.emit_sram (s : State) (o : Out) : (s.emit o).sram = s.sram := rfl
@[simp] theorem State.emit_sramBad (s : State) (o : Out) : (s.emit o).sramBad = s.sramBad := rfl
@[simp] theorem State.emit_dram (s : State) (o : Out) : (s.emit o).dram = s.dram := rfl
@[simp] theorem State.emit_dramBad (s : State) (o : Out) : (s.emit o).dramBad = s.dramBad := rfl
@[simp] theorem State.emit_rows (s : State) (o : Out) : (s.emit o).rows = s.rows := rfl
@[simp] theorem State.emit_rgns (s : State) (o : Out) : (s.emit o).rgns = s.rgns := rfl
@[simp] theorem State.emit_late (s : State) (o : Out) : (s.emit o).late = s.late := rfl
@[simp] theorem State.emit_lateUsed (s : State) (o : Out) : (s.emit o).lateUsed = s.lateUsed := rfl
@[simp] theorem State.emit_tiles (s : State) (o : Out) : (s.emit o).tiles = s.tiles := rfl
@[simp] theorem State.emit_idma (s : State) (o : Out) : (s.emit o).idma = s.idma := rfl
@[simp] theorem State.emit_ports (s : State) (o : Out) : (s.emit o).ports = s.ports := rfl
@[simp] theorem State.emit_inbound (s : State) (o : Out) : (s.emit o).inbound = s.inbound := rfl
@[simp] theorem State.emit_relay (s : State) (o : Out) : (s.emit o).relay = s.relay := rfl
@[simp] theorem State.emit_time (s : State) (o : Out) : (s.emit o).time = s.time := rfl
@[simp] theorem State.emit_ringIrq (s : State) (o : Out) : (s.emit o).ringIrq = s.ringIrq := rfl
@[simp] theorem State.emit_adu (s : State) (o : Out) : (s.emit o).adu = s.adu := rfl
@[simp] theorem State.emit_parts (s : State) (o : Out) : (s.emit o).parts = s.parts := rfl
@[simp] theorem State.emit_img (s : State) (o : Out) : (s.emit o).img = s.img := rfl
@[simp] theorem State.emit_boot (s : State) (o : Out) : (s.emit o).boot = s.boot := rfl
@[simp] theorem State.emit_stw (s : State) (o : Out) : (s.emit o).stw = s.stw := rfl
@[simp] theorem State.emit_resume (s : State) (o : Out) : (s.emit o).resume = s.resume := rfl
@[simp] theorem State.emit_lock (s : State) (o : Out) : (s.emit o).lock = s.lock := rfl
@[simp] theorem State.emit_fence (s : State) (o : Out) : (s.emit o).fence = s.fence := rfl
@[simp] theorem State.emit_spdm (s : State) (o : Out) : (s.emit o).spdm = s.spdm := rfl
@[simp] theorem State.emit_tel (s : State) (o : Out) : (s.emit o).tel = s.tel := rfl

/-! `putTile` changes only `tiles`. -/

@[simp] theorem State.putTile_pending (s : State) (g : Nat) (t : Tile) : (s.putTile g t).pending = s.pending := rfl
@[simp] theorem State.putTile_out (s : State) (g : Nat) (t : Tile) : (s.putTile g t).out = s.out := rfl
@[simp] theorem State.putTile_free (s : State) (g : Nat) (t : Tile) : (s.putTile g t).free = s.free := rfl
@[simp] theorem State.putTile_regs (s : State) (g : Nat) (t : Tile) : (s.putTile g t).regs = s.regs := rfl
@[simp] theorem State.putTile_irq (s : State) (g : Nat) (t : Tile) : (s.putTile g t).irq = s.irq := rfl
@[simp] theorem State.putTile_cores (s : State) (g : Nat) (t : Tile) : (s.putTile g t).cores = s.cores := rfl
@[simp] theorem State.putTile_pwr (s : State) (g : Nat) (t : Tile) : (s.putTile g t).pwr = s.pwr := rfl
@[simp] theorem State.putTile_fuses (s : State) (g : Nat) (t : Tile) : (s.putTile g t).fuses = s.fuses := rfl
@[simp] theorem State.putTile_hosts (s : State) (g : Nat) (t : Tile) : (s.putTile g t).hosts = s.hosts := rfl
@[simp] theorem State.putTile_lapseMs (s : State) (g : Nat) (t : Tile) : (s.putTile g t).lapseMs = s.lapseMs := rfl
@[simp] theorem State.putTile_lapseFrom (s : State) (g : Nat) (t : Tile) : (s.putTile g t).lapseFrom = s.lapseFrom := rfl
@[simp] theorem State.putTile_sram (s : State) (g : Nat) (t : Tile) : (s.putTile g t).sram = s.sram := rfl
@[simp] theorem State.putTile_sramBad (s : State) (g : Nat) (t : Tile) : (s.putTile g t).sramBad = s.sramBad := rfl
@[simp] theorem State.putTile_dram (s : State) (g : Nat) (t : Tile) : (s.putTile g t).dram = s.dram := rfl
@[simp] theorem State.putTile_dramBad (s : State) (g : Nat) (t : Tile) : (s.putTile g t).dramBad = s.dramBad := rfl
@[simp] theorem State.putTile_rows (s : State) (g : Nat) (t : Tile) : (s.putTile g t).rows = s.rows := rfl
@[simp] theorem State.putTile_rgns (s : State) (g : Nat) (t : Tile) : (s.putTile g t).rgns = s.rgns := rfl
@[simp] theorem State.putTile_late (s : State) (g : Nat) (t : Tile) : (s.putTile g t).late = s.late := rfl
@[simp] theorem State.putTile_lateUsed (s : State) (g : Nat) (t : Tile) : (s.putTile g t).lateUsed = s.lateUsed := rfl
@[simp] theorem State.putTile_idma (s : State) (g : Nat) (t : Tile) : (s.putTile g t).idma = s.idma := rfl
@[simp] theorem State.putTile_ports (s : State) (g : Nat) (t : Tile) : (s.putTile g t).ports = s.ports := rfl
@[simp] theorem State.putTile_inbound (s : State) (g : Nat) (t : Tile) : (s.putTile g t).inbound = s.inbound := rfl
@[simp] theorem State.putTile_relay (s : State) (g : Nat) (t : Tile) : (s.putTile g t).relay = s.relay := rfl
@[simp] theorem State.putTile_time (s : State) (g : Nat) (t : Tile) : (s.putTile g t).time = s.time := rfl
@[simp] theorem State.putTile_ringIrq (s : State) (g : Nat) (t : Tile) : (s.putTile g t).ringIrq = s.ringIrq := rfl
@[simp] theorem State.putTile_adu (s : State) (g : Nat) (t : Tile) : (s.putTile g t).adu = s.adu := rfl
@[simp] theorem State.putTile_parts (s : State) (g : Nat) (t : Tile) : (s.putTile g t).parts = s.parts := rfl
@[simp] theorem State.putTile_img (s : State) (g : Nat) (t : Tile) : (s.putTile g t).img = s.img := rfl
@[simp] theorem State.putTile_boot (s : State) (g : Nat) (t : Tile) : (s.putTile g t).boot = s.boot := rfl
@[simp] theorem State.putTile_stw (s : State) (g : Nat) (t : Tile) : (s.putTile g t).stw = s.stw := rfl
@[simp] theorem State.putTile_resume (s : State) (g : Nat) (t : Tile) : (s.putTile g t).resume = s.resume := rfl
@[simp] theorem State.putTile_lock (s : State) (g : Nat) (t : Tile) : (s.putTile g t).lock = s.lock := rfl
@[simp] theorem State.putTile_fence (s : State) (g : Nat) (t : Tile) : (s.putTile g t).fence = s.fence := rfl
@[simp] theorem State.putTile_spdm (s : State) (g : Nat) (t : Tile) : (s.putTile g t).spdm = s.spdm := rfl
@[simp] theorem State.putTile_tel (s : State) (g : Nat) (t : Tile) : (s.putTile g t).tel = s.tel := rfl

/-! `modTile` changes only `tiles`. -/

@[simp] theorem State.modTile_pending (s : State) (g : Nat) (f : Tile → Tile) : (s.modTile g f).pending = s.pending := rfl
@[simp] theorem State.modTile_out (s : State) (g : Nat) (f : Tile → Tile) : (s.modTile g f).out = s.out := rfl
@[simp] theorem State.modTile_free (s : State) (g : Nat) (f : Tile → Tile) : (s.modTile g f).free = s.free := rfl
@[simp] theorem State.modTile_regs (s : State) (g : Nat) (f : Tile → Tile) : (s.modTile g f).regs = s.regs := rfl
@[simp] theorem State.modTile_irq (s : State) (g : Nat) (f : Tile → Tile) : (s.modTile g f).irq = s.irq := rfl
@[simp] theorem State.modTile_cores (s : State) (g : Nat) (f : Tile → Tile) : (s.modTile g f).cores = s.cores := rfl
@[simp] theorem State.modTile_pwr (s : State) (g : Nat) (f : Tile → Tile) : (s.modTile g f).pwr = s.pwr := rfl
@[simp] theorem State.modTile_fuses (s : State) (g : Nat) (f : Tile → Tile) : (s.modTile g f).fuses = s.fuses := rfl
@[simp] theorem State.modTile_hosts (s : State) (g : Nat) (f : Tile → Tile) : (s.modTile g f).hosts = s.hosts := rfl
@[simp] theorem State.modTile_lapseMs (s : State) (g : Nat) (f : Tile → Tile) : (s.modTile g f).lapseMs = s.lapseMs := rfl
@[simp] theorem State.modTile_lapseFrom (s : State) (g : Nat) (f : Tile → Tile) : (s.modTile g f).lapseFrom = s.lapseFrom := rfl
@[simp] theorem State.modTile_sram (s : State) (g : Nat) (f : Tile → Tile) : (s.modTile g f).sram = s.sram := rfl
@[simp] theorem State.modTile_sramBad (s : State) (g : Nat) (f : Tile → Tile) : (s.modTile g f).sramBad = s.sramBad := rfl
@[simp] theorem State.modTile_dram (s : State) (g : Nat) (f : Tile → Tile) : (s.modTile g f).dram = s.dram := rfl
@[simp] theorem State.modTile_dramBad (s : State) (g : Nat) (f : Tile → Tile) : (s.modTile g f).dramBad = s.dramBad := rfl
@[simp] theorem State.modTile_rows (s : State) (g : Nat) (f : Tile → Tile) : (s.modTile g f).rows = s.rows := rfl
@[simp] theorem State.modTile_rgns (s : State) (g : Nat) (f : Tile → Tile) : (s.modTile g f).rgns = s.rgns := rfl
@[simp] theorem State.modTile_late (s : State) (g : Nat) (f : Tile → Tile) : (s.modTile g f).late = s.late := rfl
@[simp] theorem State.modTile_lateUsed (s : State) (g : Nat) (f : Tile → Tile) : (s.modTile g f).lateUsed = s.lateUsed := rfl
@[simp] theorem State.modTile_idma (s : State) (g : Nat) (f : Tile → Tile) : (s.modTile g f).idma = s.idma := rfl
@[simp] theorem State.modTile_ports (s : State) (g : Nat) (f : Tile → Tile) : (s.modTile g f).ports = s.ports := rfl
@[simp] theorem State.modTile_inbound (s : State) (g : Nat) (f : Tile → Tile) : (s.modTile g f).inbound = s.inbound := rfl
@[simp] theorem State.modTile_relay (s : State) (g : Nat) (f : Tile → Tile) : (s.modTile g f).relay = s.relay := rfl
@[simp] theorem State.modTile_time (s : State) (g : Nat) (f : Tile → Tile) : (s.modTile g f).time = s.time := rfl
@[simp] theorem State.modTile_ringIrq (s : State) (g : Nat) (f : Tile → Tile) : (s.modTile g f).ringIrq = s.ringIrq := rfl
@[simp] theorem State.modTile_adu (s : State) (g : Nat) (f : Tile → Tile) : (s.modTile g f).adu = s.adu := rfl
@[simp] theorem State.modTile_parts (s : State) (g : Nat) (f : Tile → Tile) : (s.modTile g f).parts = s.parts := rfl
@[simp] theorem State.modTile_img (s : State) (g : Nat) (f : Tile → Tile) : (s.modTile g f).img = s.img := rfl
@[simp] theorem State.modTile_boot (s : State) (g : Nat) (f : Tile → Tile) : (s.modTile g f).boot = s.boot := rfl
@[simp] theorem State.modTile_stw (s : State) (g : Nat) (f : Tile → Tile) : (s.modTile g f).stw = s.stw := rfl
@[simp] theorem State.modTile_resume (s : State) (g : Nat) (f : Tile → Tile) : (s.modTile g f).resume = s.resume := rfl
@[simp] theorem State.modTile_lock (s : State) (g : Nat) (f : Tile → Tile) : (s.modTile g f).lock = s.lock := rfl
@[simp] theorem State.modTile_fence (s : State) (g : Nat) (f : Tile → Tile) : (s.modTile g f).fence = s.fence := rfl
@[simp] theorem State.modTile_spdm (s : State) (g : Nat) (f : Tile → Tile) : (s.modTile g f).spdm = s.spdm := rfl
@[simp] theorem State.modTile_tel (s : State) (g : Nat) (f : Tile → Tile) : (s.modTile g f).tel = s.tel := rfl

/-! `modRgn` changes only `rgns`. -/

@[simp] theorem State.modRgn_pending (s : State) (n : Nat) (f : RgnSt → RgnSt) : (s.modRgn n f).pending = s.pending := rfl
@[simp] theorem State.modRgn_out (s : State) (n : Nat) (f : RgnSt → RgnSt) : (s.modRgn n f).out = s.out := rfl
@[simp] theorem State.modRgn_free (s : State) (n : Nat) (f : RgnSt → RgnSt) : (s.modRgn n f).free = s.free := rfl
@[simp] theorem State.modRgn_regs (s : State) (n : Nat) (f : RgnSt → RgnSt) : (s.modRgn n f).regs = s.regs := rfl
@[simp] theorem State.modRgn_irq (s : State) (n : Nat) (f : RgnSt → RgnSt) : (s.modRgn n f).irq = s.irq := rfl
@[simp] theorem State.modRgn_cores (s : State) (n : Nat) (f : RgnSt → RgnSt) : (s.modRgn n f).cores = s.cores := rfl
@[simp] theorem State.modRgn_pwr (s : State) (n : Nat) (f : RgnSt → RgnSt) : (s.modRgn n f).pwr = s.pwr := rfl
@[simp] theorem State.modRgn_fuses (s : State) (n : Nat) (f : RgnSt → RgnSt) : (s.modRgn n f).fuses = s.fuses := rfl
@[simp] theorem State.modRgn_hosts (s : State) (n : Nat) (f : RgnSt → RgnSt) : (s.modRgn n f).hosts = s.hosts := rfl
@[simp] theorem State.modRgn_lapseMs (s : State) (n : Nat) (f : RgnSt → RgnSt) : (s.modRgn n f).lapseMs = s.lapseMs := rfl
@[simp] theorem State.modRgn_lapseFrom (s : State) (n : Nat) (f : RgnSt → RgnSt) : (s.modRgn n f).lapseFrom = s.lapseFrom := rfl
@[simp] theorem State.modRgn_sram (s : State) (n : Nat) (f : RgnSt → RgnSt) : (s.modRgn n f).sram = s.sram := rfl
@[simp] theorem State.modRgn_sramBad (s : State) (n : Nat) (f : RgnSt → RgnSt) : (s.modRgn n f).sramBad = s.sramBad := rfl
@[simp] theorem State.modRgn_dram (s : State) (n : Nat) (f : RgnSt → RgnSt) : (s.modRgn n f).dram = s.dram := rfl
@[simp] theorem State.modRgn_dramBad (s : State) (n : Nat) (f : RgnSt → RgnSt) : (s.modRgn n f).dramBad = s.dramBad := rfl
@[simp] theorem State.modRgn_rows (s : State) (n : Nat) (f : RgnSt → RgnSt) : (s.modRgn n f).rows = s.rows := rfl
@[simp] theorem State.modRgn_tiles (s : State) (n : Nat) (f : RgnSt → RgnSt) : (s.modRgn n f).tiles = s.tiles := rfl
@[simp] theorem State.modRgn_idma (s : State) (n : Nat) (f : RgnSt → RgnSt) : (s.modRgn n f).idma = s.idma := rfl
@[simp] theorem State.modRgn_ports (s : State) (n : Nat) (f : RgnSt → RgnSt) : (s.modRgn n f).ports = s.ports := rfl
@[simp] theorem State.modRgn_inbound (s : State) (n : Nat) (f : RgnSt → RgnSt) : (s.modRgn n f).inbound = s.inbound := rfl
@[simp] theorem State.modRgn_relay (s : State) (n : Nat) (f : RgnSt → RgnSt) : (s.modRgn n f).relay = s.relay := rfl
@[simp] theorem State.modRgn_time (s : State) (n : Nat) (f : RgnSt → RgnSt) : (s.modRgn n f).time = s.time := rfl
@[simp] theorem State.modRgn_ringIrq (s : State) (n : Nat) (f : RgnSt → RgnSt) : (s.modRgn n f).ringIrq = s.ringIrq := rfl
@[simp] theorem State.modRgn_adu (s : State) (n : Nat) (f : RgnSt → RgnSt) : (s.modRgn n f).adu = s.adu := rfl
@[simp] theorem State.modRgn_parts (s : State) (n : Nat) (f : RgnSt → RgnSt) : (s.modRgn n f).parts = s.parts := rfl
@[simp] theorem State.modRgn_img (s : State) (n : Nat) (f : RgnSt → RgnSt) : (s.modRgn n f).img = s.img := rfl
@[simp] theorem State.modRgn_late (s : State) (n : Nat) (f : RgnSt → RgnSt) : (s.modRgn n f).late = s.late := rfl
@[simp] theorem State.modRgn_lateUsed (s : State) (n : Nat) (f : RgnSt → RgnSt) : (s.modRgn n f).lateUsed = s.lateUsed := rfl
@[simp] theorem State.modRgn_boot (s : State) (n : Nat) (f : RgnSt → RgnSt) : (s.modRgn n f).boot = s.boot := rfl
@[simp] theorem State.modRgn_stw (s : State) (n : Nat) (f : RgnSt → RgnSt) : (s.modRgn n f).stw = s.stw := rfl
@[simp] theorem State.modRgn_resume (s : State) (n : Nat) (f : RgnSt → RgnSt) : (s.modRgn n f).resume = s.resume := rfl
@[simp] theorem State.modRgn_lock (s : State) (n : Nat) (f : RgnSt → RgnSt) : (s.modRgn n f).lock = s.lock := rfl
@[simp] theorem State.modRgn_fence (s : State) (n : Nat) (f : RgnSt → RgnSt) : (s.modRgn n f).fence = s.fence := rfl
@[simp] theorem State.modRgn_spdm (s : State) (n : Nat) (f : RgnSt → RgnSt) : (s.modRgn n f).spdm = s.spdm := rfl
@[simp] theorem State.modRgn_tel (s : State) (n : Nat) (f : RgnSt → RgnSt) : (s.modRgn n f).tel = s.tel := rfl

/-! `modPort` changes only `ports`. -/

@[simp] theorem State.modPort_pending (s : State) (p : Nat) (f : PortSt → PortSt) : (s.modPort p f).pending = s.pending := rfl
@[simp] theorem State.modPort_out (s : State) (p : Nat) (f : PortSt → PortSt) : (s.modPort p f).out = s.out := rfl
@[simp] theorem State.modPort_free (s : State) (p : Nat) (f : PortSt → PortSt) : (s.modPort p f).free = s.free := rfl
@[simp] theorem State.modPort_regs (s : State) (p : Nat) (f : PortSt → PortSt) : (s.modPort p f).regs = s.regs := rfl
@[simp] theorem State.modPort_irq (s : State) (p : Nat) (f : PortSt → PortSt) : (s.modPort p f).irq = s.irq := rfl
@[simp] theorem State.modPort_cores (s : State) (p : Nat) (f : PortSt → PortSt) : (s.modPort p f).cores = s.cores := rfl
@[simp] theorem State.modPort_pwr (s : State) (p : Nat) (f : PortSt → PortSt) : (s.modPort p f).pwr = s.pwr := rfl
@[simp] theorem State.modPort_fuses (s : State) (p : Nat) (f : PortSt → PortSt) : (s.modPort p f).fuses = s.fuses := rfl
@[simp] theorem State.modPort_hosts (s : State) (p : Nat) (f : PortSt → PortSt) : (s.modPort p f).hosts = s.hosts := rfl
@[simp] theorem State.modPort_lapseMs (s : State) (p : Nat) (f : PortSt → PortSt) : (s.modPort p f).lapseMs = s.lapseMs := rfl
@[simp] theorem State.modPort_lapseFrom (s : State) (p : Nat) (f : PortSt → PortSt) : (s.modPort p f).lapseFrom = s.lapseFrom := rfl
@[simp] theorem State.modPort_sram (s : State) (p : Nat) (f : PortSt → PortSt) : (s.modPort p f).sram = s.sram := rfl
@[simp] theorem State.modPort_sramBad (s : State) (p : Nat) (f : PortSt → PortSt) : (s.modPort p f).sramBad = s.sramBad := rfl
@[simp] theorem State.modPort_dram (s : State) (p : Nat) (f : PortSt → PortSt) : (s.modPort p f).dram = s.dram := rfl
@[simp] theorem State.modPort_dramBad (s : State) (p : Nat) (f : PortSt → PortSt) : (s.modPort p f).dramBad = s.dramBad := rfl
@[simp] theorem State.modPort_rows (s : State) (p : Nat) (f : PortSt → PortSt) : (s.modPort p f).rows = s.rows := rfl
@[simp] theorem State.modPort_rgns (s : State) (p : Nat) (f : PortSt → PortSt) : (s.modPort p f).rgns = s.rgns := rfl
@[simp] theorem State.modPort_late (s : State) (p : Nat) (f : PortSt → PortSt) : (s.modPort p f).late = s.late := rfl
@[simp] theorem State.modPort_lateUsed (s : State) (p : Nat) (f : PortSt → PortSt) : (s.modPort p f).lateUsed = s.lateUsed := rfl
@[simp] theorem State.modPort_tiles (s : State) (p : Nat) (f : PortSt → PortSt) : (s.modPort p f).tiles = s.tiles := rfl
@[simp] theorem State.modPort_idma (s : State) (p : Nat) (f : PortSt → PortSt) : (s.modPort p f).idma = s.idma := rfl
@[simp] theorem State.modPort_inbound (s : State) (p : Nat) (f : PortSt → PortSt) : (s.modPort p f).inbound = s.inbound := rfl
@[simp] theorem State.modPort_relay (s : State) (p : Nat) (f : PortSt → PortSt) : (s.modPort p f).relay = s.relay := rfl
@[simp] theorem State.modPort_time (s : State) (p : Nat) (f : PortSt → PortSt) : (s.modPort p f).time = s.time := rfl
@[simp] theorem State.modPort_ringIrq (s : State) (p : Nat) (f : PortSt → PortSt) : (s.modPort p f).ringIrq = s.ringIrq := rfl
@[simp] theorem State.modPort_adu (s : State) (p : Nat) (f : PortSt → PortSt) : (s.modPort p f).adu = s.adu := rfl
@[simp] theorem State.modPort_parts (s : State) (p : Nat) (f : PortSt → PortSt) : (s.modPort p f).parts = s.parts := rfl
@[simp] theorem State.modPort_img (s : State) (p : Nat) (f : PortSt → PortSt) : (s.modPort p f).img = s.img := rfl
@[simp] theorem State.modPort_boot (s : State) (p : Nat) (f : PortSt → PortSt) : (s.modPort p f).boot = s.boot := rfl
@[simp] theorem State.modPort_stw (s : State) (p : Nat) (f : PortSt → PortSt) : (s.modPort p f).stw = s.stw := rfl
@[simp] theorem State.modPort_resume (s : State) (p : Nat) (f : PortSt → PortSt) : (s.modPort p f).resume = s.resume := rfl
@[simp] theorem State.modPort_lock (s : State) (p : Nat) (f : PortSt → PortSt) : (s.modPort p f).lock = s.lock := rfl
@[simp] theorem State.modPort_fence (s : State) (p : Nat) (f : PortSt → PortSt) : (s.modPort p f).fence = s.fence := rfl
@[simp] theorem State.modPort_spdm (s : State) (p : Nat) (f : PortSt → PortSt) : (s.modPort p f).spdm = s.spdm := rfl
@[simp] theorem State.modPort_tel (s : State) (p : Nat) (f : PortSt → PortSt) : (s.modPort p f).tel = s.tel := rfl

/-! `modHost` changes only `hosts`. -/

@[simp] theorem State.modHost_pending (s : State) (p : Nat) (f : HostSt → HostSt) : (s.modHost p f).pending = s.pending := rfl
@[simp] theorem State.modHost_out (s : State) (p : Nat) (f : HostSt → HostSt) : (s.modHost p f).out = s.out := rfl
@[simp] theorem State.modHost_free (s : State) (p : Nat) (f : HostSt → HostSt) : (s.modHost p f).free = s.free := rfl
@[simp] theorem State.modHost_regs (s : State) (p : Nat) (f : HostSt → HostSt) : (s.modHost p f).regs = s.regs := rfl
@[simp] theorem State.modHost_irq (s : State) (p : Nat) (f : HostSt → HostSt) : (s.modHost p f).irq = s.irq := rfl
@[simp] theorem State.modHost_cores (s : State) (p : Nat) (f : HostSt → HostSt) : (s.modHost p f).cores = s.cores := rfl
@[simp] theorem State.modHost_pwr (s : State) (p : Nat) (f : HostSt → HostSt) : (s.modHost p f).pwr = s.pwr := rfl
@[simp] theorem State.modHost_fuses (s : State) (p : Nat) (f : HostSt → HostSt) : (s.modHost p f).fuses = s.fuses := rfl
@[simp] theorem State.modHost_lapseMs (s : State) (p : Nat) (f : HostSt → HostSt) : (s.modHost p f).lapseMs = s.lapseMs := rfl
@[simp] theorem State.modHost_lapseFrom (s : State) (p : Nat) (f : HostSt → HostSt) : (s.modHost p f).lapseFrom = s.lapseFrom := rfl
@[simp] theorem State.modHost_sram (s : State) (p : Nat) (f : HostSt → HostSt) : (s.modHost p f).sram = s.sram := rfl
@[simp] theorem State.modHost_sramBad (s : State) (p : Nat) (f : HostSt → HostSt) : (s.modHost p f).sramBad = s.sramBad := rfl
@[simp] theorem State.modHost_dram (s : State) (p : Nat) (f : HostSt → HostSt) : (s.modHost p f).dram = s.dram := rfl
@[simp] theorem State.modHost_dramBad (s : State) (p : Nat) (f : HostSt → HostSt) : (s.modHost p f).dramBad = s.dramBad := rfl
@[simp] theorem State.modHost_rows (s : State) (p : Nat) (f : HostSt → HostSt) : (s.modHost p f).rows = s.rows := rfl
@[simp] theorem State.modHost_rgns (s : State) (p : Nat) (f : HostSt → HostSt) : (s.modHost p f).rgns = s.rgns := rfl
@[simp] theorem State.modHost_late (s : State) (p : Nat) (f : HostSt → HostSt) : (s.modHost p f).late = s.late := rfl
@[simp] theorem State.modHost_lateUsed (s : State) (p : Nat) (f : HostSt → HostSt) : (s.modHost p f).lateUsed = s.lateUsed := rfl
@[simp] theorem State.modHost_tiles (s : State) (p : Nat) (f : HostSt → HostSt) : (s.modHost p f).tiles = s.tiles := rfl
@[simp] theorem State.modHost_idma (s : State) (p : Nat) (f : HostSt → HostSt) : (s.modHost p f).idma = s.idma := rfl
@[simp] theorem State.modHost_ports (s : State) (p : Nat) (f : HostSt → HostSt) : (s.modHost p f).ports = s.ports := rfl
@[simp] theorem State.modHost_inbound (s : State) (p : Nat) (f : HostSt → HostSt) : (s.modHost p f).inbound = s.inbound := rfl
@[simp] theorem State.modHost_relay (s : State) (p : Nat) (f : HostSt → HostSt) : (s.modHost p f).relay = s.relay := rfl
@[simp] theorem State.modHost_time (s : State) (p : Nat) (f : HostSt → HostSt) : (s.modHost p f).time = s.time := rfl
@[simp] theorem State.modHost_ringIrq (s : State) (p : Nat) (f : HostSt → HostSt) : (s.modHost p f).ringIrq = s.ringIrq := rfl
@[simp] theorem State.modHost_adu (s : State) (p : Nat) (f : HostSt → HostSt) : (s.modHost p f).adu = s.adu := rfl
@[simp] theorem State.modHost_parts (s : State) (p : Nat) (f : HostSt → HostSt) : (s.modHost p f).parts = s.parts := rfl
@[simp] theorem State.modHost_img (s : State) (p : Nat) (f : HostSt → HostSt) : (s.modHost p f).img = s.img := rfl
@[simp] theorem State.modHost_boot (s : State) (p : Nat) (f : HostSt → HostSt) : (s.modHost p f).boot = s.boot := rfl
@[simp] theorem State.modHost_stw (s : State) (p : Nat) (f : HostSt → HostSt) : (s.modHost p f).stw = s.stw := rfl
@[simp] theorem State.modHost_resume (s : State) (p : Nat) (f : HostSt → HostSt) : (s.modHost p f).resume = s.resume := rfl
@[simp] theorem State.modHost_lock (s : State) (p : Nat) (f : HostSt → HostSt) : (s.modHost p f).lock = s.lock := rfl
@[simp] theorem State.modHost_fence (s : State) (p : Nat) (f : HostSt → HostSt) : (s.modHost p f).fence = s.fence := rfl
@[simp] theorem State.modHost_spdm (s : State) (p : Nat) (f : HostSt → HostSt) : (s.modHost p f).spdm = s.spdm := rfl
@[simp] theorem State.modHost_tel (s : State) (p : Nat) (f : HostSt → HostSt) : (s.modHost p f).tel = s.tel := rfl

/-! `modPart` changes only `parts`. -/

@[simp] theorem State.modPart_pending (s : State) (p : Nat) (f : PartSt → PartSt) : (s.modPart p f).pending = s.pending := rfl
@[simp] theorem State.modPart_out (s : State) (p : Nat) (f : PartSt → PartSt) : (s.modPart p f).out = s.out := rfl
@[simp] theorem State.modPart_free (s : State) (p : Nat) (f : PartSt → PartSt) : (s.modPart p f).free = s.free := rfl
@[simp] theorem State.modPart_regs (s : State) (p : Nat) (f : PartSt → PartSt) : (s.modPart p f).regs = s.regs := rfl
@[simp] theorem State.modPart_irq (s : State) (p : Nat) (f : PartSt → PartSt) : (s.modPart p f).irq = s.irq := rfl
@[simp] theorem State.modPart_cores (s : State) (p : Nat) (f : PartSt → PartSt) : (s.modPart p f).cores = s.cores := rfl
@[simp] theorem State.modPart_pwr (s : State) (p : Nat) (f : PartSt → PartSt) : (s.modPart p f).pwr = s.pwr := rfl
@[simp] theorem State.modPart_fuses (s : State) (p : Nat) (f : PartSt → PartSt) : (s.modPart p f).fuses = s.fuses := rfl
@[simp] theorem State.modPart_hosts (s : State) (p : Nat) (f : PartSt → PartSt) : (s.modPart p f).hosts = s.hosts := rfl
@[simp] theorem State.modPart_lapseMs (s : State) (p : Nat) (f : PartSt → PartSt) : (s.modPart p f).lapseMs = s.lapseMs := rfl
@[simp] theorem State.modPart_lapseFrom (s : State) (p : Nat) (f : PartSt → PartSt) : (s.modPart p f).lapseFrom = s.lapseFrom := rfl
@[simp] theorem State.modPart_sram (s : State) (p : Nat) (f : PartSt → PartSt) : (s.modPart p f).sram = s.sram := rfl
@[simp] theorem State.modPart_sramBad (s : State) (p : Nat) (f : PartSt → PartSt) : (s.modPart p f).sramBad = s.sramBad := rfl
@[simp] theorem State.modPart_dram (s : State) (p : Nat) (f : PartSt → PartSt) : (s.modPart p f).dram = s.dram := rfl
@[simp] theorem State.modPart_dramBad (s : State) (p : Nat) (f : PartSt → PartSt) : (s.modPart p f).dramBad = s.dramBad := rfl
@[simp] theorem State.modPart_rows (s : State) (p : Nat) (f : PartSt → PartSt) : (s.modPart p f).rows = s.rows := rfl
@[simp] theorem State.modPart_rgns (s : State) (p : Nat) (f : PartSt → PartSt) : (s.modPart p f).rgns = s.rgns := rfl
@[simp] theorem State.modPart_late (s : State) (p : Nat) (f : PartSt → PartSt) : (s.modPart p f).late = s.late := rfl
@[simp] theorem State.modPart_lateUsed (s : State) (p : Nat) (f : PartSt → PartSt) : (s.modPart p f).lateUsed = s.lateUsed := rfl
@[simp] theorem State.modPart_tiles (s : State) (p : Nat) (f : PartSt → PartSt) : (s.modPart p f).tiles = s.tiles := rfl
@[simp] theorem State.modPart_idma (s : State) (p : Nat) (f : PartSt → PartSt) : (s.modPart p f).idma = s.idma := rfl
@[simp] theorem State.modPart_ports (s : State) (p : Nat) (f : PartSt → PartSt) : (s.modPart p f).ports = s.ports := rfl
@[simp] theorem State.modPart_inbound (s : State) (p : Nat) (f : PartSt → PartSt) : (s.modPart p f).inbound = s.inbound := rfl
@[simp] theorem State.modPart_relay (s : State) (p : Nat) (f : PartSt → PartSt) : (s.modPart p f).relay = s.relay := rfl
@[simp] theorem State.modPart_time (s : State) (p : Nat) (f : PartSt → PartSt) : (s.modPart p f).time = s.time := rfl
@[simp] theorem State.modPart_ringIrq (s : State) (p : Nat) (f : PartSt → PartSt) : (s.modPart p f).ringIrq = s.ringIrq := rfl
@[simp] theorem State.modPart_adu (s : State) (p : Nat) (f : PartSt → PartSt) : (s.modPart p f).adu = s.adu := rfl
@[simp] theorem State.modPart_img (s : State) (p : Nat) (f : PartSt → PartSt) : (s.modPart p f).img = s.img := rfl
@[simp] theorem State.modPart_boot (s : State) (p : Nat) (f : PartSt → PartSt) : (s.modPart p f).boot = s.boot := rfl
@[simp] theorem State.modPart_stw (s : State) (p : Nat) (f : PartSt → PartSt) : (s.modPart p f).stw = s.stw := rfl
@[simp] theorem State.modPart_resume (s : State) (p : Nat) (f : PartSt → PartSt) : (s.modPart p f).resume = s.resume := rfl
@[simp] theorem State.modPart_lock (s : State) (p : Nat) (f : PartSt → PartSt) : (s.modPart p f).lock = s.lock := rfl
@[simp] theorem State.modPart_fence (s : State) (p : Nat) (f : PartSt → PartSt) : (s.modPart p f).fence = s.fence := rfl
@[simp] theorem State.modPart_spdm (s : State) (p : Nat) (f : PartSt → PartSt) : (s.modPart p f).spdm = s.spdm := rfl
@[simp] theorem State.modPart_tel (s : State) (p : Nat) (f : PartSt → PartSt) : (s.modPart p f).tel = s.tel := rfl

/-! `modPwr` changes only `pwr`. -/

@[simp] theorem State.modPwr_pending (s : State) (f : Pwr → Pwr) : (s.modPwr f).pending = s.pending := rfl
@[simp] theorem State.modPwr_out (s : State) (f : Pwr → Pwr) : (s.modPwr f).out = s.out := rfl
@[simp] theorem State.modPwr_free (s : State) (f : Pwr → Pwr) : (s.modPwr f).free = s.free := rfl
@[simp] theorem State.modPwr_regs (s : State) (f : Pwr → Pwr) : (s.modPwr f).regs = s.regs := rfl
@[simp] theorem State.modPwr_irq (s : State) (f : Pwr → Pwr) : (s.modPwr f).irq = s.irq := rfl
@[simp] theorem State.modPwr_cores (s : State) (f : Pwr → Pwr) : (s.modPwr f).cores = s.cores := rfl
@[simp] theorem State.modPwr_fuses (s : State) (f : Pwr → Pwr) : (s.modPwr f).fuses = s.fuses := rfl
@[simp] theorem State.modPwr_hosts (s : State) (f : Pwr → Pwr) : (s.modPwr f).hosts = s.hosts := rfl
@[simp] theorem State.modPwr_lapseMs (s : State) (f : Pwr → Pwr) : (s.modPwr f).lapseMs = s.lapseMs := rfl
@[simp] theorem State.modPwr_lapseFrom (s : State) (f : Pwr → Pwr) : (s.modPwr f).lapseFrom = s.lapseFrom := rfl
@[simp] theorem State.modPwr_sram (s : State) (f : Pwr → Pwr) : (s.modPwr f).sram = s.sram := rfl
@[simp] theorem State.modPwr_sramBad (s : State) (f : Pwr → Pwr) : (s.modPwr f).sramBad = s.sramBad := rfl
@[simp] theorem State.modPwr_dram (s : State) (f : Pwr → Pwr) : (s.modPwr f).dram = s.dram := rfl
@[simp] theorem State.modPwr_dramBad (s : State) (f : Pwr → Pwr) : (s.modPwr f).dramBad = s.dramBad := rfl
@[simp] theorem State.modPwr_rows (s : State) (f : Pwr → Pwr) : (s.modPwr f).rows = s.rows := rfl
@[simp] theorem State.modPwr_rgns (s : State) (f : Pwr → Pwr) : (s.modPwr f).rgns = s.rgns := rfl
@[simp] theorem State.modPwr_late (s : State) (f : Pwr → Pwr) : (s.modPwr f).late = s.late := rfl
@[simp] theorem State.modPwr_lateUsed (s : State) (f : Pwr → Pwr) : (s.modPwr f).lateUsed = s.lateUsed := rfl
@[simp] theorem State.modPwr_tiles (s : State) (f : Pwr → Pwr) : (s.modPwr f).tiles = s.tiles := rfl
@[simp] theorem State.modPwr_idma (s : State) (f : Pwr → Pwr) : (s.modPwr f).idma = s.idma := rfl
@[simp] theorem State.modPwr_ports (s : State) (f : Pwr → Pwr) : (s.modPwr f).ports = s.ports := rfl
@[simp] theorem State.modPwr_inbound (s : State) (f : Pwr → Pwr) : (s.modPwr f).inbound = s.inbound := rfl
@[simp] theorem State.modPwr_relay (s : State) (f : Pwr → Pwr) : (s.modPwr f).relay = s.relay := rfl
@[simp] theorem State.modPwr_time (s : State) (f : Pwr → Pwr) : (s.modPwr f).time = s.time := rfl
@[simp] theorem State.modPwr_ringIrq (s : State) (f : Pwr → Pwr) : (s.modPwr f).ringIrq = s.ringIrq := rfl
@[simp] theorem State.modPwr_adu (s : State) (f : Pwr → Pwr) : (s.modPwr f).adu = s.adu := rfl
@[simp] theorem State.modPwr_parts (s : State) (f : Pwr → Pwr) : (s.modPwr f).parts = s.parts := rfl
@[simp] theorem State.modPwr_img (s : State) (f : Pwr → Pwr) : (s.modPwr f).img = s.img := rfl
@[simp] theorem State.modPwr_boot (s : State) (f : Pwr → Pwr) : (s.modPwr f).boot = s.boot := rfl
@[simp] theorem State.modPwr_stw (s : State) (f : Pwr → Pwr) : (s.modPwr f).stw = s.stw := rfl
@[simp] theorem State.modPwr_resume (s : State) (f : Pwr → Pwr) : (s.modPwr f).resume = s.resume := rfl
@[simp] theorem State.modPwr_lock (s : State) (f : Pwr → Pwr) : (s.modPwr f).lock = s.lock := rfl
@[simp] theorem State.modPwr_fence (s : State) (f : Pwr → Pwr) : (s.modPwr f).fence = s.fence := rfl
@[simp] theorem State.modPwr_spdm (s : State) (f : Pwr → Pwr) : (s.modPwr f).spdm = s.spdm := rfl
@[simp] theorem State.modPwr_tel (s : State) (f : Pwr → Pwr) : (s.modPwr f).tel = s.tel := rfl

/-! `setReg`, and so `fset`, `fadd` and `fsat`, changes only `regs` and `irq`. -/

@[simp] theorem State.setReg_pending (s : State) (r : Reg) (v : Word) : (s.setReg r v).pending = s.pending := by unfold State.setReg; cases lineSrc r <;> rfl
@[simp] theorem State.setReg_out (s : State) (r : Reg) (v : Word) : (s.setReg r v).out = s.out := by unfold State.setReg; cases lineSrc r <;> rfl
@[simp] theorem State.setReg_free (s : State) (r : Reg) (v : Word) : (s.setReg r v).free = s.free := by unfold State.setReg; cases lineSrc r <;> rfl
@[simp] theorem State.setReg_cores (s : State) (r : Reg) (v : Word) : (s.setReg r v).cores = s.cores := by unfold State.setReg; cases lineSrc r <;> rfl
@[simp] theorem State.setReg_pwr (s : State) (r : Reg) (v : Word) : (s.setReg r v).pwr = s.pwr := by unfold State.setReg; cases lineSrc r <;> rfl
@[simp] theorem State.setReg_fuses (s : State) (r : Reg) (v : Word) : (s.setReg r v).fuses = s.fuses := by unfold State.setReg; cases lineSrc r <;> rfl
@[simp] theorem State.setReg_hosts (s : State) (r : Reg) (v : Word) : (s.setReg r v).hosts = s.hosts := by unfold State.setReg; cases lineSrc r <;> rfl
@[simp] theorem State.setReg_lapseMs (s : State) (r : Reg) (v : Word) : (s.setReg r v).lapseMs = s.lapseMs := by unfold State.setReg; cases lineSrc r <;> rfl
@[simp] theorem State.setReg_lapseFrom (s : State) (r : Reg) (v : Word) : (s.setReg r v).lapseFrom = s.lapseFrom := by unfold State.setReg; cases lineSrc r <;> rfl
@[simp] theorem State.setReg_sram (s : State) (r : Reg) (v : Word) : (s.setReg r v).sram = s.sram := by unfold State.setReg; cases lineSrc r <;> rfl
@[simp] theorem State.setReg_sramBad (s : State) (r : Reg) (v : Word) : (s.setReg r v).sramBad = s.sramBad := by unfold State.setReg; cases lineSrc r <;> rfl
@[simp] theorem State.setReg_dram (s : State) (r : Reg) (v : Word) : (s.setReg r v).dram = s.dram := by unfold State.setReg; cases lineSrc r <;> rfl
@[simp] theorem State.setReg_dramBad (s : State) (r : Reg) (v : Word) : (s.setReg r v).dramBad = s.dramBad := by unfold State.setReg; cases lineSrc r <;> rfl
@[simp] theorem State.setReg_rows (s : State) (r : Reg) (v : Word) : (s.setReg r v).rows = s.rows := by unfold State.setReg; cases lineSrc r <;> rfl
@[simp] theorem State.setReg_rgns (s : State) (r : Reg) (v : Word) : (s.setReg r v).rgns = s.rgns := by unfold State.setReg; cases lineSrc r <;> rfl
@[simp] theorem State.setReg_late (s : State) (r : Reg) (v : Word) : (s.setReg r v).late = s.late := by unfold State.setReg; cases lineSrc r <;> rfl
@[simp] theorem State.setReg_lateUsed (s : State) (r : Reg) (v : Word) : (s.setReg r v).lateUsed = s.lateUsed := by unfold State.setReg; cases lineSrc r <;> rfl
@[simp] theorem State.setReg_tiles (s : State) (r : Reg) (v : Word) : (s.setReg r v).tiles = s.tiles := by unfold State.setReg; cases lineSrc r <;> rfl
@[simp] theorem State.setReg_idma (s : State) (r : Reg) (v : Word) : (s.setReg r v).idma = s.idma := by unfold State.setReg; cases lineSrc r <;> rfl
@[simp] theorem State.setReg_ports (s : State) (r : Reg) (v : Word) : (s.setReg r v).ports = s.ports := by unfold State.setReg; cases lineSrc r <;> rfl
@[simp] theorem State.setReg_inbound (s : State) (r : Reg) (v : Word) : (s.setReg r v).inbound = s.inbound := by unfold State.setReg; cases lineSrc r <;> rfl
@[simp] theorem State.setReg_relay (s : State) (r : Reg) (v : Word) : (s.setReg r v).relay = s.relay := by unfold State.setReg; cases lineSrc r <;> rfl
@[simp] theorem State.setReg_time (s : State) (r : Reg) (v : Word) : (s.setReg r v).time = s.time := by unfold State.setReg; cases lineSrc r <;> rfl
@[simp] theorem State.setReg_ringIrq (s : State) (r : Reg) (v : Word) : (s.setReg r v).ringIrq = s.ringIrq := by unfold State.setReg; cases lineSrc r <;> rfl
@[simp] theorem State.setReg_adu (s : State) (r : Reg) (v : Word) : (s.setReg r v).adu = s.adu := by unfold State.setReg; cases lineSrc r <;> rfl
@[simp] theorem State.setReg_parts (s : State) (r : Reg) (v : Word) : (s.setReg r v).parts = s.parts := by unfold State.setReg; cases lineSrc r <;> rfl
@[simp] theorem State.setReg_img (s : State) (r : Reg) (v : Word) : (s.setReg r v).img = s.img := by unfold State.setReg; cases lineSrc r <;> rfl
@[simp] theorem State.setReg_boot (s : State) (r : Reg) (v : Word) : (s.setReg r v).boot = s.boot := by unfold State.setReg; cases lineSrc r <;> rfl
@[simp] theorem State.setReg_stw (s : State) (r : Reg) (v : Word) : (s.setReg r v).stw = s.stw := by unfold State.setReg; cases lineSrc r <;> rfl
@[simp] theorem State.setReg_resume (s : State) (r : Reg) (v : Word) : (s.setReg r v).resume = s.resume := by unfold State.setReg; cases lineSrc r <;> rfl
@[simp] theorem State.setReg_lock (s : State) (r : Reg) (v : Word) : (s.setReg r v).lock = s.lock := by unfold State.setReg; cases lineSrc r <;> rfl
@[simp] theorem State.setReg_fence (s : State) (r : Reg) (v : Word) : (s.setReg r v).fence = s.fence := by unfold State.setReg; cases lineSrc r <;> rfl
@[simp] theorem State.setReg_spdm (s : State) (r : Reg) (v : Word) : (s.setReg r v).spdm = s.spdm := by unfold State.setReg; cases lineSrc r <;> rfl
@[simp] theorem State.setReg_tel (s : State) (r : Reg) (v : Word) : (s.setReg r v).tel = s.tel := by unfold State.setReg; cases lineSrc r <;> rfl
@[simp] theorem State.fset_pending (s : State) (r : Reg) (f : Fld) (v : Nat) : (s.fset r f v).pending = s.pending := State.setReg_pending _ _ _
@[simp] theorem State.fset_out (s : State) (r : Reg) (f : Fld) (v : Nat) : (s.fset r f v).out = s.out := State.setReg_out _ _ _
@[simp] theorem State.fset_free (s : State) (r : Reg) (f : Fld) (v : Nat) : (s.fset r f v).free = s.free := State.setReg_free _ _ _
@[simp] theorem State.fset_cores (s : State) (r : Reg) (f : Fld) (v : Nat) : (s.fset r f v).cores = s.cores := State.setReg_cores _ _ _
@[simp] theorem State.fset_pwr (s : State) (r : Reg) (f : Fld) (v : Nat) : (s.fset r f v).pwr = s.pwr := State.setReg_pwr _ _ _
@[simp] theorem State.fset_fuses (s : State) (r : Reg) (f : Fld) (v : Nat) : (s.fset r f v).fuses = s.fuses := State.setReg_fuses _ _ _
@[simp] theorem State.fset_hosts (s : State) (r : Reg) (f : Fld) (v : Nat) : (s.fset r f v).hosts = s.hosts := State.setReg_hosts _ _ _
@[simp] theorem State.fset_lapseMs (s : State) (r : Reg) (f : Fld) (v : Nat) : (s.fset r f v).lapseMs = s.lapseMs := State.setReg_lapseMs _ _ _
@[simp] theorem State.fset_lapseFrom (s : State) (r : Reg) (f : Fld) (v : Nat) : (s.fset r f v).lapseFrom = s.lapseFrom := State.setReg_lapseFrom _ _ _
@[simp] theorem State.fset_sram (s : State) (r : Reg) (f : Fld) (v : Nat) : (s.fset r f v).sram = s.sram := State.setReg_sram _ _ _
@[simp] theorem State.fset_sramBad (s : State) (r : Reg) (f : Fld) (v : Nat) : (s.fset r f v).sramBad = s.sramBad := State.setReg_sramBad _ _ _
@[simp] theorem State.fset_dram (s : State) (r : Reg) (f : Fld) (v : Nat) : (s.fset r f v).dram = s.dram := State.setReg_dram _ _ _
@[simp] theorem State.fset_dramBad (s : State) (r : Reg) (f : Fld) (v : Nat) : (s.fset r f v).dramBad = s.dramBad := State.setReg_dramBad _ _ _
@[simp] theorem State.fset_rows (s : State) (r : Reg) (f : Fld) (v : Nat) : (s.fset r f v).rows = s.rows := State.setReg_rows _ _ _
@[simp] theorem State.fset_rgns (s : State) (r : Reg) (f : Fld) (v : Nat) : (s.fset r f v).rgns = s.rgns := State.setReg_rgns _ _ _
@[simp] theorem State.fset_late (s : State) (r : Reg) (f : Fld) (v : Nat) : (s.fset r f v).late = s.late := State.setReg_late _ _ _
@[simp] theorem State.fset_lateUsed (s : State) (r : Reg) (f : Fld) (v : Nat) : (s.fset r f v).lateUsed = s.lateUsed := State.setReg_lateUsed _ _ _
@[simp] theorem State.fset_tiles (s : State) (r : Reg) (f : Fld) (v : Nat) : (s.fset r f v).tiles = s.tiles := State.setReg_tiles _ _ _
@[simp] theorem State.fset_idma (s : State) (r : Reg) (f : Fld) (v : Nat) : (s.fset r f v).idma = s.idma := State.setReg_idma _ _ _
@[simp] theorem State.fset_ports (s : State) (r : Reg) (f : Fld) (v : Nat) : (s.fset r f v).ports = s.ports := State.setReg_ports _ _ _
@[simp] theorem State.fset_inbound (s : State) (r : Reg) (f : Fld) (v : Nat) : (s.fset r f v).inbound = s.inbound := State.setReg_inbound _ _ _
@[simp] theorem State.fset_relay (s : State) (r : Reg) (f : Fld) (v : Nat) : (s.fset r f v).relay = s.relay := State.setReg_relay _ _ _
@[simp] theorem State.fset_time (s : State) (r : Reg) (f : Fld) (v : Nat) : (s.fset r f v).time = s.time := State.setReg_time _ _ _
@[simp] theorem State.fset_ringIrq (s : State) (r : Reg) (f : Fld) (v : Nat) : (s.fset r f v).ringIrq = s.ringIrq := State.setReg_ringIrq _ _ _
@[simp] theorem State.fset_adu (s : State) (r : Reg) (f : Fld) (v : Nat) : (s.fset r f v).adu = s.adu := State.setReg_adu _ _ _
@[simp] theorem State.fset_parts (s : State) (r : Reg) (f : Fld) (v : Nat) : (s.fset r f v).parts = s.parts := State.setReg_parts _ _ _
@[simp] theorem State.fset_img (s : State) (r : Reg) (f : Fld) (v : Nat) : (s.fset r f v).img = s.img := State.setReg_img _ _ _
@[simp] theorem State.fset_boot (s : State) (r : Reg) (f : Fld) (v : Nat) : (s.fset r f v).boot = s.boot := State.setReg_boot _ _ _
@[simp] theorem State.fset_stw (s : State) (r : Reg) (f : Fld) (v : Nat) : (s.fset r f v).stw = s.stw := State.setReg_stw _ _ _
@[simp] theorem State.fset_resume (s : State) (r : Reg) (f : Fld) (v : Nat) : (s.fset r f v).resume = s.resume := State.setReg_resume _ _ _
@[simp] theorem State.fset_lock (s : State) (r : Reg) (f : Fld) (v : Nat) : (s.fset r f v).lock = s.lock := State.setReg_lock _ _ _
@[simp] theorem State.fset_fence (s : State) (r : Reg) (f : Fld) (v : Nat) : (s.fset r f v).fence = s.fence := State.setReg_fence _ _ _
@[simp] theorem State.fset_spdm (s : State) (r : Reg) (f : Fld) (v : Nat) : (s.fset r f v).spdm = s.spdm := State.setReg_spdm _ _ _
@[simp] theorem State.fset_tel (s : State) (r : Reg) (f : Fld) (v : Nat) : (s.fset r f v).tel = s.tel := State.setReg_tel _ _ _
@[simp] theorem State.fadd_pending (s : State) (r : Reg) (f : Fld) (v : Nat) : (s.fadd r f v).pending = s.pending := State.setReg_pending _ _ _
@[simp] theorem State.fadd_out (s : State) (r : Reg) (f : Fld) (v : Nat) : (s.fadd r f v).out = s.out := State.setReg_out _ _ _
@[simp] theorem State.fadd_free (s : State) (r : Reg) (f : Fld) (v : Nat) : (s.fadd r f v).free = s.free := State.setReg_free _ _ _
@[simp] theorem State.fadd_cores (s : State) (r : Reg) (f : Fld) (v : Nat) : (s.fadd r f v).cores = s.cores := State.setReg_cores _ _ _
@[simp] theorem State.fadd_pwr (s : State) (r : Reg) (f : Fld) (v : Nat) : (s.fadd r f v).pwr = s.pwr := State.setReg_pwr _ _ _
@[simp] theorem State.fadd_fuses (s : State) (r : Reg) (f : Fld) (v : Nat) : (s.fadd r f v).fuses = s.fuses := State.setReg_fuses _ _ _
@[simp] theorem State.fadd_hosts (s : State) (r : Reg) (f : Fld) (v : Nat) : (s.fadd r f v).hosts = s.hosts := State.setReg_hosts _ _ _
@[simp] theorem State.fadd_lapseMs (s : State) (r : Reg) (f : Fld) (v : Nat) : (s.fadd r f v).lapseMs = s.lapseMs := State.setReg_lapseMs _ _ _
@[simp] theorem State.fadd_lapseFrom (s : State) (r : Reg) (f : Fld) (v : Nat) : (s.fadd r f v).lapseFrom = s.lapseFrom := State.setReg_lapseFrom _ _ _
@[simp] theorem State.fadd_sram (s : State) (r : Reg) (f : Fld) (v : Nat) : (s.fadd r f v).sram = s.sram := State.setReg_sram _ _ _
@[simp] theorem State.fadd_sramBad (s : State) (r : Reg) (f : Fld) (v : Nat) : (s.fadd r f v).sramBad = s.sramBad := State.setReg_sramBad _ _ _
@[simp] theorem State.fadd_dram (s : State) (r : Reg) (f : Fld) (v : Nat) : (s.fadd r f v).dram = s.dram := State.setReg_dram _ _ _
@[simp] theorem State.fadd_dramBad (s : State) (r : Reg) (f : Fld) (v : Nat) : (s.fadd r f v).dramBad = s.dramBad := State.setReg_dramBad _ _ _
@[simp] theorem State.fadd_rows (s : State) (r : Reg) (f : Fld) (v : Nat) : (s.fadd r f v).rows = s.rows := State.setReg_rows _ _ _
@[simp] theorem State.fadd_rgns (s : State) (r : Reg) (f : Fld) (v : Nat) : (s.fadd r f v).rgns = s.rgns := State.setReg_rgns _ _ _
@[simp] theorem State.fadd_late (s : State) (r : Reg) (f : Fld) (v : Nat) : (s.fadd r f v).late = s.late := State.setReg_late _ _ _
@[simp] theorem State.fadd_lateUsed (s : State) (r : Reg) (f : Fld) (v : Nat) : (s.fadd r f v).lateUsed = s.lateUsed := State.setReg_lateUsed _ _ _
@[simp] theorem State.fadd_tiles (s : State) (r : Reg) (f : Fld) (v : Nat) : (s.fadd r f v).tiles = s.tiles := State.setReg_tiles _ _ _
@[simp] theorem State.fadd_idma (s : State) (r : Reg) (f : Fld) (v : Nat) : (s.fadd r f v).idma = s.idma := State.setReg_idma _ _ _
@[simp] theorem State.fadd_ports (s : State) (r : Reg) (f : Fld) (v : Nat) : (s.fadd r f v).ports = s.ports := State.setReg_ports _ _ _
@[simp] theorem State.fadd_inbound (s : State) (r : Reg) (f : Fld) (v : Nat) : (s.fadd r f v).inbound = s.inbound := State.setReg_inbound _ _ _
@[simp] theorem State.fadd_relay (s : State) (r : Reg) (f : Fld) (v : Nat) : (s.fadd r f v).relay = s.relay := State.setReg_relay _ _ _
@[simp] theorem State.fadd_time (s : State) (r : Reg) (f : Fld) (v : Nat) : (s.fadd r f v).time = s.time := State.setReg_time _ _ _
@[simp] theorem State.fadd_ringIrq (s : State) (r : Reg) (f : Fld) (v : Nat) : (s.fadd r f v).ringIrq = s.ringIrq := State.setReg_ringIrq _ _ _
@[simp] theorem State.fadd_adu (s : State) (r : Reg) (f : Fld) (v : Nat) : (s.fadd r f v).adu = s.adu := State.setReg_adu _ _ _
@[simp] theorem State.fadd_parts (s : State) (r : Reg) (f : Fld) (v : Nat) : (s.fadd r f v).parts = s.parts := State.setReg_parts _ _ _
@[simp] theorem State.fadd_img (s : State) (r : Reg) (f : Fld) (v : Nat) : (s.fadd r f v).img = s.img := State.setReg_img _ _ _
@[simp] theorem State.fadd_boot (s : State) (r : Reg) (f : Fld) (v : Nat) : (s.fadd r f v).boot = s.boot := State.setReg_boot _ _ _
@[simp] theorem State.fadd_stw (s : State) (r : Reg) (f : Fld) (v : Nat) : (s.fadd r f v).stw = s.stw := State.setReg_stw _ _ _
@[simp] theorem State.fadd_resume (s : State) (r : Reg) (f : Fld) (v : Nat) : (s.fadd r f v).resume = s.resume := State.setReg_resume _ _ _
@[simp] theorem State.fadd_lock (s : State) (r : Reg) (f : Fld) (v : Nat) : (s.fadd r f v).lock = s.lock := State.setReg_lock _ _ _
@[simp] theorem State.fadd_fence (s : State) (r : Reg) (f : Fld) (v : Nat) : (s.fadd r f v).fence = s.fence := State.setReg_fence _ _ _
@[simp] theorem State.fadd_spdm (s : State) (r : Reg) (f : Fld) (v : Nat) : (s.fadd r f v).spdm = s.spdm := State.setReg_spdm _ _ _
@[simp] theorem State.fadd_tel (s : State) (r : Reg) (f : Fld) (v : Nat) : (s.fadd r f v).tel = s.tel := State.setReg_tel _ _ _
@[simp] theorem State.fsat_pending (s : State) (r : Reg) (f : Fld) (v : Nat) : (s.fsat r f v).pending = s.pending := State.setReg_pending _ _ _
@[simp] theorem State.fsat_out (s : State) (r : Reg) (f : Fld) (v : Nat) : (s.fsat r f v).out = s.out := State.setReg_out _ _ _
@[simp] theorem State.fsat_free (s : State) (r : Reg) (f : Fld) (v : Nat) : (s.fsat r f v).free = s.free := State.setReg_free _ _ _
@[simp] theorem State.fsat_cores (s : State) (r : Reg) (f : Fld) (v : Nat) : (s.fsat r f v).cores = s.cores := State.setReg_cores _ _ _
@[simp] theorem State.fsat_pwr (s : State) (r : Reg) (f : Fld) (v : Nat) : (s.fsat r f v).pwr = s.pwr := State.setReg_pwr _ _ _
@[simp] theorem State.fsat_fuses (s : State) (r : Reg) (f : Fld) (v : Nat) : (s.fsat r f v).fuses = s.fuses := State.setReg_fuses _ _ _
@[simp] theorem State.fsat_hosts (s : State) (r : Reg) (f : Fld) (v : Nat) : (s.fsat r f v).hosts = s.hosts := State.setReg_hosts _ _ _
@[simp] theorem State.fsat_lapseMs (s : State) (r : Reg) (f : Fld) (v : Nat) : (s.fsat r f v).lapseMs = s.lapseMs := State.setReg_lapseMs _ _ _
@[simp] theorem State.fsat_lapseFrom (s : State) (r : Reg) (f : Fld) (v : Nat) : (s.fsat r f v).lapseFrom = s.lapseFrom := State.setReg_lapseFrom _ _ _
@[simp] theorem State.fsat_sram (s : State) (r : Reg) (f : Fld) (v : Nat) : (s.fsat r f v).sram = s.sram := State.setReg_sram _ _ _
@[simp] theorem State.fsat_sramBad (s : State) (r : Reg) (f : Fld) (v : Nat) : (s.fsat r f v).sramBad = s.sramBad := State.setReg_sramBad _ _ _
@[simp] theorem State.fsat_dram (s : State) (r : Reg) (f : Fld) (v : Nat) : (s.fsat r f v).dram = s.dram := State.setReg_dram _ _ _
@[simp] theorem State.fsat_dramBad (s : State) (r : Reg) (f : Fld) (v : Nat) : (s.fsat r f v).dramBad = s.dramBad := State.setReg_dramBad _ _ _
@[simp] theorem State.fsat_rows (s : State) (r : Reg) (f : Fld) (v : Nat) : (s.fsat r f v).rows = s.rows := State.setReg_rows _ _ _
@[simp] theorem State.fsat_rgns (s : State) (r : Reg) (f : Fld) (v : Nat) : (s.fsat r f v).rgns = s.rgns := State.setReg_rgns _ _ _
@[simp] theorem State.fsat_late (s : State) (r : Reg) (f : Fld) (v : Nat) : (s.fsat r f v).late = s.late := State.setReg_late _ _ _
@[simp] theorem State.fsat_lateUsed (s : State) (r : Reg) (f : Fld) (v : Nat) : (s.fsat r f v).lateUsed = s.lateUsed := State.setReg_lateUsed _ _ _
@[simp] theorem State.fsat_tiles (s : State) (r : Reg) (f : Fld) (v : Nat) : (s.fsat r f v).tiles = s.tiles := State.setReg_tiles _ _ _
@[simp] theorem State.fsat_idma (s : State) (r : Reg) (f : Fld) (v : Nat) : (s.fsat r f v).idma = s.idma := State.setReg_idma _ _ _
@[simp] theorem State.fsat_ports (s : State) (r : Reg) (f : Fld) (v : Nat) : (s.fsat r f v).ports = s.ports := State.setReg_ports _ _ _
@[simp] theorem State.fsat_inbound (s : State) (r : Reg) (f : Fld) (v : Nat) : (s.fsat r f v).inbound = s.inbound := State.setReg_inbound _ _ _
@[simp] theorem State.fsat_relay (s : State) (r : Reg) (f : Fld) (v : Nat) : (s.fsat r f v).relay = s.relay := State.setReg_relay _ _ _
@[simp] theorem State.fsat_time (s : State) (r : Reg) (f : Fld) (v : Nat) : (s.fsat r f v).time = s.time := State.setReg_time _ _ _
@[simp] theorem State.fsat_ringIrq (s : State) (r : Reg) (f : Fld) (v : Nat) : (s.fsat r f v).ringIrq = s.ringIrq := State.setReg_ringIrq _ _ _
@[simp] theorem State.fsat_adu (s : State) (r : Reg) (f : Fld) (v : Nat) : (s.fsat r f v).adu = s.adu := State.setReg_adu _ _ _
@[simp] theorem State.fsat_parts (s : State) (r : Reg) (f : Fld) (v : Nat) : (s.fsat r f v).parts = s.parts := State.setReg_parts _ _ _
@[simp] theorem State.fsat_img (s : State) (r : Reg) (f : Fld) (v : Nat) : (s.fsat r f v).img = s.img := State.setReg_img _ _ _
@[simp] theorem State.fsat_boot (s : State) (r : Reg) (f : Fld) (v : Nat) : (s.fsat r f v).boot = s.boot := State.setReg_boot _ _ _
@[simp] theorem State.fsat_stw (s : State) (r : Reg) (f : Fld) (v : Nat) : (s.fsat r f v).stw = s.stw := State.setReg_stw _ _ _
@[simp] theorem State.fsat_resume (s : State) (r : Reg) (f : Fld) (v : Nat) : (s.fsat r f v).resume = s.resume := State.setReg_resume _ _ _
@[simp] theorem State.fsat_lock (s : State) (r : Reg) (f : Fld) (v : Nat) : (s.fsat r f v).lock = s.lock := State.setReg_lock _ _ _
@[simp] theorem State.fsat_fence (s : State) (r : Reg) (f : Fld) (v : Nat) : (s.fsat r f v).fence = s.fence := State.setReg_fence _ _ _
@[simp] theorem State.fsat_spdm (s : State) (r : Reg) (f : Fld) (v : Nat) : (s.fsat r f v).spdm = s.spdm := State.setReg_spdm _ _ _
@[simp] theorem State.fsat_tel (s : State) (r : Reg) (f : Fld) (v : Nat) : (s.fsat r f v).tel = s.tel := State.setReg_tel _ _ _

/-! `keepOuter` takes the queue, the fuses and the power controller from the first state, and the rest from the second. -/

@[simp] theorem State.keepOuter_pending (s t : State) : (s.keepOuter t).pending = s.pending := rfl
@[simp] theorem State.keepOuter_out (s t : State) : (s.keepOuter t).out = t.out := rfl
@[simp] theorem State.keepOuter_free (s t : State) : (s.keepOuter t).free = t.free := rfl
@[simp] theorem State.keepOuter_regs (s t : State) : (s.keepOuter t).regs = t.regs := rfl
@[simp] theorem State.keepOuter_irq (s t : State) : (s.keepOuter t).irq = t.irq := rfl
@[simp] theorem State.keepOuter_cores (s t : State) : (s.keepOuter t).cores = t.cores := rfl
@[simp] theorem State.keepOuter_pwr (s t : State) : (s.keepOuter t).pwr = s.pwr := rfl
@[simp] theorem State.keepOuter_fuses (s t : State) : (s.keepOuter t).fuses = s.fuses := rfl
@[simp] theorem State.keepOuter_hosts (s t : State) : (s.keepOuter t).hosts = t.hosts := rfl
@[simp] theorem State.keepOuter_lapseMs (s t : State) : (s.keepOuter t).lapseMs = t.lapseMs := rfl
@[simp] theorem State.keepOuter_lapseFrom (s t : State) : (s.keepOuter t).lapseFrom = t.lapseFrom := rfl
@[simp] theorem State.keepOuter_sram (s t : State) : (s.keepOuter t).sram = t.sram := rfl
@[simp] theorem State.keepOuter_sramBad (s t : State) : (s.keepOuter t).sramBad = t.sramBad := rfl
@[simp] theorem State.keepOuter_dram (s t : State) : (s.keepOuter t).dram = t.dram := rfl
@[simp] theorem State.keepOuter_dramBad (s t : State) : (s.keepOuter t).dramBad = t.dramBad := rfl
@[simp] theorem State.keepOuter_rows (s t : State) : (s.keepOuter t).rows = t.rows := rfl
@[simp] theorem State.keepOuter_rgns (s t : State) : (s.keepOuter t).rgns = t.rgns := rfl
@[simp] theorem State.keepOuter_late (s t : State) : (s.keepOuter t).late = t.late := rfl
@[simp] theorem State.keepOuter_lateUsed (s t : State) : (s.keepOuter t).lateUsed = t.lateUsed := rfl
@[simp] theorem State.keepOuter_tiles (s t : State) : (s.keepOuter t).tiles = t.tiles := rfl
@[simp] theorem State.keepOuter_idma (s t : State) : (s.keepOuter t).idma = t.idma := rfl
@[simp] theorem State.keepOuter_ports (s t : State) : (s.keepOuter t).ports = t.ports := rfl
@[simp] theorem State.keepOuter_inbound (s t : State) : (s.keepOuter t).inbound = t.inbound := rfl
@[simp] theorem State.keepOuter_relay (s t : State) : (s.keepOuter t).relay = t.relay := rfl
@[simp] theorem State.keepOuter_time (s t : State) : (s.keepOuter t).time = t.time := rfl
@[simp] theorem State.keepOuter_ringIrq (s t : State) : (s.keepOuter t).ringIrq = t.ringIrq := rfl
@[simp] theorem State.keepOuter_adu (s t : State) : (s.keepOuter t).adu = t.adu := rfl
@[simp] theorem State.keepOuter_parts (s t : State) : (s.keepOuter t).parts = t.parts := rfl
@[simp] theorem State.keepOuter_img (s t : State) : (s.keepOuter t).img = t.img := rfl
@[simp] theorem State.keepOuter_boot (s t : State) : (s.keepOuter t).boot = t.boot := rfl
@[simp] theorem State.keepOuter_stw (s t : State) : (s.keepOuter t).stw = t.stw := rfl
@[simp] theorem State.keepOuter_resume (s t : State) : (s.keepOuter t).resume = t.resume := rfl
@[simp] theorem State.keepOuter_lock (s t : State) : (s.keepOuter t).lock = t.lock := rfl
@[simp] theorem State.keepOuter_fence (s t : State) : (s.keepOuter t).fence = t.fence := rfl
@[simp] theorem State.keepOuter_spdm (s t : State) : (s.keepOuter t).spdm = t.spdm := rfl
@[simp] theorem State.keepOuter_tel (s t : State) : (s.keepOuter t).tel = t.tel := rfl

/-- Where the dies left the queue, the fuses and the power controller as they were, nothing is to be kept. -/
theorem State.keepOuter_eq (s t : State) (h1 : t.pending = s.pending) (h2 : t.fuses = s.fuses) (h3 : t.pwr = s.pwr) :
    s.keepOuter t = t := by
  unfold State.keepOuter; rw [← h1, ← h2, ← h3]

/-- The emptied outputs leave every other field. -/
theorem State.clearOut_alive (s : State) : ({ s with out := [] } : State).alive = s.alive := rfl

/-- Everything a device command can do: while the dies act, the effect, and otherwise nothing. -/
theorem live_of_alive (s : State) (f : State → State) (h : s.alive = true) : live s f = .next (s.keepOuter (f { s with out := [] })) := by
  simp [live, h]
theorem live_of_not_alive (s : State) (f : State → State) (h : s.alive = false) : live s f = .next { s with out := [] } := by
  simp [live, h]
/-- A device command always answers a next state. -/
theorem live_next (s : State) (f : State → State) : ∃ t, live s f = .next t := ⟨_, rfl⟩
/-- No device command changes the queue, the fuses or the power controller. -/
theorem live_outer (s : State) (f : State → State) {t : State} (h : live s f = .next t) :
    t.pending = s.pending ∧ t.fuses = s.fuses ∧ t.pwr = s.pwr := by
  unfold live at h; injection h with h; subst h; split <;> exact ⟨rfl, rfl, rfl⟩

end Sys2Proof.Machine
end

