-- ==== Sys2Proof/Laws/PerInstr.lean ====
section
/-! SUPPORT. Which form each arm of `exec` has: a command of the power controller acts always, every other only while the dies act. -/

namespace Sys2Proof.Laws.Form

open Sys2Proof.Machine

/-- A command acts through `onPower` or through `live`. -/
def Statement (i : Instr) : Prop :=
  ∀ s : State, if onController i then ∃ eff, exec i s = onPower s eff else ∃ eff, exec i s = live s eff

theorem vinTurnOn : Statement (.vinTurnOn) := by
  intro s; show ∃ eff, execVinTurnOn s = onPower s eff; unfold execVinTurnOn; exact ⟨_, rfl⟩
theorem vinTurnOff : Statement (.vinTurnOff) := by
  intro s; show ∃ eff, execVinTurnOff s = onPower s eff; unfold execVinTurnOff; exact ⟨_, rfl⟩
theorem vinOvervoltage : Statement (.vinOvervoltage) := by
  intro s; show ∃ eff, execVinOvervoltage s = onPower s eff; unfold execVinOvervoltage; exact ⟨_, rfl⟩
theorem inputCharged : Statement (.inputCharged) := by
  intro s; show ∃ eff, execInputCharged s = onPower s eff; unfold execInputCharged; exact ⟨_, rfl⟩
theorem railsGood : Statement (.railsGood) := by
  intro s; show ∃ eff, execRailsGood s = onPower s eff; unfold execRailsGood; exact ⟨_, rfl⟩
theorem pwrgdRise : Statement (.pwrgdRise) := by
  intro s; show ∃ eff, execPwrgdRise s = onPower s eff; unfold execPwrgdRise; exact ⟨_, rfl⟩
theorem calibrationComplete (c : CalResult) : Statement (.calibrationComplete c) := by
  intro s; show ∃ eff, execCalibrationComplete c s = live s eff; unfold execCalibrationComplete; exact ⟨_, rfl⟩
theorem powerLoss : Statement (.powerLoss) := by
  intro s; show ∃ eff, execPowerLoss s = onPower s eff; unfold execPowerLoss; exact ⟨_, rfl⟩
theorem converterFail (n : Converter) : Statement (.converterFail n) := by
  intro s; show ∃ eff, execConverterFail n s = onPower s eff; unfold execConverterFail; exact ⟨_, rfl⟩
theorem sensorOvertemp : Statement (.sensorOvertemp) := by
  intro s; show ∃ eff, execSensorOvertemp s = onPower s eff; unfold execSensorOvertemp; exact ⟨_, rfl⟩
theorem thermalDiodeTrip : Statement (.thermalDiodeTrip) := by
  intro s; show ∃ eff, execThermalDiodeTrip s = onPower s eff; unfold execThermalDiodeTrip; exact ⟨_, rfl⟩
theorem thermtripPowerOff : Statement (.thermtripPowerOff) := by
  intro s; show ∃ eff, execThermtripPowerOff s = onPower s eff; unfold execThermtripPowerOff; exact ⟨_, rfl⟩
theorem page (w : PageAccess) : Statement (.page w) := by
  intro s; show ∃ eff, execPage w s = onPower s eff; unfold execPage; exact ⟨_, rfl⟩
theorem voutMode : Statement (.voutMode) := by
  intro s; show ∃ eff, execVoutMode s = onPower s eff; unfold execVoutMode; exact ⟨_, rfl⟩
theorem statusWord (m : PageSense) : Statement (.statusWord m) := by
  intro s; show ∃ eff, execStatusWord m s = onPower s eff; unfold execStatusWord; exact ⟨_, rfl⟩
theorem readVin (reading : BitVec 16) : Statement (.readVin reading) := by
  intro s; show ∃ eff, execReadVin reading s = onPower s eff; unfold execReadVin; exact ⟨_, rfl⟩
theorem readIin (reading : BitVec 16) : Statement (.readIin reading) := by
  intro s; show ∃ eff, execReadIin reading s = onPower s eff; unfold execReadIin; exact ⟨_, rfl⟩
theorem readVout (reading : BitVec 16) : Statement (.readVout reading) := by
  intro s; show ∃ eff, execReadVout reading s = onPower s eff; unfold execReadVout; exact ⟨_, rfl⟩
theorem readIout (reading : BitVec 16) : Statement (.readIout reading) := by
  intro s; show ∃ eff, execReadIout reading s = onPower s eff; unfold execReadIout; exact ⟨_, rfl⟩
theorem readTemperature1 (reading : BitVec 16) : Statement (.readTemperature1 reading) := by
  intro s; show ∃ eff, execReadTemperature1 reading s = onPower s eff; unfold execReadTemperature1; exact ⟨_, rfl⟩
theorem readPout (reading : BitVec 16) : Statement (.readPout reading) := by
  intro s; show ∃ eff, execReadPout reading s = onPower s eff; unfold execReadPout; exact ⟨_, rfl⟩
theorem readPin (reading : BitVec 16) : Statement (.readPin reading) := by
  intro s; show ∃ eff, execReadPin reading s = onPower s eff; unfold execReadPin; exact ⟨_, rfl⟩
theorem pmbusRevision : Statement (.pmbusRevision) := by
  intro s; show ∃ eff, execPmbusRevision s = onPower s eff; unfold execPmbusRevision; exact ⟨_, rfl⟩
theorem pmbusRefusedCommand (code : Byte) (write : Bool) : Statement (.pmbusRefusedCommand code write) := by
  intro s; show ∃ eff, execPmbusRefusedCommand code write s = onPower s eff; unfold execPmbusRefusedCommand; exact ⟨_, rfl⟩
theorem hostLinkDown (p : HostPort) : Statement (.hostLinkDown p) := by
  intro s; show ∃ eff, execHostLinkDown p s = live s eff; unfold execHostLinkDown; exact ⟨_, rfl⟩
theorem hostLinkUp (p : HostPort) (m : LinkMode) : Statement (.hostLinkUp p m) := by
  intro s; show ∃ eff, execHostLinkUp p m s = live s eff; unfold execHostLinkUp; exact ⟨_, rfl⟩
theorem stageBoundary (b : BoundaryIn) : Statement (.stageBoundary b) := by
  intro s; show ∃ eff, execStageBoundary b s = live s eff; unfold execStageBoundary; exact ⟨_, rfl⟩
theorem powerFlag (n : Rgn) : Statement (.powerFlag n) := by
  intro s; show ∃ eff, execPowerFlag n s = live s eff; unfold execPowerFlag; exact ⟨_, rfl⟩
theorem powerAbort (n : Rgn) : Statement (.powerAbort n) := by
  intro s; show ∃ eff, execPowerAbort n s = live s eff; unfold execPowerAbort; exact ⟨_, rfl⟩
theorem calStale (n : Rgn) : Statement (.calStale n) := by
  intro s; show ∃ eff, execCalStale n s = live s eff; unfold execCalStale; exact ⟨_, rfl⟩
theorem stageWorkStart (n : Rgn) : Statement (.stageWorkStart n) := by
  intro s; show ∃ eff, execStageWorkStart n s = live s eff; unfold execStageWorkStart; exact ⟨_, rfl⟩
theorem stageWorkFinish (n : Rgn) (ns : Nat) : Statement (.stageWorkFinish n ns) := by
  intro s; show ∃ eff, execStageWorkFinish n ns s = live s eff; unfold execStageWorkFinish; exact ⟨_, rfl⟩
theorem overstay (n : Rgn) : Statement (.overstay n) := by
  intro s; show ∃ eff, execOverstay n s = live s eff; unfold execOverstay; exact ⟨_, rfl⟩
theorem rateWindowOpen (n : Rgn) : Statement (.rateWindowOpen n) := by
  intro s; show ∃ eff, execRateWindowOpen n s = live s eff; unfold execRateWindowOpen; exact ⟨_, rfl⟩
theorem rateWindowClose (n : Rgn) : Statement (.rateWindowClose n) := by
  intro s; show ∃ eff, execRateWindowClose n s = live s eff; unfold execRateWindowClose; exact ⟨_, rfl⟩
theorem xingFillExcursion (c : Xing) (fill : Fill) : Statement (.xingFillExcursion c fill) := by
  intro s; show ∃ eff, execXingFillExcursion c fill s = live s eff; unfold execXingFillExcursion; exact ⟨_, rfl⟩
theorem frefLoss : Statement (.frefLoss) := by
  intro s; show ∃ eff, execFrefLoss s = live s eff; unfold execFrefLoss; exact ⟨_, rfl⟩
theorem frefReturn : Statement (.frefReturn) := by
  intro s; show ∃ eff, execFrefReturn s = live s eff; unfold execFrefReturn; exact ⟨_, rfl⟩
theorem syncTimeout (t : TimeIn) : Statement (.syncTimeout t) := by
  intro s; show ∃ eff, execSyncTimeout t s = live s eff; unfold execSyncTimeout; exact ⟨_, rfl⟩
theorem holdoverLimitExpire (t : TimeIn) : Statement (.holdoverLimitExpire t) := by
  intro s; show ∃ eff, execHoldoverLimitExpire t s = live s eff; unfold execHoldoverLimitExpire; exact ⟨_, rfl⟩
theorem rgnBudgetWrite (n : Rgn) (a : Acc) : Statement (.rgnBudgetWrite n a) := by
  intro s; show ∃ eff, execRgnBudgetWrite n a s = live s eff; unfold execRgnBudgetWrite; exact ⟨_, rfl⟩
theorem xingFillRead (p : HostPort) (c : Xing) (z : Sz) : Statement (.xingFillRead p c z) := by
  intro s; show ∃ eff, execXingFillRead p c z s = live s eff; unfold execXingFillRead; exact ⟨_, rfl⟩
theorem rgnLateRead (p : HostPort) (n : Rgn) (z : Sz) : Statement (.rgnLateRead p n z) := by
  intro s; show ∃ eff, execRgnLateRead p n z s = live s eff; unfold execRgnLateRead; exact ⟨_, rfl⟩
theorem bankAccess (g : Gt) (a : BankAcc) : Statement (.bankAccess g a) := by
  intro s; show ∃ eff, execBankAccess g a s = live s eff; unfold execBankAccess; exact ⟨_, rfl⟩
theorem handover (g : Gt) (h : HandoverOps) : Statement (.handover g h) := by
  intro s; show ∃ eff, execHandover g h s = live s eff; unfold execHandover seqStep; exact ⟨_, rfl⟩
theorem handoverEffect (g : Gt) (k : Bank) : Statement (.handoverEffect g k) := by
  intro s; show ∃ eff, execHandoverEffect g k s = live s eff; unfold execHandoverEffect; exact ⟨_, rfl⟩
theorem scanOp (g : Gt) (h : ScanOps) : Statement (.scanOp g h) := by
  intro s; show ∃ eff, execScanOp g h s = live s eff; unfold execScanOp seqStep; exact ⟨_, rfl⟩
theorem scanStart (g : Gt) (k : Bank) : Statement (.scanStart g k) := by
  intro s; show ∃ eff, execScanStart g k s = live s eff; unfold execScanStart; exact ⟨_, rfl⟩
theorem scanEnd (g : Gt) (o : MarchResult) : Statement (.scanEnd g o) := by
  intro s; show ∃ eff, execScanEnd g o s = live s eff; unfold execScanEnd; exact ⟨_, rfl⟩
theorem bankOwnWrite (g : Gt) (k : Bank) (a : Acc) : Statement (.bankOwnWrite g k a) := by
  intro s; show ∃ eff, execBankOwnWrite g k a s = live s eff; unfold execBankOwnWrite; exact ⟨_, rfl⟩
theorem patchReleaseRequest (g : Gt) (e : PatchEntry) (a : Acc) : Statement (.patchReleaseRequest g e a) := by
  intro s; show ∃ eff, execPatchReleaseRequest g e a s = live s eff; unfold execPatchReleaseRequest; exact ⟨_, rfl⟩
theorem lpddrRequest (r : DramReq) : Statement (.lpddrRequest r) := by
  intro s; show ∃ eff, execLpddrRequest r s = live s eff; unfold execLpddrRequest; exact ⟨_, rfl⟩
theorem refreshInterval (i : Iod) : Statement (.refreshInterval i) := by
  intro s; show ∃ eff, execRefreshInterval i s = live s eff; unfold execRefreshInterval; exact ⟨_, rfl⟩
theorem refreshWindow (i : Iod) (k : RefBank) : Statement (.refreshWindow i k) := by
  intro s; show ∃ eff, execRefreshWindow i k s = live s eff; unfold execRefreshWindow; exact ⟨_, rfl⟩
theorem mr4Read (i : Iod) (r : Mr4Result) : Statement (.mr4Read i r) := by
  intro s; show ∃ eff, execMr4Read i r s = live s eff; unfold execMr4Read; exact ⟨_, rfl⟩
theorem seqInstruction (g : Gt) (f : SeqForm) : Statement (.seqInstruction g f) := by
  intro s; show ∃ eff, execSeqInstruction g f s = live s eff; unfold execSeqInstruction seqStep; exact ⟨_, rfl⟩
theorem seqBankLoadStore (g : Gt) (a : SeqMemOp) : Statement (.seqBankLoadStore g a) := by
  intro s; show ∃ eff, execSeqBankLoadStore g a s = live s eff; unfold execSeqBankLoadStore seqStep; exact ⟨_, rfl⟩
theorem tilePredicateStore (g : Gt) (hiWord : Bool) (v : BitVec 32) : Statement (.tilePredicateStore g hiWord v) := by
  intro s; show ∃ eff, execTilePredicateStore g hiWord v s = live s eff; unfold execTilePredicateStore seqStep; exact ⟨_, rfl⟩
theorem loopCountStore (g : Gt) (l : LoopLvl) (v : BitVec 32) : Statement (.loopCountStore g l v) := by
  intro s; show ∃ eff, execLoopCountStore g l v s = live s eff; unfold execLoopCountStore seqStep; exact ⟨_, rfl⟩
theorem stageEnd (g : Gt) (len : CmdLen) (common : Bool) : Statement (.stageEnd g len common) := by
  intro s; show ∃ eff, execStageEnd g len common s = live s eff; unfold execStageEnd seqStep; exact ⟨_, rfl⟩
theorem openLoop (g : Gt) (o : LoopOps) : Statement (.openLoop g o) := by
  intro s; show ∃ eff, execOpenLoop g o s = live s eff; unfold execOpenLoop seqStep; exact ⟨_, rfl⟩
theorem endLoop (g : Gt) (len : CmdLen) (common : Bool) : Statement (.endLoop g len common) := by
  intro s; show ∃ eff, execEndLoop g len common s = live s eff; unfold execEndLoop seqStep; exact ⟨_, rfl⟩
theorem breakLoop (g : Gt) (len : CmdLen) (common : Bool) : Statement (.breakLoop g len common) := by
  intro s; show ∃ eff, execBreakLoop g len common s = live s eff; unfold execBreakLoop seqStep; exact ⟨_, rfl⟩
theorem signalOp (g : Gt) (o : SignalOps) : Statement (.signalOp g o) := by
  intro s; show ∃ eff, execSignalOp g o s = live s eff; unfold execSignalOp seqStep; exact ⟨_, rfl⟩
theorem waitOp (g : Gt) (tally : TallyIx) (v : BitVec 32) (len : CmdLen) (common : Bool) : Statement (.waitOp g tally v len common) := by
  intro s; show ∃ eff, execWaitOp g tally v len common s = live s eff; unfold execWaitOp seqStep; exact ⟨_, rfl⟩
theorem waitRelease (g : Gt) : Statement (.waitRelease g) := by
  intro s; show ∃ eff, execWaitRelease g s = live s eff; unfold execWaitRelease; exact ⟨_, rfl⟩
theorem fenceOp (g : Gt) (agent : Agent) (tally : TallyIx) (len : CmdLen) : Statement (.fenceOp g agent tally len) := by
  intro s; show ∃ eff, execFenceOp g agent tally len s = live s eff; unfold execFenceOp seqStep; exact ⟨_, rfl⟩
theorem fenceComplete (g : Gt) (agent : Agent) : Statement (.fenceComplete g agent) := by
  intro s; show ∃ eff, execFenceComplete g agent s = live s eff; unfold execFenceComplete; exact ⟨_, rfl⟩
theorem tallyWait (g : Gt) (w : WaitWho) : Statement (.tallyWait g w) := by
  intro s; show ∃ eff, execTallyWait g w s = live s eff; unfold execTallyWait; exact ⟨_, rfl⟩
theorem engineCommandEnd (g : Gt) (agent : Agent) (drain : Bool) : Statement (.engineCommandEnd g agent drain) := by
  intro s; show ∃ eff, execEngineCommandEnd g agent drain s = live s eff; unfold execEngineCommandEnd; exact ⟨_, rfl⟩
theorem matmul (g : Gt) (h : CmdHdr) (o : MatmulOps) : Statement (.matmul g h o) := by
  intro s; show ∃ eff, execMatmul g h o s = live s eff; unfold execMatmul; exact ⟨_, rfl⟩
theorem accstore (g : Gt) (h : CmdHdr) (o : AccstoreOps) : Statement (.accstore g h o) := by
  intro s; show ∃ eff, execAccstore g h o s = live s eff; unfold execAccstore; exact ⟨_, rfl⟩
theorem cvt (g : Gt) (h : CmdHdr) (o : VecOps) : Statement (.cvt g h o) := by
  intro s; show ∃ eff, execCvt g h o s = live s eff; unfold execCvt; exact ⟨_, rfl⟩
theorem addOp (g : Gt) (h : CmdHdr) (o : VecOps) : Statement (.addOp g h o) := by
  intro s; show ∃ eff, execAddOp g h o s = live s eff; unfold execAddOp; exact ⟨_, rfl⟩
theorem subOp (g : Gt) (h : CmdHdr) (o : VecOps) : Statement (.subOp g h o) := by
  intro s; show ∃ eff, execSubOp g h o s = live s eff; unfold execSubOp; exact ⟨_, rfl⟩
theorem mulOp (g : Gt) (h : CmdHdr) (o : VecOps) : Statement (.mulOp g h o) := by
  intro s; show ∃ eff, execMulOp g h o s = live s eff; unfold execMulOp; exact ⟨_, rfl⟩
theorem fma (g : Gt) (h : CmdHdr) (o : VecOps) : Statement (.fma g h o) := by
  intro s; show ∃ eff, execFma g h o s = live s eff; unfold execFma; exact ⟨_, rfl⟩
theorem axpb (g : Gt) (h : CmdHdr) (o : VecOps) : Statement (.axpb g h o) := by
  intro s; show ∃ eff, execAxpb g h o s = live s eff; unfold execAxpb; exact ⟨_, rfl⟩
theorem maxOp (g : Gt) (h : CmdHdr) (o : VecOps) : Statement (.maxOp g h o) := by
  intro s; show ∃ eff, execMaxOp g h o s = live s eff; unfold execMaxOp; exact ⟨_, rfl⟩
theorem minOp (g : Gt) (h : CmdHdr) (o : VecOps) : Statement (.minOp g h o) := by
  intro s; show ∃ eff, execMinOp g h o s = live s eff; unfold execMinOp; exact ⟨_, rfl⟩
theorem absOp (g : Gt) (h : CmdHdr) (o : VecOps) : Statement (.absOp g h o) := by
  intro s; show ∃ eff, execAbsOp g h o s = live s eff; unfold execAbsOp; exact ⟨_, rfl⟩
theorem negOp (g : Gt) (h : CmdHdr) (o : VecOps) : Statement (.negOp g h o) := by
  intro s; show ∃ eff, execNegOp g h o s = live s eff; unfold execNegOp; exact ⟨_, rfl⟩
theorem selOp (g : Gt) (h : CmdHdr) (o : VecOps) : Statement (.selOp g h o) := by
  intro s; show ∃ eff, execSelOp g h o s = live s eff; unfold execSelOp; exact ⟨_, rfl⟩
theorem cmpgt (g : Gt) (h : CmdHdr) (o : VecOps) : Statement (.cmpgt g h o) := by
  intro s; show ∃ eff, execCmpgt g h o s = live s eff; unfold execCmpgt; exact ⟨_, rfl⟩
theorem expOp (g : Gt) (h : CmdHdr) (o : VecOps) : Statement (.expOp g h o) := by
  intro s; show ∃ eff, execExpOp g h o s = live s eff; unfold execExpOp; exact ⟨_, rfl⟩
theorem ln (g : Gt) (h : CmdHdr) (o : VecOps) : Statement (.ln g h o) := by
  intro s; show ∃ eff, execLn g h o s = live s eff; unfold execLn; exact ⟨_, rfl⟩
theorem rcp (g : Gt) (h : CmdHdr) (o : VecOps) : Statement (.rcp g h o) := by
  intro s; show ∃ eff, execRcp g h o s = live s eff; unfold execRcp; exact ⟨_, rfl⟩
theorem rsqrt (g : Gt) (h : CmdHdr) (o : VecOps) : Statement (.rsqrt g h o) := by
  intro s; show ∃ eff, execRsqrt g h o s = live s eff; unfold execRsqrt; exact ⟨_, rfl⟩
theorem sqrt (g : Gt) (h : CmdHdr) (o : VecOps) : Statement (.sqrt g h o) := by
  intro s; show ∃ eff, execSqrt g h o s = live s eff; unfold execSqrt; exact ⟨_, rfl⟩
theorem sigmoid (g : Gt) (h : CmdHdr) (o : VecOps) : Statement (.sigmoid g h o) := by
  intro s; show ∃ eff, execSigmoid g h o s = live s eff; unfold execSigmoid; exact ⟨_, rfl⟩
theorem tanh (g : Gt) (h : CmdHdr) (o : VecOps) : Statement (.tanh g h o) := by
  intro s; show ∃ eff, execTanh g h o s = live s eff; unfold execTanh; exact ⟨_, rfl⟩
theorem silu (g : Gt) (h : CmdHdr) (o : VecOps) : Statement (.silu g h o) := by
  intro s; show ∃ eff, execSilu g h o s = live s eff; unfold execSilu; exact ⟨_, rfl⟩
theorem gelu (g : Gt) (h : CmdHdr) (o : VecOps) : Statement (.gelu g h o) := by
  intro s; show ∃ eff, execGelu g h o s = live s eff; unfold execGelu; exact ⟨_, rfl⟩
theorem swiglu (g : Gt) (h : CmdHdr) (o : VecOps) : Statement (.swiglu g h o) := by
  intro s; show ∃ eff, execSwiglu g h o s = live s eff; unfold execSwiglu; exact ⟨_, rfl⟩
theorem iadd (g : Gt) (h : CmdHdr) (o : VecOps) : Statement (.iadd g h o) := by
  intro s; show ∃ eff, execIadd g h o s = live s eff; unfold execIadd; exact ⟨_, rfl⟩
theorem isub (g : Gt) (h : CmdHdr) (o : VecOps) : Statement (.isub g h o) := by
  intro s; show ∃ eff, execIsub g h o s = live s eff; unfold execIsub; exact ⟨_, rfl⟩
theorem imul (g : Gt) (h : CmdHdr) (o : VecOps) : Statement (.imul g h o) := by
  intro s; show ∃ eff, execImul g h o s = live s eff; unfold execImul; exact ⟨_, rfl⟩
theorem imin (g : Gt) (h : CmdHdr) (o : VecOps) : Statement (.imin g h o) := by
  intro s; show ∃ eff, execImin g h o s = live s eff; unfold execImin; exact ⟨_, rfl⟩
theorem imax (g : Gt) (h : CmdHdr) (o : VecOps) : Statement (.imax g h o) := by
  intro s; show ∃ eff, execImax g h o s = live s eff; unfold execImax; exact ⟨_, rfl⟩
theorem iand (g : Gt) (h : CmdHdr) (o : VecOps) : Statement (.iand g h o) := by
  intro s; show ∃ eff, execIand g h o s = live s eff; unfold execIand; exact ⟨_, rfl⟩
theorem ior (g : Gt) (h : CmdHdr) (o : VecOps) : Statement (.ior g h o) := by
  intro s; show ∃ eff, execIor g h o s = live s eff; unfold execIor; exact ⟨_, rfl⟩
theorem ixor (g : Gt) (h : CmdHdr) (o : VecOps) : Statement (.ixor g h o) := by
  intro s; show ∃ eff, execIxor g h o s = live s eff; unfold execIxor; exact ⟨_, rfl⟩
theorem ishl (g : Gt) (h : CmdHdr) (o : VecOps) : Statement (.ishl g h o) := by
  intro s; show ∃ eff, execIshl g h o s = live s eff; unfold execIshl; exact ⟨_, rfl⟩
theorem ishr (g : Gt) (h : CmdHdr) (o : VecOps) : Statement (.ishr g h o) := by
  intro s; show ∃ eff, execIshr g h o s = live s eff; unfold execIshr; exact ⟨_, rfl⟩
theorem iota (g : Gt) (h : CmdHdr) (o : VecOps) : Statement (.iota g h o) := by
  intro s; show ∃ eff, execIota g h o s = live s eff; unfold execIota; exact ⟨_, rfl⟩
theorem rsum (g : Gt) (h : CmdHdr) (o : VecOps) : Statement (.rsum g h o) := by
  intro s; show ∃ eff, execRsum g h o s = live s eff; unfold execRsum; exact ⟨_, rfl⟩
theorem rsumsq (g : Gt) (h : CmdHdr) (o : VecOps) : Statement (.rsumsq g h o) := by
  intro s; show ∃ eff, execRsumsq g h o s = live s eff; unfold execRsumsq; exact ⟨_, rfl⟩
theorem rdot (g : Gt) (h : CmdHdr) (o : VecOps) : Statement (.rdot g h o) := by
  intro s; show ∃ eff, execRdot g h o s = live s eff; unfold execRdot; exact ⟨_, rfl⟩
theorem rmax (g : Gt) (h : CmdHdr) (o : VecOps) : Statement (.rmax g h o) := by
  intro s; show ∃ eff, execRmax g h o s = live s eff; unfold execRmax; exact ⟨_, rfl⟩
theorem rmin (g : Gt) (h : CmdHdr) (o : VecOps) : Statement (.rmin g h o) := by
  intro s; show ∃ eff, execRmin g h o s = live s eff; unfold execRmin; exact ⟨_, rfl⟩
theorem rargmax (g : Gt) (h : CmdHdr) (o : VecOps) : Statement (.rargmax g h o) := by
  intro s; show ∃ eff, execRargmax g h o s = live s eff; unfold execRargmax; exact ⟨_, rfl⟩
theorem softmax (g : Gt) (h : CmdHdr) (o : VecOps) : Statement (.softmax g h o) := by
  intro s; show ∃ eff, execSoftmax g h o s = live s eff; unfold execSoftmax; exact ⟨_, rfl⟩
theorem rmsnorm (g : Gt) (h : CmdHdr) (o : VecOps) : Statement (.rmsnorm g h o) := by
  intro s; show ∃ eff, execRmsnorm g h o s = live s eff; unfold execRmsnorm; exact ⟨_, rfl⟩
theorem layernorm (g : Gt) (h : CmdHdr) (o : VecOps) : Statement (.layernorm g h o) := by
  intro s; show ∃ eff, execLayernorm g h o s = live s eff; unfold execLayernorm; exact ⟨_, rfl⟩
theorem gather (g : Gt) (h : CmdHdr) (o : VecOps) : Statement (.gather g h o) := by
  intro s; show ∃ eff, execGather g h o s = live s eff; unfold execGather; exact ⟨_, rfl⟩
theorem sample (g : Gt) (h : CmdHdr) (o : VecOps) : Statement (.sample g h o) := by
  intro s; show ∃ eff, execSample g h o s = live s eff; unfold execSample; exact ⟨_, rfl⟩
theorem merge (g : Gt) (h : CmdHdr) (o : VecOps) : Statement (.merge g h o) := by
  intro s; show ∃ eff, execMerge g h o s = live s eff; unfold execMerge; exact ⟨_, rfl⟩
theorem tallyWrite (g : Gt) (t : TallyIx) (a : Acc) : Statement (.tallyWrite g t a) := by
  intro s; show ∃ eff, execTallyWrite g t a s = live s eff; unfold execTallyWrite; exact ⟨_, rfl⟩
theorem copyOp (c : DescAt) (d : Desc) : Statement (.copyOp c d) := by
  intro s; show ∃ eff, execCopyOp c d s = live s eff; unfold execCopyOp; exact ⟨_, rfl⟩
theorem getOp (c : DescAt) (d : Desc) : Statement (.getOp c d) := by
  intro s; show ∃ eff, execGetOp c d s = live s eff; unfold execGetOp; exact ⟨_, rfl⟩
theorem putOp (c : DescAt) (d : Desc) : Statement (.putOp c d) := by
  intro s; show ∃ eff, execPutOp c d s = live s eff; unfold execPutOp; exact ⟨_, rfl⟩
theorem setOp (c : DescAt) (d : Desc) : Statement (.setOp c d) := by
  intro s; show ∃ eff, execSetOp c d s = live s eff; unfold execSetOp; exact ⟨_, rfl⟩
theorem clearOp (c : DescAt) (d : Desc) : Statement (.clearOp c d) := by
  intro s; show ∃ eff, execClearOp c d s = live s eff; unfold execClearOp; exact ⟨_, rfl⟩
theorem parity (c : DescAt) (d : Desc) : Statement (.parity c d) := by
  intro s; show ∃ eff, execParity c d s = live s eff; unfold execParity; exact ⟨_, rfl⟩
theorem dmaBurst (m : MoverSlot) : Statement (.dmaBurst m) := by
  intro s; show ∃ eff, execDmaBurst m s = live s eff; unfold execDmaBurst; exact ⟨_, rfl⟩
theorem descriptorEnd (c : ChanId) : Statement (.descriptorEnd c) := by
  intro s; show ∃ eff, execDescriptorEnd c s = live s eff; unfold execDescriptorEnd; exact ⟨_, rfl⟩
theorem completionRingResume (c : ChanId) : Statement (.completionRingResume c) := by
  intro s; show ∃ eff, execCompletionRingResume c s = live s eff; unfold execCompletionRingResume; exact ⟨_, rfl⟩
theorem pcieReadError (i : Iod) (ch : IoCh) : Statement (.pcieReadError i ch) := by
  intro s; show ∃ eff, execPcieReadError i ch s = live s eff; unfold execPcieReadError; exact ⟨_, rfl⟩
theorem idmaRun (i : Iod) (ch : IoCh) (a : Acc) : Statement (.idmaRun i ch a) := by
  intro s; show ∃ eff, execIdmaRun i ch a s = live s eff; unfold execIdmaRun; exact ⟨_, rfl⟩
theorem idmaStop (i : Iod) (ch : IoCh) (a : Acc) : Statement (.idmaStop i ch a) := by
  intro s; show ∃ eff, execIdmaStop i ch a s = live s eff; unfold execIdmaStop; exact ⟨_, rfl⟩
theorem idmaShareWrite (i : Iod) (ch : IoCh) (a : Acc) : Statement (.idmaShareWrite i ch a) := by
  intro s; show ∃ eff, execIdmaShareWrite i ch a s = live s eff; unfold execIdmaShareWrite; exact ⟨_, rfl⟩
theorem idmaRingsWrite (i : Iod) (ch : IoCh) (a : Acc) : Statement (.idmaRingsWrite i ch a) := by
  intro s; show ∃ eff, execIdmaRingsWrite i ch a s = live s eff; unfold execIdmaRingsWrite; exact ⟨_, rfl⟩
theorem getRequestPacket (p : Port) (k : Packet) : Statement (.getRequestPacket p k) := by
  intro s; show ∃ eff, execGetRequestPacket p k s = live s eff; unfold execGetRequestPacket; exact ⟨_, rfl⟩
theorem getDataPacket (p : Port) (k : Packet) : Statement (.getDataPacket p k) := by
  intro s; show ∃ eff, execGetDataPacket p k s = live s eff; unfold execGetDataPacket; exact ⟨_, rfl⟩
theorem putPacket (p : Port) (k : Packet) : Statement (.putPacket p k) := by
  intro s; show ∃ eff, execPutPacket p k s = live s eff; unfold execPutPacket; exact ⟨_, rfl⟩
theorem setPacket (p : Port) (k : Packet) : Statement (.setPacket p k) := by
  intro s; show ∃ eff, execSetPacket p k s = live s eff; unfold execSetPacket; exact ⟨_, rfl⟩
theorem clearPacket (p : Port) (k : Packet) : Statement (.clearPacket p k) := by
  intro s; show ∃ eff, execClearPacket p k s = live s eff; unfold execClearPacket; exact ⟨_, rfl⟩
theorem ackPacket (p : Port) (k : Packet) : Statement (.ackPacket p k) := by
  intro s; show ∃ eff, execAckPacket p k s = live s eff; unfold execAckPacket; exact ⟨_, rfl⟩
theorem nackPacket (p : Port) (k : Packet) : Statement (.nackPacket p k) := by
  intro s; show ∃ eff, execNackPacket p k s = live s eff; unfold execNackPacket; exact ⟨_, rfl⟩
theorem reservedOpcPacket (p : Port) (k : Packet) : Statement (.reservedOpcPacket p k) := by
  intro s; show ∃ eff, execReservedOpcPacket p k s = live s eff; unfold execReservedOpcPacket; exact ⟨_, rfl⟩
theorem landingBufferResume (g : Gt) : Statement (.landingBufferResume g) := by
  intro s; show ∃ eff, execLandingBufferResume g s = live s eff; unfold execLandingBufferResume; exact ⟨_, rfl⟩
theorem slotSend (p : Port) (t : SlotIn) : Statement (.slotSend p t) := by
  intro s; show ∃ eff, execSlotSend p t s = live s eff; unfold execSlotSend; exact ⟨_, rfl⟩
theorem idleFrame (p : Port) (f : Frame) : Statement (.idleFrame p f) := by
  intro s; show ∃ eff, execIdleFrame p f s = live s eff; unfold execIdleFrame; exact ⟨_, rfl⟩
theorem dataFrame (p : Port) (f : Frame) : Statement (.dataFrame p f) := by
  intro s; show ∃ eff, execDataFrame p f s = live s eff; unfold execDataFrame; exact ⟨_, rfl⟩
theorem controlFrame (p : Port) (f : Frame) (t : TimeIn) : Statement (.controlFrame p f t) := by
  intro s; show ∃ eff, execControlFrame p f t s = live s eff; unfold execControlFrame; exact ⟨_, rfl⟩
theorem probeFrame (p : Port) (f : Frame) (t : TimeIn) : Statement (.probeFrame p f t) := by
  intro s; show ∃ eff, execProbeFrame p f t s = live s eff; unfold execProbeFrame; exact ⟨_, rfl⟩
theorem calFrame (p : Port) (f : Frame) (bitErrors : Nat) : Statement (.calFrame p f bitErrors) := by
  intro s; show ∃ eff, execCalFrame p f bitErrors s = live s eff; unfold execCalFrame; exact ⟨_, rfl⟩
theorem initFrame (p : Port) (f : Frame) : Statement (.initFrame p f) := by
  intro s; show ∃ eff, execInitFrame p f s = live s eff; unfold execInitFrame; exact ⟨_, rfl⟩
theorem reservedKindFrame (p : Port) (f : Frame) : Statement (.reservedKindFrame p f) := by
  intro s; show ∃ eff, execReservedKindFrame p f s = live s eff; unfold execReservedKindFrame; exact ⟨_, rfl⟩
theorem parcelConsume (p : Port) : Statement (.parcelConsume p) := by
  intro s; show ∃ eff, execParcelConsume p s = live s eff; unfold execParcelConsume; exact ⟨_, rfl⟩
theorem controlFrameTimer (p : Port) : Statement (.controlFrameTimer p) := by
  intro s; show ∃ eff, execControlFrameTimer p s = live s eff; unfold execControlFrameTimer; exact ⟨_, rfl⟩
theorem replayTimerExpire (p : Port) (seq : BitVec 16) : Statement (.replayTimerExpire p seq) := by
  intro s; show ∃ eff, execReplayTimerExpire p seq s = live s eff; unfold execReplayTimerExpire; exact ⟨_, rfl⟩
theorem creditTimeout (p : Port) : Statement (.creditTimeout p) := by
  intro s; show ∃ eff, execCreditTimeout p s = live s eff; unfold execCreditTimeout; exact ⟨_, rfl⟩
theorem laneLockLoss (p : Port) (lane : Lane) : Statement (.laneLockLoss p lane) := by
  intro s; show ∃ eff, execLaneLockLoss p lane s = live s eff; unfold execLaneLockLoss; exact ⟨_, rfl⟩
theorem laneLockRegain (p : Port) (lane : Lane) : Statement (.laneLockRegain p lane) := by
  intro s; show ∃ eff, execLaneLockRegain p lane s = live s eff; unfold execLaneLockRegain; exact ⟨_, rfl⟩
theorem trainingComplete (p : Port) : Statement (.trainingComplete p) := by
  intro s; show ∃ eff, execTrainingComplete p s = live s eff; unfold execTrainingComplete; exact ⟨_, rfl⟩
theorem probeInterval (p : Port) : Statement (.probeInterval p) := by
  intro s; show ∃ eff, execProbeInterval p s = live s eff; unfold execProbeInterval; exact ⟨_, rfl⟩
theorem calInterval (p : Port) : Statement (.calInterval p) := by
  intro s; show ∃ eff, execCalInterval p s = live s eff; unfold execCalInterval; exact ⟨_, rfl⟩
theorem vblEnable (p : Port) (a : Acc) : Statement (.vblEnable p a) := by
  intro s; show ∃ eff, execVblEnable p a s = live s eff; unfold execVblEnable; exact ⟨_, rfl⟩
theorem vblDisable (p : Port) (a : Acc) : Statement (.vblDisable p a) := by
  intro s; show ∃ eff, execVblDisable p a s = live s eff; unfold execVblDisable; exact ⟨_, rfl⟩
theorem vblCatchupRead (h : HostPort) (p : Port) (z : Sz) : Statement (.vblCatchupRead h p z) := by
  intro s; show ∃ eff, execVblCatchupRead h p z s = live s eff; unfold execVblCatchupRead; exact ⟨_, rfl⟩
theorem routeTableWrite (r : RouteReg) (a : Acc) : Statement (.routeTableWrite r a) := by
  intro s; show ∃ eff, execRouteTableWrite r a s = live s eff; unfold execRouteTableWrite; exact ⟨_, rfl⟩
theorem launchData (p : Port) (k : LaunchPkt) : Statement (.launchData p k) := by
  intro s; show ∃ eff, execLaunchData p k s = live s eff; unfold execLaunchData; exact ⟨_, rfl⟩
theorem launchHeartbeat (p : Port) (k : LaunchPkt) : Statement (.launchHeartbeat p k) := by
  intro s; show ∃ eff, execLaunchHeartbeat p k s = live s eff; unfold execLaunchHeartbeat; exact ⟨_, rfl⟩
theorem graftReq (p : Port) (k : LaunchPkt) : Statement (.graftReq p k) := by
  intro s; show ∃ eff, execGraftReq p k s = live s eff; unfold execGraftReq; exact ⟨_, rfl⟩
theorem graftAck (p : Port) (k : LaunchPkt) : Statement (.graftAck p k) := by
  intro s; show ∃ eff, execGraftAck p k s = live s eff; unfold execGraftAck; exact ⟨_, rfl⟩
theorem graftNak (p : Port) (k : LaunchPkt) : Statement (.graftNak p k) := by
  intro s; show ∃ eff, execGraftNak p k s = live s eff; unfold execGraftNak; exact ⟨_, rfl⟩
theorem launchDone (p : Port) (k : LaunchPkt) : Statement (.launchDone p k) := by
  intro s; show ∃ eff, execLaunchDone p k s = live s eff; unfold execLaunchDone; exact ⟨_, rfl⟩
theorem heartbeatTimer (c : ChildSlot) : Statement (.heartbeatTimer c) := by
  intro s; show ∃ eff, execHeartbeatTimer c s = live s eff; unfold execHeartbeatTimer; exact ⟨_, rfl⟩
theorem silenceTimeout : Statement (.silenceTimeout) := by
  intro s; show ∃ eff, execSilenceTimeout s = live s eff; unfold execSilenceTimeout; exact ⟨_, rfl⟩
theorem graftTimeout : Statement (.graftTimeout) := by
  intro s; show ∃ eff, execGraftTimeout s = live s eff; unfold execGraftTimeout; exact ⟨_, rfl⟩
theorem rootSendPacket : Statement (.rootSendPacket) := by
  intro s; show ∃ eff, execRootSendPacket s = live s eff; unfold execRootSendPacket; exact ⟨_, rfl⟩
theorem doneTimerExpire : Statement (.doneTimerExpire) := by
  intro s; show ∃ eff, execDoneTimerExpire s = live s eff; unfold execDoneTimerExpire; exact ⟨_, rfl⟩
theorem rlyFeedWrite (a : Acc) : Statement (.rlyFeedWrite a) := by
  intro s; show ∃ eff, execRlyFeedWrite a s = live s eff; unfold execRlyFeedWrite; exact ⟨_, rfl⟩
theorem relayEnable (a : Acc) : Statement (.relayEnable a) := by
  intro s; show ∃ eff, execRelayEnable a s = live s eff; unfold execRelayEnable; exact ⟨_, rfl⟩
theorem relayDisable (a : Acc) : Statement (.relayDisable a) := by
  intro s; show ∃ eff, execRelayDisable a s = live s eff; unfold execRelayDisable; exact ⟨_, rfl⟩
theorem syncMessage (p : Port) (k : Packet) (t : TimeIn) : Statement (.syncMessage p k t) := by
  intro s; show ∃ eff, execSyncMessage p k t s = live s eff; unfold execSyncMessage; exact ⟨_, rfl⟩
theorem followUpMessage (p : Port) (k : Packet) (t : TimeIn) : Statement (.followUpMessage p k t) := by
  intro s; show ∃ eff, execFollowUpMessage p k t s = live s eff; unfold execFollowUpMessage; exact ⟨_, rfl⟩
theorem delayReqSend (p : Port) (seqId : BitVec 16) : Statement (.delayReqSend p seqId) := by
  intro s; show ∃ eff, execDelayReqSend p seqId s = live s eff; unfold execDelayReqSend; exact ⟨_, rfl⟩
theorem delayRespMessage (p : Port) (k : Packet) (t : TimeIn) : Statement (.delayRespMessage p k t) := by
  intro s; show ∃ eff, execDelayRespMessage p k t s = live s eff; unfold execDelayRespMessage; exact ⟨_, rfl⟩
theorem announceMessage (p : Port) (k : Packet) : Statement (.announceMessage p k) := by
  intro s; show ∃ eff, execAnnounceMessage p k s = live s eff; unfold execAnnounceMessage; exact ⟨_, rfl⟩
theorem ptpDiscardedMessage (p : Port) (k : Packet) : Statement (.ptpDiscardedMessage p k) := by
  intro s; show ∃ eff, execPtpDiscardedMessage p k s = live s eff; unfold execPtpDiscardedMessage; exact ⟨_, rfl⟩
theorem ftStepWrite (a : Acc) (t : TimeIn) : Statement (.ftStepWrite a t) := by
  intro s; show ∃ eff, execFtStepWrite a t s = live s eff; unfold execFtStepWrite; exact ⟨_, rfl⟩
theorem resetTime (a : Acc) : Statement (.resetTime a) := by
  intro s; show ∃ eff, execResetTime a s = live s eff; unfold execResetTime; exact ⟨_, rfl⟩
theorem clientEnable (a : Acc) (t : TimeIn) : Statement (.clientEnable a t) := by
  intro s; show ∃ eff, execClientEnable a t s = live s eff; unfold execClientEnable; exact ⟨_, rfl⟩
theorem ftRateWrite (a : Acc) (t : TimeIn) : Statement (.ftRateWrite a t) := by
  intro s; show ∃ eff, execFtRateWrite a t s = live s eff; unfold execFtRateWrite; exact ⟨_, rfl⟩
theorem steeringWatchdogExpire (t : TimeIn) : Statement (.steeringWatchdogExpire t) := by
  intro s; show ∃ eff, execSteeringWatchdogExpire t s = live s eff; unfold execSteeringWatchdogExpire; exact ⟨_, rfl⟩
theorem ftNowNsRead (p : HostPort) (z : Sz) (now : TimeIn) : Statement (.ftNowNsRead p z now) := by
  intro s; show ∃ eff, execFtNowNsRead p z now s = live s eff; unfold execFtNowNsRead; exact ⟨_, rfl⟩
theorem ringCfgWrite (n : RingIx) (a : Acc) : Statement (.ringCfgWrite n a) := by
  intro s; show ∃ eff, execRingCfgWrite n a s = live s eff; unfold execRingCfgWrite; exact ⟨_, rfl⟩
theorem ringConsWrite (n : RingIx) (a : Acc) : Statement (.ringConsWrite n a) := by
  intro s; show ∃ eff, execRingConsWrite n a s = live s eff; unfold execRingConsWrite; exact ⟨_, rfl⟩
theorem doorbellWrite (n : RingIx) (a : Acc) : Statement (.doorbellWrite n a) := by
  intro s; show ∃ eff, execDoorbellWrite n a s = live s eff; unfold execDoorbellWrite; exact ⟨_, rfl⟩
theorem nop (c : CmdRing) : Statement (.nop c) := by
  intro s; show ∃ eff, execNop c s = live s eff; unfold execNop; exact ⟨_, rfl⟩
theorem submit (c : CmdRing) (o : SubmitOps) : Statement (.submit c o) := by
  intro s; show ∃ eff, execSubmit c o s = live s eff; unfold execSubmit; exact ⟨_, rfl⟩
theorem aduReservedOpcode (c : CmdRing) (op : Byte) : Statement (.aduReservedOpcode c op) := by
  intro s; show ∃ eff, execAduReservedOpcode c op s = live s eff; unfold execAduReservedOpcode; exact ⟨_, rfl⟩
theorem wsSwitch (c : CmdRing) (o : AduOps) : Statement (.wsSwitch c o) := by
  intro s; show ∃ eff, execWsSwitch c o s = live s eff; unfold execWsSwitch; exact ⟨_, rfl⟩
theorem adSwitch (c : CmdRing) (o : AduOps) : Statement (.adSwitch c o) := by
  intro s; show ∃ eff, execAdSwitch c o s = live s eff; unfold execAdSwitch; exact ⟨_, rfl⟩
theorem adClear (c : CmdRing) (o : AduOps) : Statement (.adClear c o) := by
  intro s; show ∃ eff, execAdClear c o s = live s eff; unfold execAdClear; exact ⟨_, rfl⟩
theorem lpRegister (c : CmdRing) (o : AduOps) : Statement (.lpRegister c o) := by
  intro s; show ∃ eff, execLpRegister c o s = live s eff; unfold execLpRegister; exact ⟨_, rfl⟩
theorem lpRelease (c : CmdRing) (o : AduOps) : Statement (.lpRelease c o) := by
  intro s; show ∃ eff, execLpRelease c o s = live s eff; unfold execLpRelease; exact ⟨_, rfl⟩
theorem spRegister (c : CmdRing) (o : AduOps) : Statement (.spRegister c o) := by
  intro s; show ∃ eff, execSpRegister c o s = live s eff; unfold execSpRegister; exact ⟨_, rfl⟩
theorem spCapture (c : CmdRing) (o : AduOps) : Statement (.spCapture c o) := by
  intro s; show ∃ eff, execSpCapture c o s = live s eff; unfold execSpCapture; exact ⟨_, rfl⟩
theorem spRelease (c : CmdRing) (o : AduOps) : Statement (.spRelease c o) := by
  intro s; show ∃ eff, execSpRelease c o s = live s eff; unfold execSpRelease; exact ⟨_, rfl⟩
theorem eventRingResume : Statement (.eventRingResume) := by
  intro s; show ∃ eff, execEventRingResume s = live s eff; unfold execEventRingResume; exact ⟨_, rfl⟩
theorem aduCancelWrite (w : CancelWord) (a : Acc) : Statement (.aduCancelWrite w a) := by
  intro s; show ∃ eff, execAduCancelWrite w a s = live s eff; unfold execAduCancelWrite; exact ⟨_, rfl⟩
theorem immediateClearLand (g : Gt) (seats : SeatList) : Statement (.immediateClearLand g seats) := by
  intro s; show ∃ eff, execImmediateClearLand g seats s = live s eff; unfold execImmediateClearLand; exact ⟨_, rfl⟩
theorem acctBalWrite (n : Account) (a : Acc) : Statement (.acctBalWrite n a) := by
  intro s; show ∃ eff, execAcctBalWrite n a s = live s eff; unfold execAcctBalWrite; exact ⟨_, rfl⟩
theorem acctCfgWrite (n : Account) (a : Acc) : Statement (.acctCfgWrite n a) := by
  intro s; show ∃ eff, execAcctCfgWrite n a s = live s eff; unfold execAcctCfgWrite; exact ⟨_, rfl⟩
theorem mirrorBinding (p : Port) (k : Packet) : Statement (.mirrorBinding p k) := by
  intro s; show ∃ eff, execMirrorBinding p k s = live s eff; unfold execMirrorBinding; exact ⟨_, rfl⟩
theorem mirrorSelector (p : Port) (k : Packet) : Statement (.mirrorSelector p k) := by
  intro s; show ∃ eff, execMirrorSelector p k s = live s eff; unfold execMirrorSelector; exact ⟨_, rfl⟩
theorem mirrorEndNotice (p : Port) (k : Packet) : Statement (.mirrorEndNotice p k) := by
  intro s; show ∃ eff, execMirrorEndNotice p k s = live s eff; unfold execMirrorEndNotice; exact ⟨_, rfl⟩
theorem mirrorImmediateClear (p : Port) (k : Packet) : Statement (.mirrorImmediateClear p k) := by
  intro s; show ∃ eff, execMirrorImmediateClear p k s = live s eff; unfold execMirrorImmediateClear; exact ⟨_, rfl⟩
theorem kvPoolRead (p : HostPort) (z : Sz) : Statement (.kvPoolRead p z) := by
  intro s; show ∃ eff, execKvPoolRead p z s = live s eff; unfold execKvPoolRead; exact ⟨_, rfl⟩
theorem ownClaim (a : Acc) : Statement (.ownClaim a) := by
  intro s; show ∃ eff, execOwnClaim a s = live s eff; unfold execOwnClaim; exact ⟨_, rfl⟩
theorem ownRequest (a : Acc) : Statement (.ownRequest a) := by
  intro s; show ∃ eff, execOwnRequest a s = live s eff; unfold execOwnRequest; exact ⟨_, rfl⟩
theorem ownHandover (a : Acc) : Statement (.ownHandover a) := by
  intro s; show ∃ eff, execOwnHandover a s = live s eff; unfold execOwnHandover; exact ⟨_, rfl⟩
theorem ownLapseWrite (a : Acc) : Statement (.ownLapseWrite a) := by
  intro s; show ∃ eff, execOwnLapseWrite a s = live s eff; unfold execOwnLapseWrite; exact ⟨_, rfl⟩
theorem ownershipLapse (t : TimeIn) : Statement (.ownershipLapse t) := by
  intro s; show ∃ eff, execOwnershipLapse t s = live s eff; unfold execOwnershipLapse; exact ⟨_, rfl⟩
theorem aperWinWrite (w : AperWin) (a : Acc) : Statement (.aperWinWrite w a) := by
  intro s; show ∃ eff, execAperWinWrite w a s = live s eff; unfold execAperWinWrite; exact ⟨_, rfl⟩
theorem apertureRead (p : HostPort) (off : AperOff) (len : Nat) : Statement (.apertureRead p off len) := by
  intro s; show ∃ eff, execApertureRead p off len s = live s eff; unfold execApertureRead; exact ⟨_, rfl⟩
theorem apertureWrite (p : HostPort) (off : AperOff) (data : Bytes) : Statement (.apertureWrite p off data) := by
  intro s; show ∃ eff, execApertureWrite p off data s = live s eff; unfold execApertureWrite; exact ⟨_, rfl⟩
theorem msixPendingSend (p : HostPort) (v : MsixVec) : Statement (.msixPendingSend p v) := by
  intro s; show ∃ eff, execMsixPendingSend p v s = live s eff; unfold execMsixPendingSend; exact ⟨_, rfl⟩
theorem registerWrite (w : RegWrite) : Statement (.registerWrite w) := by
  intro s; show ∃ eff, execRegisterWrite w s = live s eff; unfold execRegisterWrite; exact ⟨_, rfl⟩
theorem loadFirmware (a : Acc) : Statement (.loadFirmware a) := by
  intro s; show ∃ eff, execLoadFirmware a s = live s eff; unfold execLoadFirmware; exact ⟨_, rfl⟩
theorem loadStructure (a : Acc) : Statement (.loadStructure a) := by
  intro s; show ∃ eff, execLoadStructure a s = live s eff; unfold execLoadStructure; exact ⟨_, rfl⟩
theorem loadPlan (a : Acc) : Statement (.loadPlan a) := by
  intro s; show ∃ eff, execLoadPlan a s = live s eff; unfold execLoadPlan; exact ⟨_, rfl⟩
theorem loadCert (a : Acc) : Statement (.loadCert a) := by
  intro s; show ∃ eff, execLoadCert a s = live s eff; unfold execLoadCert; exact ⟨_, rfl⟩
theorem unload (a : Acc) : Statement (.unload a) := by
  intro s; show ∃ eff, execUnload a s = live s eff; unfold execUnload; exact ⟨_, rfl⟩
theorem loadRefusedKind (a : Acc) : Statement (.loadRefusedKind a) := by
  intro s; show ∃ eff, execLoadRefusedKind a s = live s eff; unfold execLoadRefusedKind; exact ⟨_, rfl⟩
theorem loadEnd : Statement (.loadEnd) := by
  intro s; show ∃ eff, execLoadEnd s = live s eff; unfold execLoadEnd; exact ⟨_, rfl⟩
theorem firmwareReady (l : FwSources) : Statement (.firmwareReady l) := by
  intro s; show ∃ eff, execFirmwareReady l s = live s eff; unfold execFirmwareReady; exact ⟨_, rfl⟩
theorem firmwareReadyTimeout : Statement (.firmwareReadyTimeout) := by
  intro s; show ∃ eff, execFirmwareReadyTimeout s = live s eff; unfold execFirmwareReadyTimeout; exact ⟨_, rfl⟩
theorem getVersion (b : SpdmBinding) : Statement (.getVersion b) := by
  intro s; show ∃ eff, execGetVersion b s = live s eff; unfold execGetVersion; exact ⟨_, rfl⟩
theorem getCapabilities (b : SpdmBinding) : Statement (.getCapabilities b) := by
  intro s; show ∃ eff, execGetCapabilities b s = live s eff; unfold execGetCapabilities; exact ⟨_, rfl⟩
theorem negotiateAlgorithms (b : SpdmBinding) : Statement (.negotiateAlgorithms b) := by
  intro s; show ∃ eff, execNegotiateAlgorithms b s = live s eff; unfold execNegotiateAlgorithms; exact ⟨_, rfl⟩
theorem getDigests (b : SpdmBinding) : Statement (.getDigests b) := by
  intro s; show ∃ eff, execGetDigests b s = live s eff; unfold execGetDigests; exact ⟨_, rfl⟩
theorem getCertificate (b : SpdmBinding) (slot : BitVec 4) (off : BitVec 16) (len : BitVec 16) : Statement (.getCertificate b slot off len) := by
  intro s; show ∃ eff, execGetCertificate b slot off len s = live s eff; unfold execGetCertificate; exact ⟨_, rfl⟩
theorem challenge (b : SpdmBinding) (slot : BitVec 4) (nonce : Bytes) : Statement (.challenge b slot nonce) := by
  intro s; show ∃ eff, execChallenge b slot nonce s = live s eff; unfold execChallenge; exact ⟨_, rfl⟩
theorem getMeasurements (b : SpdmBinding) (ix : Byte) (signed : Bool) (nonce : Bytes) : Statement (.getMeasurements b ix signed nonce) := by
  intro s; show ∃ eff, execGetMeasurements b ix signed nonce s = live s eff; unfold execGetMeasurements; exact ⟨_, rfl⟩
theorem mctpControl (b : SpdmBinding) (cmd : Byte) : Statement (.mctpControl b cmd) := by
  intro s; show ∃ eff, execMctpControl b cmd s = live s eff; unfold execMctpControl; exact ⟨_, rfl⟩
theorem coreClaim (c : Core) : Statement (.coreClaim c) := by
  intro s; show ∃ eff, execCoreClaim c s = live s eff; unfold execCoreClaim; exact ⟨_, rfl⟩
theorem coreComplete (c : Core) (n : SrcIx) : Statement (.coreComplete c n) := by
  intro s; show ∃ eff, execCoreComplete c n s = live s eff; unfold execCoreComplete; exact ⟨_, rfl⟩
theorem intSet (a : Acc) : Statement (.intSet a) := by
  intro s; show ∃ eff, execIntSet a s = live s eff; unfold execIntSet; exact ⟨_, rfl⟩
theorem intSrcWrite (n : SrcIx) (a : Acc) : Statement (.intSrcWrite n a) := by
  intro s; show ∃ eff, execIntSrcWrite n a s = live s eff; unfold execIntSrcWrite; exact ⟨_, rfl⟩
theorem forwardSend (f : FwdIx) : Statement (.forwardSend f) := by
  intro s; show ∃ eff, execForwardSend f s = live s eff; unfold execForwardSend; exact ⟨_, rfl⟩
theorem mbRequest (a : Acc) : Statement (.mbRequest a) := by
  intro s; show ∃ eff, execMbRequest a s = live s eff; unfold execMbRequest; exact ⟨_, rfl⟩
theorem mbReply (tag : Byte) (reply : Bytes) : Statement (.mbReply tag reply) := by
  intro s; show ∃ eff, execMbReply tag reply s = live s eff; unfold execMbReply; exact ⟨_, rfl⟩
theorem telemetryIntervalEnd : Statement (.telemetryIntervalEnd) := by
  intro s; show ∃ eff, execTelemetryIntervalEnd s = live s eff; unfold execTelemetryIntervalEnd; exact ⟨_, rfl⟩
theorem telemetryRecordWrite : Statement (.telemetryRecordWrite) := by
  intro s; show ∃ eff, execTelemetryRecordWrite s = live s eff; unfold execTelemetryRecordWrite; exact ⟨_, rfl⟩
theorem stewardMemoryUe (u : Upset) : Statement (.stewardMemoryUe u) := by
  intro s; show ∃ eff, execStewardMemoryUe u s = live s eff; unfold execStewardMemoryUe; exact ⟨_, rfl⟩
theorem resume (a : Acc) : Statement (.resume a) := by
  intro s; show ∃ eff, execResume a s = live s eff; unfold execResume; exact ⟨_, rfl⟩
theorem resumeCheckEnd : Statement (.resumeCheckEnd) := by
  intro s; show ∃ eff, execResumeCheckEnd s = live s eff; unfold execResumeCheckEnd; exact ⟨_, rfl⟩
theorem lockstepSummary (p : Port) (k : Packet) : Statement (.lockstepSummary p k) := by
  intro s; show ∃ eff, execLockstepSummary p k s = live s eff; unfold execLockstepSummary; exact ⟨_, rfl⟩
theorem lockstepSignatures (p : Port) (k : Packet) : Statement (.lockstepSignatures p k) := by
  intro s; show ∃ eff, execLockstepSignatures p k s = live s eff; unfold execLockstepSignatures; exact ⟨_, rfl⟩
theorem lockstepTimeout (stage : Word) : Statement (.lockstepTimeout stage) := by
  intro s; show ∃ eff, execLockstepTimeout stage s = live s eff; unfold execLockstepTimeout; exact ⟨_, rfl⟩
theorem fenceOrder (p : Port) (k : Packet) : Statement (.fenceOrder p k) := by
  intro s; show ∃ eff, execFenceOrder p k s = live s eff; unfold execFenceOrder; exact ⟨_, rfl⟩
theorem fenceSubmit (a : Acc) : Statement (.fenceSubmit a) := by
  intro s; show ∃ eff, execFenceSubmit a s = live s eff; unfold execFenceSubmit; exact ⟨_, rfl⟩
theorem fenceCheckEnd : Statement (.fenceCheckEnd) := by
  intro s; show ∃ eff, execFenceCheckEnd s = live s eff; unfold execFenceCheckEnd; exact ⟨_, rfl⟩
theorem registerReadRequest (p : Port) (k : Packet) : Statement (.registerReadRequest p k) := by
  intro s; show ∃ eff, execRegisterReadRequest p k s = live s eff; unfold execRegisterReadRequest; exact ⟨_, rfl⟩
theorem managementDiscard (p : Port) (k : Packet) : Statement (.managementDiscard p k) := by
  intro s; show ∃ eff, execManagementDiscard p k s = live s eff; unfold execManagementDiscard; exact ⟨_, rfl⟩
theorem pwrgdFall : Statement (.pwrgdFall) := by
  intro s; show ∃ eff, execPwrgdFall s = onPower s eff; unfold execPwrgdFall; exact ⟨_, rfl⟩
theorem junctionTemperatureReturn : Statement (.junctionTemperatureReturn) := by
  intro s; show ∃ eff, execJunctionTemperatureReturn s = onPower s eff; unfold execJunctionTemperatureReturn; exact ⟨_, rfl⟩
theorem xingFillReturn (c : Xing) (fill : Fill) : Statement (.xingFillReturn c fill) := by
  intro s; show ∃ eff, execXingFillReturn c fill s = live s eff; unfold execXingFillReturn; exact ⟨_, rfl⟩
theorem launchReservedKind (p : Port) (k : LaunchPkt) : Statement (.launchReservedKind p k) := by
  intro s; show ∃ eff, execLaunchReservedKind p k s = live s eff; unfold execLaunchReservedKind; exact ⟨_, rfl⟩

end Sys2Proof.Laws.Form

namespace Sys2Proof.Machine

/-- The step with a command in front is that command on the queue's rest. -/
theorem step_of_cons (s : State) (c : Instr) (rest : List Instr) (h : s.pending = c :: rest) : step s = exec c { s with pending := rest } := by
  unfold step; rw [h]
/-- The step on an empty queue idles. -/
theorem step_of_nil (s : State) (h : s.pending = []) : step s = .next s := by unfold step; rw [h]

end Sys2Proof.Machine
end

