-- ==== Sys2Proof/Laws/Tables.lean ====
section
/-! SUPPORT. Laws of the sparse tables, of the byte memories and of the bit fields: a read after a write, what a write leaves alone,
and that every operation keeps the canonical form. -/

namespace Sys2Proof.Machine

/-! Sparse tables. -/

theorem tget_append_of_lt {α : Type} (d : α) (l r : List (Nat × α)) (k : Nat) (h : ∀ e ∈ l, e.1 < k) : tget d (l ++ r) k = tget d r k := by
  induction l with
  | nil => rfl
  | cons e l ih =>
    obtain ⟨j, v⟩ := e
    have hj : j < k := h (j, v) (by simp)
    simp only [List.cons_append, tget, if_neg (Nat.ne_of_lt hj)]
    exact ih (fun e he => h e (by simp [he]))

theorem tget_eq_default {α : Type} (d : α) (l : List (Nat × α)) (k : Nat) (h : ∀ e ∈ l, e.1 ≠ k) : tget d l k = d := by
  induction l with
  | nil => rfl
  | cons e l ih =>
    obtain ⟨j, v⟩ := e
    have hj : j ≠ k := h (j, v) (by simp)
    simp only [tget, if_neg hj]
    exact ih (fun e he => h e (by simp [he]))

/-- A filter that keeps a key leaves what the table holds there. -/
theorem tget_filter {α : Type} (d : α) (p : Nat → Bool) (l : List (Nat × α)) (k : Nat) (h : p k = true) :
    tget d (l.filter (fun e => p e.1)) k = tget d l k := by
  induction l with
  | nil => rfl
  | cons e l ih =>
    obtain ⟨j, v⟩ := e
    by_cases hj : j = k
    · subst hj; simp [tget, h]
    · by_cases hp : p j = true
      · simp [hp, tget, hj, ih]
      · simp [hp, tget, hj, ih]

theorem tget_append {α : Type} (d : α) (l r : List (Nat × α)) (k : Nat) (h : ∀ e ∈ l, e.1 ≠ k) : tget d (l ++ r) k = tget d r k := by
  induction l with
  | nil => rfl
  | cons e l ih =>
    obtain ⟨j, v⟩ := e
    have hj : j ≠ k := h (j, v) (by simp)
    simp only [List.cons_append, tget, if_neg hj]
    exact ih (fun e he => h e (by simp [he]))

theorem tget_append_left {α : Type} (d : α) (l r : List (Nat × α)) (k : Nat) (h : ∀ e ∈ r, e.1 ≠ k) : tget d (l ++ r) k = tget d l k := by
  induction l with
  | nil => exact tget_eq_default d r k h
  | cons e l ih =>
    obtain ⟨j, v⟩ := e
    by_cases hj : j = k
    · simp [tget, hj]
    · simp [tget, hj, ih]

/-- What was written is read. -/
@[simp] theorem tget_tput_same {α : Type} [DecidableEq α] (d : α) (t : List (Nat × α)) (k : Nat) (v : α) : tget d (tput d t k v) k = v := by
  unfold tput
  rw [List.append_assoc, tget_append]
  · by_cases hv : v = d
    · rw [if_pos hv, List.nil_append, hv]
      exact tget_eq_default d _ k (fun e he => by simp at he; omega)
    · simp [hv, tget]
  · intro e he; simp at he; omega

/-- Every other key is left, whatever default it reads with. -/
theorem tget_tput_other {α : Type} [DecidableEq α] (d c : α) (t : List (Nat × α)) (k j : Nat) (v : α) (h : j ≠ k) :
    tget c (tput d t k v) j = tget c t j := by
  unfold tput
  by_cases hjk : j < k
  · rw [tget_append_left, tget_append_left, tget_filter c (fun x => decide (x < k)) t j (by simpa using hjk)]
    · intro e he; split at he <;> simp at he; rw [he]; simpa using Ne.symm h
    · intro e he; simp at he; omega
  · rw [List.append_assoc, tget_append, tget_append, tget_filter c (fun x => decide (k < x)) t j (by simp; omega)]
    · intro e he; split at he <;> simp at he; rw [he]; simpa using Ne.symm h
    · intro e he; simp at he; omega

/-- Every other key is left. -/
theorem tget_tput_ne {α : Type} [DecidableEq α] (d : α) (t : List (Nat × α)) (k j : Nat) (v : α) (h : j ≠ k) :
    tget d (tput d t k v) j = tget d t j := tget_tput_other d d t k j v h

theorem tget_tput {α : Type} [DecidableEq α] (d : α) (t : List (Nat × α)) (k j : Nat) (v : α) :
    tget d (tput d t k v) j = if j = k then v else tget d t j := by
  by_cases h : j = k
  · subst h; simp
  · rw [if_neg h, tget_tput_ne d t k j v h]

/-- A write keeps the canonical form. -/
theorem twf_tput {α : Type} [DecidableEq α] (d : α) (t : List (Nat × α)) (k : Nat) (v : α) (h : twf d t) : twf d (tput d t k v) := by
  obtain ⟨hs, hd⟩ := h
  refine ⟨?_, ?_⟩
  · unfold tput
    rw [List.append_assoc, List.pairwise_append]
    refine ⟨hs.filter _, ?_, ?_⟩
    · rw [List.pairwise_append]
      refine ⟨by split <;> simp, hs.filter _, ?_⟩
      intro a ha b hb; split at ha <;> simp at ha hb; rw [ha]; exact hb.2
    · intro a ha b hb
      simp only [List.mem_append, List.mem_filter, decide_eq_true_eq] at ha hb
      rcases hb with hb | hb
      · split at hb <;> simp at hb; rw [hb]; exact ha.2
      · omega
  · intro e he
    unfold tput at he
    simp only [List.mem_append, List.mem_filter] at he
    rcases he with (he | he) | he
    · exact hd e he.1
    · split at he <;> simp at he; rw [he]; assumption
    · exact hd e he.1

/-- Dropping a range keeps the canonical form, empties the range and leaves the rest. -/
theorem twf_tdropRange {α : Type} (d : α) (t : List (Nat × α)) (lo n : Nat) (h : twf d t) : twf d (tdropRange t lo n) :=
  ⟨h.1.filter _, fun e he => h.2 e (List.mem_filter.mp he).1⟩
theorem tget_tdropRange {α : Type} (d : α) (t : List (Nat × α)) (lo n k : Nat) :
    tget d (tdropRange t lo n) k = if lo ≤ k ∧ k < lo + n then d else tget d t k := by
  unfold tdropRange
  split
  · exact tget_eq_default d _ k (fun e he => by simp at he; omega)
  · exact tget_filter d (fun x => decide (x < lo) || decide (lo + n ≤ x)) t k (by simp; omega)

/-! Byte memories. -/

theorem cellsOf_range (a : Nat) (b : Bytes) : ∀ e ∈ cellsOf a b, a ≤ e.1 ∧ e.1 < a + b.length ∧ e.2 ≠ 0 := by
  induction b generalizing a with
  | nil => simp [cellsOf]
  | cons x r ih =>
    intro e he
    simp only [cellsOf] at he
    split at he
    · obtain ⟨h1, h2, h3⟩ := ih (a + 1) e he
      exact ⟨by omega, by rw [List.length_cons]; omega, h3⟩
    · rcases List.mem_cons.mp he with rfl | he
      · exact ⟨Nat.le_refl _, by simp, by assumption⟩
      · obtain ⟨h1, h2, h3⟩ := ih (a + 1) e he
        exact ⟨by omega, by rw [List.length_cons]; omega, h3⟩

theorem cellsOf_sorted (a : Nat) (b : Bytes) : (cellsOf a b).Pairwise (fun x y => x.1 < y.1) := by
  induction b generalizing a with
  | nil => simp [cellsOf]
  | cons x r ih =>
    simp only [cellsOf]
    split
    · exact ih _
    · exact List.pairwise_cons.mpr ⟨fun e he => (cellsOf_range _ _ e he).1, ih _⟩

theorem memByte_cellsOf (a : Nat) (b : Bytes) (i : Nat) : memByte (cellsOf a b) (a + i) = b.getD i 0 := by
  induction b generalizing a i with
  | nil => simp [cellsOf, memByte, tget]
  | cons x r ih =>
    simp only [cellsOf]
    cases i with
    | zero =>
      split
      · rename_i h
        simp only [List.getD_cons_zero, h]
        exact tget_eq_default _ _ _ (fun e he => by have := (cellsOf_range _ _ e he).1; omega)
      · simp [memByte, tget]
    | succ i =>
      have h := ih (a + 1) i
      rw [show a + (i + 1) = a + 1 + i by omega, List.getD_cons_succ]
      split
      · exact h
      · unfold memByte at *; rw [tget, if_neg (by omega)]; exact h

/-- A read after a write to the same place gives what was written. -/
theorem memByte_memWrite_in (m : Mem) (a : Nat) (b : Bytes) (i : Nat) (h : i < b.length) :
    memByte (memWrite m a b) (a + i) = b.getD i 0 := by
  unfold memWrite memByte
  rw [tget_append_left, tget_append]
  · exact memByte_cellsOf a b i
  · intro e he; simp at he; omega
  · intro e he; simp at he; omega

/-- A write leaves every byte outside its range as it was. -/
theorem memByte_memWrite_out (m : Mem) (a : Nat) (b : Bytes) (k : Nat) (h : k < a ∨ a + b.length ≤ k) :
    memByte (memWrite m a b) k = memByte m k := by
  unfold memWrite memByte
  rcases h with h | h
  · rw [tget_append_left, tget_append_left, tget_filter 0 (fun x => decide (x < a)) m k (by simpa using h)]
    · intro e he; have := (cellsOf_range _ _ e he).1; omega
    · intro e he; simp at he; omega
  · rw [List.append_assoc, tget_append, tget_append, tget_filter 0 (fun x => decide (a + b.length ≤ x)) m k (by simpa using h)]
    · intro e he; have := (cellsOf_range _ _ e he).2.1; omega
    · intro e he; simp at he; omega

/-- Every memory operation keeps the canonical form: `memWrite` is the only one that changes a memory. -/
theorem Mem.wf_memWrite (m : Mem) (a : Nat) (b : Bytes) (h : Mem.wf m) : Mem.wf (memWrite m a b) := by
  obtain ⟨hs, hd⟩ := h
  refine ⟨?_, ?_⟩
  · unfold memWrite
    rw [List.append_assoc, List.pairwise_append]
    refine ⟨hs.filter _, ?_, ?_⟩
    · rw [List.pairwise_append]
      refine ⟨cellsOf_sorted a b, hs.filter _, ?_⟩
      intro x hx y hy; have := cellsOf_range _ _ x hx; simp at hy; omega
    · intro x hx y hy
      simp only [List.mem_append, List.mem_filter, decide_eq_true_eq] at hx hy
      rcases hy with hy | hy
      · have := cellsOf_range _ _ y hy; omega
      · omega
  · intro e he
    unfold memWrite at he
    simp only [List.mem_append, List.mem_filter] at he
    rcases he with (he | he) | he
    · exact hd e he.1
    · exact (cellsOf_range _ _ e he).2.2
    · exact hd e he.1

@[simp] theorem memRead_length (m : Mem) (a n : Nat) : (memRead m a n).length = n := by simp [memRead]
/-- A read gives the bytes from its address on. -/
theorem memRead_eq (m : Mem) (a n : Nat) : memRead m a n = (List.range n).map (fun i => memByte m (a + i)) := by
  simp only [memRead]
  apply List.map_congr_left
  intro i hi
  simp at hi
  exact tget_filter 0 (fun x => decide (a ≤ x) && decide (x < a + n)) m (a + i) (by simp; omega)
/-- A read of what was just written. -/
theorem memRead_memWrite (m : Mem) (a : Nat) (b : Bytes) : memRead (memWrite m a b) a b.length = b := by
  rw [memRead_eq]
  apply List.ext_getElem (by simp)
  intro i h1 h2
  simp only [List.getElem_map, List.getElem_range]
  rw [memByte_memWrite_in m a b i h2]
  simp [List.getD_eq_getElem?_getD, h2]

/-! Fields. -/

theorem Fld.get_lt (f : Fld) (w : Word) : f.get w < 2 ^ f.len := Nat.mod_lt _ (Nat.two_pow_pos _)

theorem Fld.mask_getLsbD (f : Fld) (i : Nat) : f.mask.getLsbD i = (decide (i < 64) && decide (f.lo ≤ i) && decide (i < f.lo + f.len)) := by
  unfold Fld.mask
  rw [BitVec.getLsbD_ofNat]
  simp only [Nat.testBit_shiftLeft, Nat.testBit_two_pow_sub_one]
  by_cases h1 : i < 64 <;> by_cases h2 : f.lo ≤ i <;> simp [h1, h2] <;> omega

theorem Fld.set_getLsbD (f : Fld) (w : Word) (v i : Nat) :
    (f.set w v).getLsbD i = if f.lo ≤ i ∧ i < f.lo + f.len ∧ i < 64 then v.testBit (i - f.lo) else w.getLsbD i := by
  unfold Fld.set
  rw [BitVec.getLsbD_or, BitVec.getLsbD_and, BitVec.getLsbD_not, Fld.mask_getLsbD, BitVec.getLsbD_ofNat, Nat.testBit_shiftLeft,
    Nat.testBit_mod_two_pow]
  by_cases h1 : i < 64
  · by_cases h2 : f.lo ≤ i
    · by_cases h3 : i < f.lo + f.len
      · have : i - f.lo < f.len := by omega
        simp [h1, h2, h3, this]
      · have : ¬ (i - f.lo < f.len) := by omega
        simp [h1, h2, h3, this]
    · simp [h1, h2]
  · have : w.getLsbD i = false := BitVec.getLsbD_of_ge w i (by omega)
    simp [h1, this]

/-- A field reads what was written to it, cut to its width. -/
theorem Fld.get_set (f : Fld) (w : Word) (v : Nat) (h : f.lo + f.len ≤ 64) : f.get (f.set w v) = v % 2 ^ f.len := by
  unfold Fld.get
  apply Nat.eq_of_testBit_eq
  intro i
  rw [Nat.testBit_mod_two_pow, Nat.testBit_mod_two_pow, Nat.testBit_shiftRight, BitVec.testBit_toNat, Fld.set_getLsbD]
  by_cases hi : i < f.len
  · rw [if_pos ⟨by omega, by omega, by omega⟩]; simp [hi]
  · simp [hi]

/-- A write to a field leaves a field beside it. -/
theorem Fld.get_set_ne (f g : Fld) (w : Word) (v : Nat) (h : f.lo + f.len ≤ g.lo ∨ g.lo + g.len ≤ f.lo) : g.get (f.set w v) = g.get w := by
  unfold Fld.get
  apply Nat.eq_of_testBit_eq
  intro i
  rw [Nat.testBit_mod_two_pow, Nat.testBit_mod_two_pow, Nat.testBit_shiftRight, Nat.testBit_shiftRight, BitVec.testBit_toNat,
    BitVec.testBit_toNat, Fld.set_getLsbD]
  by_cases hi : i < g.len
  · rw [if_neg (by omega)]
  · simp [hi]

end Sys2Proof.Machine
end

