-- ==== Sys2Proof/Laws/Registers.lean ====
section
/-! SUPPORT. Laws of the registers: a read after a write, what a write leaves alone, and the interrupt line that a write moves. -/

namespace Sys2Proof.Machine

/-- What a register reads depends on the register map alone. -/
theorem State.reg_congr {s t : State} (h : t.regs = s.regs) (r : Reg) : t.reg r = s.reg r := by unfold State.reg; rw [h]
theorem State.fget_congr {s t : State} (h : t.regs = s.regs) (r : Reg) (f : Fld) : t.fget r f = s.fget r f := by
  unfold State.fget; rw [State.reg_congr h]
theorem State.flag_congr {s t : State} (h : t.regs = s.regs) (r : Reg) (f : Fld) : t.flag r f = s.flag r f := by
  unfold State.flag; rw [State.fget_congr h]

@[simp] theorem State.reg_out (s : State) (o : List Out) (r : Reg) : ({ s with out := o } : State).reg r = s.reg r := rfl
@[simp] theorem State.reg_keepOuter (s t : State) (r : Reg) : (s.keepOuter t).reg r = t.reg r := rfl
@[simp] theorem State.fget_keepOuter (s t : State) (r : Reg) (f : Fld) : (s.keepOuter t).fget r f = t.fget r f := rfl
@[simp] theorem State.flag_keepOuter (s t : State) (r : Reg) (f : Fld) : (s.keepOuter t).flag r f = t.flag r f := rfl
@[simp] theorem State.reg_emit (s : State) (o : Out) (r : Reg) : (s.emit o).reg r = s.reg r := rfl
@[simp] theorem State.reg_putSrc (s : State) (n : Nat) (q : IrqSrc) (r : Reg) : (s.putSrc n q).reg r = s.reg r := rfl
@[simp] theorem State.reg_pulse (s : State) (n : Nat) (r : Reg) : (s.pulse n).reg r = s.reg r := rfl
@[simp] theorem State.reg_modTile (s : State) (g : Nat) (f : Tile → Tile) (r : Reg) : (s.modTile g f).reg r = s.reg r := rfl
@[simp] theorem State.reg_modRgn (s : State) (n : Nat) (f : RgnSt → RgnSt) (r : Reg) : (s.modRgn n f).reg r = s.reg r := rfl
@[simp] theorem State.reg_modPort (s : State) (p : Nat) (f : PortSt → PortSt) (r : Reg) : (s.modPort p f).reg r = s.reg r := rfl
@[simp] theorem State.reg_modHost (s : State) (p : Nat) (f : HostSt → HostSt) (r : Reg) : (s.modHost p f).reg r = s.reg r := rfl
@[simp] theorem State.reg_modPart (s : State) (p : Nat) (f : PartSt → PartSt) (r : Reg) : (s.modPart p f).reg r = s.reg r := rfl

/-- The register map after a write. -/
theorem State.setReg_regs (s : State) (r : Reg) (v : Word) : (s.setReg r v).regs = tput r.info.reset s.regs r.off v := by
  unfold State.setReg; cases lineSrc r <;> rfl
/-- A register reads what was written to it. -/
@[simp] theorem State.reg_setReg_same (s : State) (r : Reg) (v : Word) : (s.setReg r v).reg r = v := by
  simp [State.reg, State.setReg_regs]
/-- A register at another offset is left. -/
theorem State.reg_setReg_ne (s : State) (r q : Reg) (v : Word) (h : q.off ≠ r.off) : (s.setReg r v).reg q = s.reg q := by
  rw [State.reg, State.setReg_regs, tget_tput_other _ _ _ _ _ _ h]; rfl
/-- A field reads what was written to it, cut to its width. -/
theorem State.fget_fset_same (s : State) (r : Reg) (f : Fld) (v : Nat) (h : f.lo + f.len ≤ 64) : (s.fset r f v).fget r f = v % 2 ^ f.len := by
  simp [State.fget, State.fset, Fld.get_set f _ _ h]
/-- A field beside the one written is left. -/
theorem State.fget_fset_beside (s : State) (r : Reg) (f g : Fld) (v : Nat) (h : f.lo + f.len ≤ g.lo ∨ g.lo + g.len ≤ f.lo) :
    (s.fset r f v).fget r g = s.fget r g := by
  simp [State.fget, State.fset, Fld.get_set_ne f g _ _ h]
/-- A field of a register at another offset is left. -/
theorem State.fget_fset_ne (s : State) (r q : Reg) (f g : Fld) (v : Nat) (h : q.off ≠ r.off) : (s.fset r f v).fget q g = s.fget q g := by
  simp only [State.fget, State.fset]; rw [State.reg_setReg_ne _ _ _ _ h]
theorem State.reg_fset_ne (s : State) (r q : Reg) (f : Fld) (v : Nat) (h : q.off ≠ r.off) : (s.fset r f v).reg q = s.reg q :=
  State.reg_setReg_ne _ _ _ _ h
/-- The register map stays canonical, entry by entry: writing the reset value removes the entry. -/
theorem State.setReg_sorted (s : State) (r : Reg) (v : Word) (h : s.regs.Pairwise (fun a b => a.1 < b.1)) :
    (s.setReg r v).regs.Pairwise (fun a b => a.1 < b.1) := by
  rw [State.setReg_regs]
  unfold tput
  rw [List.append_assoc, List.pairwise_append]
  refine ⟨h.filter _, ?_, ?_⟩
  · rw [List.pairwise_append]
    refine ⟨by split <;> simp, h.filter _, ?_⟩
    intro a ha b hb; split at ha <;> simp at ha hb; rw [ha]; exact hb.2
  · intro a ha b hb
    simp only [List.mem_append, List.mem_filter, decide_eq_true_eq] at ha hb
    rcases hb with hb | hb
    · split at hb <;> simp at hb; rw [hb]; exact ha.2
    · omega
/-- A register that feeds no level line leaves the interrupt sources alone. -/
theorem State.setReg_irq_of_none (s : State) (r : Reg) (v : Word) (h : lineSrc r = none) : (s.setReg r v).irq = s.irq := by
  unfold State.setReg; rw [h]; rfl
/-- A register write moves at most the line of the source it feeds. -/
theorem State.setReg_src_ne (s : State) (r : Reg) (v : Word) (n : Nat) (h : lineSrc r ≠ some n) : (s.setReg r v).src n = s.src n := by
  unfold State.setReg
  cases hl : lineSrc r with
  | none => rfl
  | some k =>
    have hk : n ≠ k := fun e => h (by rw [hl, e])
    simp [State.src, State.refreshLine, State.putSrc, State.putReg, tget_tput_ne _ _ _ _ _ hk]

/-! Ownership (R465). -/

/-- An owner-only write by the owner or the Steward applies. -/
theorem State.owned_of_mayWrite (s : State) (w : Writer) (f : State → State) (h : s.mayWrite w = true) : s.owned w f = f s := by
  simp [State.owned, h]
/-- An owner-only write by anyone else changes only that port's counters. -/
theorem State.owned_of_not (s : State) (w : Writer) (f : State → State) (h : s.mayWrite w = false) : s.owned w f = s.discard w := by
  simp [State.owned, h]

end Sys2Proof.Machine
end

