-- ==== Sys2Proof/WellFormed.lean ====
section
/-! DEFINITION. The limits of a command that its operand types do not carry. `exec` has a meaning on every command; a host, a partner or
a measurement gives only commands that satisfy `Instr.wf`. -/

namespace Sys2Proof

/-- No entry twice. -/
def distinct {α : Type} [BEq α] : List α → Bool
  | [] => true
  | a :: l => !l.contains a && distinct l

/-- The value of a half access has 32 bits (R7). -/
def accWf (a : Acc) : Bool :=
  match a.size with
  | .full => true
  | _ => decide (a.val.toNat < 4294967296)

/-- A write has 1 to 8 bytes, and no more value than its bytes (R7). -/
def regWriteWf (w : RegWrite) : Bool := decide (1 ≤ w.bytes ∧ w.bytes ≤ 8 ∧ w.val.toNat < 256 ^ w.bytes)

/-- Each crossing has one latency and each skew set one trim (R39, R40), and a spare patch is found bad once (R99). -/
def calWf (c : CalResult) : Bool := distinct (c.trims.map (·.1)) && distinct (c.lats.map (·.1)) && distinct c.badSpares

/-- A boundary brings one measurement of a region, and names a port once in each list. -/
def boundaryWf (b : BoundaryIn) : Bool := distinct (b.meas.map (·.n)) && distinct b.peers && distinct (b.fec.map (·.port))

/-- An access moves at least one byte. -/
def memOpWf : MemOp → Bool
  | .read n => decide (0 < n)
  | .write d => !d.isEmpty

/-- A word has one error, and an error that is corrected inverts no bit that reads (R97, R115). -/
def upsetsWf (l : List Upset) : Bool := distinct (l.map (·.word)) && l.all (fun u => u.ue || u.flip == 0)

/-- A sequencer store carries no more data than its width (R221). -/
def seqMemWf (a : SeqMemOp) : Bool :=
  match a.size with
  | .byte => decide (a.data.toNat < 256)
  | .half => decide (a.data.toNat < 65536)
  | .word => true

/-- A word of a sequencer's memories has one error (R223). -/
def seqFormWf : SeqForm → Bool
  | .rv l => distinct (l.map (fun e => (e.dmem, e.upset.word))) && l.all (fun e => e.upset.ue || e.upset.flip == 0)
  | _ => true

/-- A command within the limits: a packet and a launch packet carry at most 4,096 B (R288, R356), a frame 256 B (R312), a slot is one of
the longest stage's (R315), a mailbox reply has 1 to 256 B (R511), a nonce 32 B (R496). -/
def Instr.wf (i : Instr) : Bool :=
  match i with
  | .vinTurnOn => true
  | .vinTurnOff => true
  | .vinOvervoltage => true
  | .inputCharged => true
  | .railsGood => true
  | .pwrgdRise => true
  | .calibrationComplete c => calWf c
  | .powerLoss => true
  | .converterFail _ => true
  | .sensorOvertemp => true
  | .thermalDiodeTrip => true
  | .thermtripPowerOff => true
  | .page _ => true
  | .voutMode => true
  | .statusWord _ => true
  | .readVin _ => true
  | .readIin _ => true
  | .readVout _ => true
  | .readIout _ => true
  | .readTemperature1 _ => true
  | .readPout _ => true
  | .readPin _ => true
  | .pmbusRevision => true
  | .pmbusRefusedCommand _ _ => true
  | .hostLinkDown _ => true
  | .hostLinkUp _ _ => true
  | .stageBoundary b => boundaryWf b
  | .powerFlag _ => true
  | .powerAbort _ => true
  | .calStale _ => true
  | .stageWorkStart _ => true
  | .stageWorkFinish _ _ => true
  | .overstay _ => true
  | .rateWindowOpen _ => true
  | .rateWindowClose _ => true
  | .xingFillExcursion _ _ => true
  | .frefLoss => true
  | .frefReturn => true
  | .syncTimeout _ => true
  | .holdoverLimitExpire _ => true
  | .rgnBudgetWrite _ a => accWf a
  | .xingFillRead _ _ _ => true
  | .rgnLateRead _ _ _ => true
  | .bankAccess _ a => memOpWf a.op && upsetsWf a.upsets
  | .handover _ _ => true
  | .handoverEffect _ _ => true
  | .scanOp _ _ => true
  | .scanStart _ _ => true
  | .scanEnd _ _ => true
  | .bankOwnWrite _ _ a => accWf a
  | .patchReleaseRequest _ _ a => accWf a
  | .lpddrRequest r => memOpWf r.op && upsetsWf r.upsets
  | .refreshInterval _ => true
  | .refreshWindow _ _ => true
  | .mr4Read _ r => r.readings.length == 9
  | .seqInstruction _ f => seqFormWf f
  | .seqBankLoadStore _ a => seqMemWf a
  | .tilePredicateStore _ _ _ => true
  | .loopCountStore _ _ _ => true
  | .stageEnd _ _ _ => true
  | .openLoop _ _ => true
  | .endLoop _ _ _ => true
  | .breakLoop _ _ _ => true
  | .signalOp _ _ => true
  | .waitOp _ _ _ _ _ => true
  | .waitRelease _ => true
  | .fenceOp _ _ _ _ => true
  | .fenceComplete _ _ => true
  | .tallyWait _ _ => true
  | .engineCommandEnd _ _ _ => true
  | .matmul _ _ _ => true
  | .accstore _ _ _ => true
  | .cvt _ _ _ => true
  | .addOp _ _ _ => true
  | .subOp _ _ _ => true
  | .mulOp _ _ _ => true
  | .fma _ _ _ => true
  | .axpb _ _ _ => true
  | .maxOp _ _ _ => true
  | .minOp _ _ _ => true
  | .absOp _ _ _ => true
  | .negOp _ _ _ => true
  | .selOp _ _ _ => true
  | .cmpgt _ _ _ => true
  | .expOp _ _ _ => true
  | .ln _ _ _ => true
  | .rcp _ _ _ => true
  | .rsqrt _ _ _ => true
  | .sqrt _ _ _ => true
  | .sigmoid _ _ _ => true
  | .tanh _ _ _ => true
  | .silu _ _ _ => true
  | .gelu _ _ _ => true
  | .swiglu _ _ _ => true
  | .iadd _ _ _ => true
  | .isub _ _ _ => true
  | .imul _ _ _ => true
  | .imin _ _ _ => true
  | .imax _ _ _ => true
  | .iand _ _ _ => true
  | .ior _ _ _ => true
  | .ixor _ _ _ => true
  | .ishl _ _ _ => true
  | .ishr _ _ _ => true
  | .iota _ _ _ => true
  | .rsum _ _ _ => true
  | .rsumsq _ _ _ => true
  | .rdot _ _ _ => true
  | .rmax _ _ _ => true
  | .rmin _ _ _ => true
  | .rargmax _ _ _ => true
  | .softmax _ _ _ => true
  | .rmsnorm _ _ _ => true
  | .layernorm _ _ _ => true
  | .gather _ _ _ => true
  | .sample _ _ _ => true
  | .merge _ _ _ => true
  | .tallyWrite _ _ a => accWf a
  | .copyOp _ _ => true
  | .getOp _ _ => true
  | .putOp _ _ => true
  | .setOp _ _ => true
  | .clearOp _ _ => true
  | .parity _ _ => true
  | .dmaBurst _ => true
  | .descriptorEnd _ => true
  | .completionRingResume _ => true
  | .pcieReadError _ _ => true
  | .idmaRun _ _ a => accWf a
  | .idmaStop _ _ a => accWf a
  | .idmaShareWrite _ _ a => accWf a
  | .idmaRingsWrite _ _ a => accWf a
  | .getRequestPacket _ k => decide (k.payload.length ≤ 4096)
  | .getDataPacket _ k => decide (k.payload.length ≤ 4096)
  | .putPacket _ k => decide (k.payload.length ≤ 4096)
  | .setPacket _ k => decide (k.payload.length ≤ 4096)
  | .clearPacket _ k => decide (k.payload.length ≤ 4096)
  | .ackPacket _ k => decide (k.payload.length ≤ 4096)
  | .nackPacket _ k => decide (k.payload.length ≤ 4096)
  | .reservedOpcPacket _ k => decide (k.payload.length ≤ 4096)
  | .landingBufferResume _ => true
  | .slotSend _ t => decide (t.slot.toNat < 2844)
  | .idleFrame _ f => f.body.length == 256
  | .dataFrame _ f => f.body.length == 256
  | .controlFrame _ f _ => f.body.length == 256
  | .probeFrame _ f _ => f.body.length == 256
  | .calFrame _ f _ => f.body.length == 256
  | .initFrame _ f => f.body.length == 256
  | .reservedKindFrame _ f => f.body.length == 256
  | .parcelConsume _ => true
  | .controlFrameTimer _ => true
  | .replayTimerExpire _ _ => true
  | .creditTimeout _ => true
  | .laneLockLoss _ _ => true
  | .laneLockRegain _ _ => true
  | .trainingComplete _ => true
  | .probeInterval _ => true
  | .calInterval _ => true
  | .vblEnable _ a => accWf a
  | .vblDisable _ a => accWf a
  | .vblCatchupRead _ _ _ => true
  | .routeTableWrite _ a => accWf a
  | .launchData _ k => decide (k.data.length ≤ 4096)
  | .launchHeartbeat _ k => decide (k.data.length ≤ 4096)
  | .graftReq _ k => decide (k.data.length ≤ 4096)
  | .graftAck _ k => decide (k.data.length ≤ 4096)
  | .graftNak _ k => decide (k.data.length ≤ 4096)
  | .launchDone _ k => decide (k.data.length ≤ 4096)
  | .heartbeatTimer _ => true
  | .silenceTimeout => true
  | .graftTimeout => true
  | .rootSendPacket => true
  | .doneTimerExpire => true
  | .rlyFeedWrite a => accWf a
  | .relayEnable a => accWf a
  | .relayDisable a => accWf a
  | .syncMessage _ k _ => decide (k.payload.length ≤ 4096)
  | .followUpMessage _ k _ => decide (k.payload.length ≤ 4096)
  | .delayReqSend _ _ => true
  | .delayRespMessage _ k _ => decide (k.payload.length ≤ 4096)
  | .announceMessage _ k => decide (k.payload.length ≤ 4096)
  | .ptpDiscardedMessage _ k => decide (k.payload.length ≤ 4096)
  | .ftStepWrite a _ => accWf a
  | .resetTime a => accWf a
  | .clientEnable a _ => accWf a
  | .ftRateWrite a _ => accWf a
  | .steeringWatchdogExpire _ => true
  | .ftNowNsRead _ _ _ => true
  | .ringCfgWrite _ a => accWf a
  | .ringConsWrite _ a => accWf a
  | .doorbellWrite _ a => accWf a
  | .nop _ => true
  | .submit _ _ => true
  | .aduReservedOpcode _ _ => true
  | .wsSwitch _ _ => true
  | .adSwitch _ _ => true
  | .adClear _ _ => true
  | .lpRegister _ _ => true
  | .lpRelease _ _ => true
  | .spRegister _ _ => true
  | .spCapture _ _ => true
  | .spRelease _ _ => true
  | .eventRingResume => true
  | .aduCancelWrite _ a => accWf a
  | .immediateClearLand _ seats => distinct seats
  | .acctBalWrite _ a => accWf a
  | .acctCfgWrite _ a => accWf a
  | .mirrorBinding _ k => decide (k.payload.length ≤ 4096)
  | .mirrorSelector _ k => decide (k.payload.length ≤ 4096)
  | .mirrorEndNotice _ k => decide (k.payload.length ≤ 4096)
  | .mirrorImmediateClear _ k => decide (k.payload.length ≤ 4096)
  | .kvPoolRead _ _ => true
  | .ownClaim a => accWf a
  | .ownRequest a => accWf a
  | .ownHandover a => accWf a
  | .ownLapseWrite a => accWf a
  | .ownershipLapse _ => true
  | .aperWinWrite _ a => accWf a
  | .apertureRead _ _ len => decide (0 < len)
  | .apertureWrite _ _ data => !data.isEmpty
  | .msixPendingSend _ _ => true
  | .registerWrite w => regWriteWf w
  | .loadFirmware a => accWf a
  | .loadStructure a => accWf a
  | .loadPlan a => accWf a
  | .loadCert a => accWf a
  | .unload a => accWf a
  | .loadRefusedKind a => accWf a
  | .loadEnd => true
  | .firmwareReady l => distinct (l.map (·.1))
  | .firmwareReadyTimeout => true
  | .getVersion _ => true
  | .getCapabilities _ => true
  | .negotiateAlgorithms _ => true
  | .getDigests _ => true
  | .getCertificate _ _ _ _ => true
  | .challenge _ _ nonce => nonce.length == 32
  | .getMeasurements _ _ signed nonce => nonce.length == (if signed then 32 else 0)
  | .mctpControl _ _ => true
  | .coreClaim _ => true
  | .coreComplete _ _ => true
  | .intSet a => accWf a
  | .intSrcWrite _ a => accWf a
  | .forwardSend _ => true
  | .mbRequest a => accWf a
  | .mbReply _ reply => decide (1 ≤ reply.length ∧ reply.length ≤ 256)
  | .telemetryIntervalEnd => true
  | .telemetryRecordWrite => true
  | .stewardMemoryUe u => decide (u.word < 262144) && upsetsWf [u]
  | .resume a => accWf a
  | .resumeCheckEnd => true
  | .lockstepSummary _ k => decide (k.payload.length ≤ 4096)
  | .lockstepSignatures _ k => decide (k.payload.length ≤ 4096)
  | .lockstepTimeout _ => true
  | .fenceOrder _ k => decide (k.payload.length ≤ 4096)
  | .fenceSubmit a => accWf a
  | .fenceCheckEnd => true
  | .registerReadRequest _ k => decide (k.payload.length ≤ 4096)
  | .managementDiscard _ k => decide (k.payload.length ≤ 4096)
  | .pwrgdFall => true
  | .junctionTemperatureReturn => true
  | .xingFillReturn _ _ => true
  | .launchReservedKind _ k => decide (k.data.length ≤ 4096)

end Sys2Proof
end

