-- ==== Sys2Proof/Tests/Slice0.lean ====
section
/-! SUPPORT. Tests of the model: the witnesses of the statements, the limits of a command, and the worked examples of the spec. A witness
of a statement names, for each of its clauses, a state and operands that meet all the clause's premises together; each line is one
clause, in the statement's order. -/

namespace Sys2Proof.Tests
open Sys2Proof.Machine

set_option maxRecDepth 20000
set_option Elab.async false

/-! States that the witnesses share. -/

def upBoot (n : Nat) (s : State := State.reset) : State := s.fset .BOOT_STATE BOOT_STATE.STATE n
def own0 (s : State) : State := s.fset .OWN_STATUS OWN_STATUS.OWNED 1
def linkOn (p : Fin 2) (s : State) : State := s.fset (.HP_STATUS p) HP_STATUS.LINK_UP 1
def base4 : State := (linkOn 1 (linkOn 0 (own0 (upBoot 4)))).fset .STW_STATUS STW_STATUS.RUNNING 0xF
def planA : Plan := { lenCode := 2, tallyLimit := 3, ltCount := 2, regions := [⟨100, 4, 1, 0⟩], power := [[30, 20]], streams := [⟨0, 0, [], []⟩] }
def imgA : Image := { masks := [1], tileMap := [0, 1], roles := [1,1,0,1], aduOff := 0x100000 }
def planS (v : Nat) (s : State := base4) : State :=
  ({ s with img := imgA, parts := [(0, { plan := some planA })], time := { s.time with epochSet := true, arrived := true } }).setPstate 0 v
def hdr0 : CmdHdr :=
    {waitEn := false, waitT := 0, waitV := 0, sig0En := false, sig0T := 0, sig1En := false, sig1T := 0, predKind := 0, predNeg := false, predIdx := 0}
def hdr1 : CmdHdr := { hdr0 with sig0En := true, sig1En := true, sig1T := 63, waitEn := true, waitV := 5 }
def mo0 : MatmulOps :=
    {acc := 1, accRow := 7, init := false, a := 0, aFmt := 8, aStride := 0, aScale := 0, aSstride := 0, aIdx := false, b := 4096, bFmt := 8, bScale := 0, m := 1, n := 5, k := 70}
def ao0 : AccstoreOps :=
    {acc := 1, accRow := 7, accFmt := 11, m := 1, n := 5, d := 0x100064, dStride := 0, dFmt := 11, dScale := 0, dSstride := 0, rmode := 0, sat := false, site := 0, rowbind := 0, bind := 0}
def vo (s1 s2 s3 d : Nat) (fs fd : BitVec 4) (n : Nat) (i0 i1 : BitVec 32) : VecOps :=
    {d := BitVec.ofNat 32 d, s1 := BitVec.ofNat 32 s1, s2 := BitVec.ofNat 32 s2, s3 := BitVec.ofNat 32 s3, dFmt := fd, s1Fmt := fs, s2Fmt := fs, s3Fmt := fs, dEstride := 1, s1Estride := 1, s2Estride := 1, s3Estride := 1, dRstride := 0, s1Rstride := 0, s2Rstride := 0, s3Rstride := 0, s1Idx := false, s1Scale := 0, dScale := 0, s1Sstride := 0, dSstride := 0, count := BitVec.ofNat 14 n, rows := 1, imm0 := i0, imm1 := i1, lim := false, limits := 0, rmode := 0, sat := false, site := 0, rowbind := 0, bind := 0}
def vo0 : VecOps := vo 0x200000 0x200040 0x200080 0x300028 0 0 6 0x3F800000 0x40000000
def de0 : Desc :=
    { src := 0x400000000000, dst := 0x400000001000, len := 64, srcKind := 1, dstKind := 1, crec := false, paged := false, pageSide := false, pgLog2 := 0, tag := 0, pgTable := 0, pgCount := 0, notBefore := 0, qdst := 0x400000002000, shards := 2, pq := 3, rsvd0 := 0, shStride := 128, rsvd1 := 0, planned := none }
def qi (b : QBody) : QItem := { stage := 0, pred := false, body := b }
def ring (n t : Nat) (es : Nat) (prod cons : Nat) (s : State) : State :=
  let f := fun (s : State) (x : Fld × Nat) => s.fset (.RING_CFG n) x.1 x.2
([(RING_CFG.TYPE, t), (RING_CFG.LOG2, 2), (RING_CFG.ESIZE, es), (RING_CFG.KIND, 1), (RING_CFG.ENABLE, 1)].foldl f s).setReg (.RING_IDX
    n) (RING_IDX.CONS.set (RING_IDX.PROD.set 0 prod) cons)
def route6 (s : State) : State :=
  let s := (s.fset .ROUTE_SELF ROUTE_SELF.SELF_VALID 1)
  let s := ((s.fset (.ROUTE_DEST 6) ROUTE_DEST.VALID 1).fset (.VBL_STATUS 0) VBL_STATUS.STATE 3).fset (.VBL_STATUS 0) VBL_STATUS.LANE_LOCK 15
  s.modPort 0 (fun t => { t with usable := true, partner := some 9 })
def ioS (s : State := base4) : State :=
  let s := ring 2 3 0 1 0 (ring 1 5 2 2 1 (route6 s))
  let s := (s.fset (.IDMA_RINGS 0 0) IDMA_RINGS.DRING 1).fset (.IDMA_RINGS 0 0) IDMA_RINGS.CRING 2
  let s := (s.fset (.IDMA_CTRL 0 0) IDMA_CTRL.RUN 1).fset (.IDMA_CTRL 0 0) IDMA_CTRL.SHARE 8
  { s with idma := [(0, { share := 8, seq := 5 })], dram := memWrite [] 0 ((List.range 300).map (fun i => BitVec.ofNat 8 (i*37+11))) }
def hdrP (opc : Byte) (ga : Word) (len : BitVec 16) (iss : BitVec 16) (seq : BitVec 32) : PktHdr :=
    { ga := ga, reply := 0x0006400000000100, src := 6, opc := opc, flags := 0, length := len, issuer := iss, seq := seq, land_ := 0 }
def vecArgmax : VecOps := vo 0x200000 0x200040 0x200080 0x300028 0 11 6 0x3F800000 0x40000000
def vecCvt : VecOps := vo 0x200000 0x200040 0x200080 0x300028 0 1 6 0x3F800000 0x40000000
def vecGather : VecOps := { vo 0x200000 0x200040 0x200080 0x300028 0 0 6 0x00000006 0x40000000 with s2Fmt := 11 }
def vecInt : VecOps := vo 0x200000 0x200040 0x200080 0x300028 11 11 6 0x3F800000 0x40000000
def matmulRow : MatmulOps := { mo0 with a := 0, b := 0x1000, n := 128, k := 70 }
def accstoreRow : AccstoreOps := { ao0 with n := 128, d := 0x100064 }

namespace Supply
/-! Witnesses of the supply and its controller. -/

def ph (p : PwrPhase) (trip hot : Bool) (pg : Byte) : State := let s := if p = .up then State.reset.setReg .TEL_IDX 5 else State.reset;
    { s with pwr := { s.pwr with phase := p, thermtrip := trip, hot := hot, page := pg, cml := hot, convOff := if trip then 3 else 0 } }

theorem witness_StepRunsFrontCommand : (
      decide (({ State.reset with pending := [.frefLoss, .frefReturn] } : State).pending = [.frefLoss, .frefReturn])
    && decide (State.reset.pending = [])) = true := by decide +kernel

theorem witness_NoEffectWithoutPower : (
      decide (onController .frefLoss = false ∧ (ph .released false false 0).alive = false)
    && decide (onController .frefReturn = false ∧ (ph .off true true 0).alive = false)) = true := by decide +kernel

/-- Of `Obligations.SupplyEvents`. -/
theorem witness_StartUpOrder : (
      (fun (s : State) => decide ((s.pwr.phase = .released) ∧ (s.pwr.thermtrip = false))) (ph PwrPhase.released false false 0)
    && (fun (s : State) => decide (((s.pwr.phase ≠ .released ∨ s.pwr.thermtrip = true)))) (ph PwrPhase.off false false 0)) = true := by decide +kernel

theorem witness_ThermalOncePerPassage : (
      (fun (s : State) => decide ((s.alive = true) ∧ (s.pwr.hot = false))) (ph PwrPhase.up false false 0)
    && (fun (s : State) => decide ((s.alive = true) ∧ (s.pwr.hot = true))) (ph PwrPhase.up false true 0)) = true := by decide +kernel

/-- Of `Obligations.SupplyEvents`. -/
theorem witness_TripAndConverter : (
      (fun (s : State) => decide ((s.pwr.thermtrip = false) ∧ (s.alive = true))) (ph PwrPhase.up false false 0)
    && (fun (s : State) => decide (((s.pwr.thermtrip = true ∨ s.pwr.phase = .off)))) (ph PwrPhase.off false false 0)) = true := by decide +kernel

theorem witness_PmbusCommands : (
      (fun (s : State) => decide ((s.pwr.phase ≠ .off))) (ph PwrPhase.charging false false 0)) = true := by decide +kernel

/-- Of `Obligations.PmbusCommands`. -/
theorem witness_StatusWordBits : (
      (fun i => decide ((i ∉ [15, 13, 11, 6, 3, 2, 1]))) (0)) = true := by decide +kernel

theorem witness_StateLostWithPower : State.reset.Inv ∧ step State.reset = .next State.reset := ⟨fun h => absurd rfl h, rfl⟩

end Supply

namespace Registers
/-! Witnesses of registers, ownership and faults. -/

def a : State := upBoot 4
def b : State := linkOn 0 (own0 a)
def c : State := linkOn 1 b
/-- The owner's link has been down for exactly 2 s, when `more` is 0. -/
def lp (more : Nat) : State :=
  let s := own0 (linkOn 1 (a.setReg .OWN_REQUEST 77))
  { s with lapseFrom := some 3, lapseMs := 2000, time := { s.time with base := 3 + 2000 * 1000000 * 2 ^ 32 + more - 1 } }
/-- A C384 module whose tiles 3 of each region are fused. -/
def fused : State := { b with fuses := { b.fuses with ports := 0x0FFF, tiles := List.replicate 8 0xF7F7F7F7F7F7F7F7 } }
def m2 : State := c.modHost 0 (fun h => { h with pba := [0, 2047], msixEn := true, msix := [(1, 0)] })
def w : State := (c.setReg (.APER_WIN 0) (APER_WIN.ENABLE.set (APER_WIN.SIZE_LOG2.set (APER_WIN.BASE.set 0 (2^26)) 20) 1)).setReg .HOLD_LIMIT 7
def p : State := { c with parts := [(0, { start := 3 })], rgns := [(0, { next := 2 })] }
def run0 : State := ({ c with parts := [(0, {}), (1, {haltAt := some 9, fstage := some 4}), (2, {haltAt := some 1})] }.setPstate 0 2).setPstate 1 2
def run : State := (run0.setPstate 2 2).setReg .STG_COUNT 5

theorem witness_WriteByFieldKind : (
      (fun (i : RegInfo) (b : Nat) => decide ((b < 64) ∧ (i.rw &&& (i.w1c ||| i.w1s) = 0) ∧ (i.w1c &&& i.w1s = 0)))
      ({ reset := 0x0000000000000000#64, rw := 0x00000000000000ff#64, w1c := 0x000000f000000f00#64, w1s := 0x00f000000000f000#64 }) 63) = true := by decide +kernel

/-- The part of a register that a write addresses, as the statement has it. -/
def part (w : RegWrite) : Option Sz :=
  if w.bytes = 8 ∧ w.off.toNat % 8 = 0 then some .full else if w.bytes = 4 ∧ w.off.toNat % 8 = 0 then some .lo
  else if w.bytes = 4 ∧ w.off.toNat % 8 = 4 then some .hi else none
/-- Of `Obligations.WriteByFieldKind`: a register of each kind that the statement names, the last of its block. -/
theorem witness_PlainRegisterWrite : (
      [(Reg.BANK_EVENT 511, Sz.full), (.TALLY_LIMIT 511, .lo), (.IDMA_EVENT 3, .lo), (.DR_ECC 3, .hi), (.RGN_STATUS 63, .full), (.FT_SERVO, .lo)].all
        (fun (q, z) => let w : RegWrite := ⟨.host 0, BitVec.ofNat 26 (q.off + if z = .hi then 4 else 0), if z = .full then 8 else 4, 5, { ns := 1, frac := 7 }⟩
          decide (b.alive = true ∧ (b.fresh.advance w.at_).isSome = true ∧ b.mayWrite w.by_ = true ∧ q.off = w.off.toNat / 8 * 8
            ∧ Reg.ofOff q.off = some q ∧ b.regAbsent q = false ∧ part w = some z))
    && [⟨.host 0, 0x200, 2, 5, { ns := 0, frac := 0 }⟩, ⟨.host 0, 0x202, 4, 5, { ns := 0, frac := 0 }⟩, ⟨.host 0, 0x204, 8, 5, { ns := 0, frac := 0 }⟩].all
        (fun (w : RegWrite) => decide (b.alive = true ∧ (b.fresh.advance w.at_).isSome = true ∧ b.mayWrite w.by_ = true ∧ part w = none))
    && (fun (w : RegWrite) => decide (b.alive = true ∧ (b.fresh.advance w.at_).isSome = true ∧ b.mayWrite w.by_ = true ∧ Reg.ofOff (w.off.toNat / 8 * 8) = none))
      ⟨.host 0, 0x3FFFFF8, 8, 5, { ns := 0, frac := 0 }⟩
    && [Reg.TALLY_LIMIT 3, .VBL_TIMERS 12].all (fun q => let w : RegWrite := ⟨.host 0, BitVec.ofNat 26 q.off, 8, 5, { ns := 0, frac := 0 }⟩
        decide (fused.alive = true ∧ (fused.fresh.advance w.at_).isSome = true ∧ fused.mayWrite w.by_ = true
          ∧ Reg.ofOff (w.off.toNat / 8 * 8) = some q ∧ fused.regAbsent q = true))
    && (fun (q : Reg) => let w : RegWrite := ⟨.host 1, BitVec.ofNat 26 q.off, 8, 5, { ns := 0, frac := 0 }⟩
        decide (b.alive = true ∧ (b.fresh.advance w.at_).isSome = true ∧ b.owner ≠ some 1 ∧ q.off = w.off.toNat / 8 * 8 ∧ Reg.ofOff q.off = some q))
      .BOOT_ADDR) = true := by decide +kernel

theorem witness_NonOwnerWritesDiscarded : (
      decide (b.alive = true ∧ b.owner ≠ some 1)
    && decide (a.alive = true ∧ a.owner ≠ some 0)) = true := by decide +kernel

theorem witness_FaultIsLogged : (
      [0, 0x18, 0xFF].all (fun c => decide (c = 0 ∨ 0x17 < c))
    && [1, 0x17].all (fun c => (fun (s : State) (r : Raise) i k => decide ((1 ≤ r.code) ∧ (r.code ≤ 0x17) ∧ (r.cls < 3) ∧ (r.origin < 16) ∧ (r.agent < 16) ∧
      let e := (s.reg .FLT_LOG_IDX).toNat; (i < 256) ∧ (i ≠ e % 256) ∧ (k < 4)))
      (State.reset) ({ code := c, cls := 2, origin := 15, id := 0, agent := 15, addr := 0, fstage := none, parts := [] }) (255) (3))) = true := by decide +kernel

/-- Of `Obligations.HaltAndPin`. -/
theorem witness_FaultHaltsPartition : (
      (fun (s : State) (r : Raise) (p : Nat) => decide ((1 ≤ r.code) ∧ (r.code ≤ 0x17) ∧ (r.cls = 1) ∧ (r.parts.Nodup) ∧ (p < 8) ∧ ((p ∈ r.parts ∧ s.pstate p = pRUNNING))))
      (run) ({ code := 17, cls := 1, origin := 4, id := 0, agent := 0, addr := 0, fstage := none, parts := [0, 1] }) (0)
    && (fun (s : State) (r : Raise) (p : Nat) => decide ((1 ≤ r.code) ∧ (r.code ≤ 0x17) ∧ (r.cls = 1) ∧ (r.parts.Nodup) ∧ (p < 8) ∧ ((p ∉ r.parts ∨ s.pstate p ≠ pRUNNING))))
      (State.reset) ({ code := 17, cls := 1, origin := 4, id := 0, agent := 0, addr := 0, fstage := none, parts := [0, 1] }) (0)) = true := by decide +kernel

theorem witness_OwnershipChanges : (
      (fun (s : State) (v : Word) => decide ((s.alive = true) ∧ (s.owner = none) ∧ (v ≠ 0))) (State.reset) (0x0000000000000001#64)
    && (fun (s : State) (v : Word) => decide ((s.alive = true) ∧ (s.owner ≠ none ∨ v = 0))) (State.reset) (0x0000000000000000#64)
    && (fun (s : State) (z : Sz) => decide ((s.alive = true) ∧ (z ≠ .full))) (State.reset) (Sz.lo)
    && (fun (s : State) (o p : HostPort) (v n : Word) => decide ((s.alive = true) ∧ (s.owner = some o.val) ∧ (o ≠ p) ∧
      (s.reg .OWN_REQUEST = n) ∧ (n ≠ 0) ∧ (s.linkUp p.val = true) ∧ (OWN_HANDOVER.TO.get v = p.val)))
      ((linkOn 1 b).setReg .OWN_REQUEST 5) (0) (1) (0x0000000000000001#64) (0x0000000000000005#64)
    && (fun (s : State) (o : HostPort) (v : Word) => decide ((s.alive = true) ∧ (s.owner = some o.val) ∧
      ((OWN_HANDOVER.TO.get v = o.val ∨ s.reg .OWN_REQUEST = 0 ∨ s.linkUp (OWN_HANDOVER.TO.get v) = false))))
      (b) (0) (0x0000000000000000#64)
    && (fun (s : State) (o p : HostPort) => decide ((s.alive = true) ∧ (s.owner = some o.val) ∧ (o ≠ p))) (b) (0) (1)
    && (fun (s : State) (o : HostPort) (v : Word) => decide ((s.alive = true) ∧ (s.owner = some o.val) ∧ (v ≠ 0))) (b) (0) (1)
    && (fun (s : State) => decide ((s.alive = true) ∧ (s.owner = none))) (State.reset)
    && (fun (s : State) (o : HostPort) (x : TimeIn) => (s.fresh.advance x).any (fun r =>
      let due := s.lapseFrom.any (fun b => s.lapseMs.toNat * 1000000 * 2 ^ 32 ≤ r.time.base - b);
      decide ((s.alive = true) ∧ (s.owner = some o.val) ∧ (s.linkUp o.val = false) ∧ due))) (lp 0) (0) { ns := 0, frac := 1 }
    && (fun (s : State) (x : TimeIn) => (s.fresh.advance x).any (fun r =>
      let due := s.lapseFrom.any (fun b => s.lapseMs.toNat * 1000000 * 2 ^ 32 ≤ r.time.base - b); decide ((s.alive = true) ∧ ¬ due))) (lp 0) { ns := 0, frac := 0 }
    && (fun (s : State) (x : TimeIn) => decide ((s.alive = true) ∧ ((s.fresh.advance x).isSome = true) ∧ (s.owner = none))) (State.reset) { ns := 2047, frac := 5 }
    && (fun (s : State) (x : TimeIn) => decide ((s.alive = true) ∧ ((s.fresh.advance x).isSome = true) ∧ (s.owner.any s.linkUp = true))) b { ns := 2047, frac := 5 }) = true := by decide +kernel

theorem witness_HostLink : (
      (fun (s : State) (p : HostPort) => decide ((s.alive = true) ∧ (s.linkUp p.val = true) ∧
      ((∀ ch ∈ List.range 32, (tget {} s.idma (p.val * 32 + ch)).cur = none)))) (b) (0)
    && (fun (s : State) (p : HostPort) => decide ((s.alive = true) ∧ (s.linkUp p.val = false))) (State.reset) (0)) = true := by decide +kernel

/-- Of `Obligations.HostLink`. -/
theorem witness_MsixPendingGoesOut : (
      (fun (s : State) (p : HostPort) (v : MsixVec) => decide ((s.alive = true) ∧
      let masked := (tget 0x100000000 (s.host p.val).msix (2 * v.val + 1)).toNat.testBit 32; (v.val ∈ (s.host p.val).pba) ∧
      (s.linkUp p.val = true) ∧ (masked = false))) (m2) (0) (0)
    && (fun (s : State) (p : HostPort) (v : MsixVec) => decide ((s.alive = true) ∧
      let masked := (tget 0x100000000 (s.host p.val).msix (2 * v.val + 1)).toNat.testBit 32;
      ((v.val ∉ (s.host p.val).pba ∨ s.linkUp p.val = false ∨ masked = true)))) (State.reset) (0) (0)) = true := by decide +kernel

theorem witness_Aperture : (
      (fun (s : State) (off : AperOff) => decide ((s.alive = true) ∧ (s.boot_ ≠ 0) ∧ (s.aperGa off.toNat = none))) (a) (0x0000000000#38)
    && (fun (s : State) (p : HostPort) (off : AperOff) => decide ((s.alive = true) ∧ (s.boot_ ≠ 0) ∧ (s.owner = some p.val) ∧
      (s.aperGa off.toNat = none))) (b) (0) (0x0000000000#38)
    && (fun (s : State) (off : AperOff) (ga len : Nat) => decide ((s.alive = true) ∧ (s.boot_ ≠ 0) ∧ (s.aperGa off.toNat = some ga) ∧
      (gaSpace ga = 1) ∧ (gaZeros ga = true) ∧ (gaDram ga + len ≤ dramSize) ∧ (badIn s.dramBad (gaDram ga) len = [])))
      (w) (0x0000000000#38) (70368744177664) (0)
    && (fun (s : State) (p : HostPort) (off : AperOff) (ga : Nat) (d : Bytes) => decide ((s.alive = true) ∧ (s.boot_ ≠ 0) ∧
      (s.owner = some p.val) ∧ (s.aperGa off.toNat = some ga) ∧ (gaSpace ga = 1) ∧ (gaZeros ga = true) ∧
      (gaDram ga + d.length ≤ dramSize) ∧ (s.dramBad = []))) (w) (0) (0x0000000000#38) (70368744177664) ([])
    && (fun (s : State) (p : HostPort) => decide ((s.alive = true) ∧ (s.boot_ ≠ 0) ∧ (s.owner = some p.val))) (b) (0)) = true := by decide +kernel

end Registers

namespace Stages
/-! Witnesses of stages, regions and fabric time. -/

def r : State := planS 2
def at5 : State := r.setReg .STG_COUNT 5
def busy : State := at5.modRgn 0 (fun q => { q with next := 5, finished := false })
def late : State := (busy.modTile 0 (fun t => { t with issue := 9 })).setReg (.RGN_LATE 0) (RGN_LATE.STAGES.set (RGN_LATE.MAX_NS.set 0 99) 2)
def past : State := (planS 2).setReg .STG_COUNT 20 |>.modRgn 0 (fun q => { q with next := 3, finished := false, s0 := some 2 })
def hot : State := (r.fset (.RGN_POWER 0) RGN_POWER.EXCESS_RUN 5 |>.modRgn 0 (fun q =>
    { q with budget := 100, calAge := 4096, quiesce := true })).setReg (.RGN_BUDGET 0) 25
def xg : State := base4.setReg (.XING_FILL 0) (XING_FILL.MAX.set (XING_FILL.MIN.set (XING_FILL.FILL.set 0 15) 3) 15)
def ts : State := base4.fset .FT_STATUS FT_STATUS.TIME_SET 1
def fr : State := ts.fset .STG_STATUS STG_STATUS.FREF_OK 1
def cl : State := (fr.fset .FT_CTRL FT_CTRL.CLIENT_EN 1).fset (.VBL_STATUS 0) VBL_STATUS.STATE 3
/-- A state so much later on the time base. -/
def later (d : Nat) (s : State) : State := { s with time := { s.time with base := s.time.base + d } }
/-- A holdover that began at the start of the time base. -/
def hold : State := let s := fr.fset .STG_STATUS STG_STATUS.HOLDOVER 1; { s with time := { s.time with holdFrom := some 0 } }
/-- An exchange with its four times. -/
def ex4 (x : Exchange) (l : List (BitVec 16 × Ts)) : State := ({ cl with time := { cl.time with ex := x } }).modPort 0 (fun t => { t with tsq := l })
def times : Exchange := { syncSeq := some 3, t1 := some 65536000, t2 := some 131072000, reqSeq := some 3, t4 := some 131072001 }
/-- A time packet whose message has a type and a sequenceId. -/
def ptpPkt (kind : Byte) (seqId : Byte) : Packet :=
  let n := ptpLen kind.toNat
  { hdr := { ga := 0x0000400000000001, reply := 0, src := 6, opc := 8, flags := 0, length := BitVec.ofNat 16 n, issuer := 0, seq := 0, land_ := 0 }
    payload := [kind, 0x12, 0, BitVec.ofNat 8 n, 0, 0, 2, 0] ++ List.replicate 23 0 ++ [seqId] ++ List.replicate (n - 32) 0 }
def sv : State := cl.fset .FT_STATUS FT_STATUS.MODE 1
def fr1 : State := cl.setReg .FT_MASTER 1
def s0 : State := base4
def pre : State := { planS 1 with time := { base4.time with epochSet := true, ns := 5 } }

theorem witness_StageBoundary : (
      (fun (s : State) => decide ((s.alive = true) ∧ (s.time.epochSet = false))) (State.reset)
    && (fun (s : State) => decide ((s.alive = true) ∧ (s.time.epochSet = true) ∧ (s.time.arrived = true))) (r)
    && (fun (s : State) => decide ((s.alive = true) ∧ (s.time.epochSet = true) ∧ (s.time.arrived = false))) (pre.setReg .FT_EPOCH 2048)) = true := by decide +kernel

theorem witness_RegionMonitors : (
      (fun (n : Nat) (m : RegionMeas) c => decide ((n < 64) ∧ (m.cal = some c)))
      (0) ({ n := 0, power := 10, pace := 0x0007#16, cal := some 0x0009#16, landMargin := none, waits := { queue := 1, wait := 2, fence := 3, owner := 4, engine := 5, landing := 6, quiesce := 7 } }) (0x0009#16)
    && (fun (n : Nat) (m : RegionMeas) => decide ((n < 64) ∧ (m.cal = none)))
      (0) ({ n := 0, power := 3000, pace := 0x0007#16, cal := none, landMargin := some 5, waits := { queue := 1, wait := 2, fence := 3, owner := 4, engine := 5, landing := 6, quiesce := 7 } })
    && (fun (n : Nat) k => decide ((n < 64) ∧ (k ≠ n))) (0) (1)) = true := by decide +kernel

/-- Of `Obligations.RegionMonitors`. -/
theorem witness_BudgetWrite : (
      (fun (s : State) (a : Acc) => decide ((s.alive = true) ∧ (s.mayWrite a.by_ = true)))
      (base4) ({ by_ := Writer.host 0, size := Sz.full, val := 0x0000000000000000#64 })) = true := by decide +kernel

/-- Of `Obligations.RegionMonitors`. -/
theorem witness_PowerAndCalibrationEvents : (
      (fun (s : State) => decide ((s.alive = true))) (State.reset)) = true := by decide +kernel

theorem witness_WorkOfAStage : (
      (fun (s : State) (n : Rgn) => decide ((s.alive = true) ∧ let r := s.rgn n; (r.mirrorHeld = false) ∧
      ((s.rgnRuns n = false ∨ r.finished = false ∨ s.stage < r.next)))) (State.reset) (0)
    && (fun (s : State) (n : Rgn) => decide ((s.alive = true) ∧ let r := s.rgn n; (s.rgnRuns n = true) ∧ (r.finished = true) ∧
      (r.next ≤ s.stage) ∧ (r.mirrorHeld = false) ∧ (s.mirrorWaits n r.next = false))) (r) (0)
    && (fun (s : State) (n : Rgn) ns => decide ((s.alive = true) ∧ let r := s.rgn n; (s.rgnRuns n = true) ∧ (r.finished = false) ∧
      (ns ≤ s.stageNs) ∧ ((s.rgnTiles n).all (fun g => s.tileDone g (r.next - 1)) = true))) (late) (0) (0)
    && (fun (s : State) (n : Rgn) ns => decide ((s.alive = true) ∧ let r := s.rgn n;
      ((s.rgnRuns n = false ∨ r.finished = true ∨ s.stageNs < ns ∨ (s.rgnTiles n).all (fun g => s.tileDone g (r.next - 1)) = false))))
      (State.reset) (0) (0)
    && (fun (s : State) (n : Rgn) e => decide ((s.alive = true) ∧ let r := s.rgn n; (r.s0 = some e) ∧ (s.rgnRuns n = true) ∧
      (e + s.rgnH n < s.stage) ∧ (s.rgnDone n (e + s.rgnH n) = false) ∧ (r.overRaised = false))) (past) (0) (2)
    && (fun (s : State) (n : Rgn) => decide ((s.alive = true) ∧ let r := s.rgn n;
      ((∀ e, r.s0 = some e → s.rgnRuns n = false ∨ s.stage ≤ e + s.rgnH n ∨ s.rgnDone n (e + s.rgnH n) = true ∨ r.overRaised = true))))
      (State.reset) (0)) = true := by decide +kernel

/-- Of `Obligations.WorkOfAStage`. -/
theorem witness_Lateness : (
      (fun (margin : Int) => decide ((margin < 0))) (-3)
    && (fun (margin : Int) => decide ((0 ≤ margin))) (0)
    && (fun (n : Nat) k => decide ((k ≠ n))) (0) (1)) = true := by decide +kernel

theorem witness_RateWindow : (
      (fun (s : State) => decide ((s.alive = true))) (State.reset)) = true := by decide +kernel

/-- Of `Obligations.RateWindow`. -/
theorem witness_RateWindowCloses : (
      (fun (s : State) (n : Rgn) => decide ((s.alive = true) ∧ ((s.rgn n).quiesce = true))) (hot) (0)
    && (fun (s : State) (n : Rgn) => decide ((s.alive = true) ∧ ((s.rgn n).quiesce = false))) (State.reset) (0)) = true := by decide +kernel

theorem witness_CrossingsAndReads : (
      (fun (s : State) (c : Xing) (f : Fill) => decide ((s.alive = true) ∧ let inRange (x : Nat) : Prop := 2 ≤ x ∧ x ≤ 14;
      let was := s.fget (.XING_FILL c) XING_FILL.FILL; (¬ inRange f) ∧ (inRange was))) (State.reset) (0) (0)
    && (fun (s : State) (c : Xing) (f : Fill) => decide ((s.alive = true) ∧ let inRange (x : Nat) : Prop := 2 ≤ x ∧ x ≤ 14;
      let was := s.fget (.XING_FILL c) XING_FILL.FILL; (¬ inRange f) ∧ (¬ inRange was))) (xg) (0) (0)
    && (fun (s : State) (f : Fill) => decide ((s.alive = true) ∧ let inRange (x : Nat) : Prop := 2 ≤ x ∧ x ≤ 14; (inRange f)))
      (State.reset) (2)) = true := by decide +kernel

theorem witness_ReferenceLoss : (
      (fun (s : State) (x : TimeIn) => decide ((s.alive = true) ∧ ((s.fresh.advance x).isSome = true))) (State.reset) { ns := 2047, frac := 0xFFFFFFFF }
    && (fun (s : State) (x : TimeIn) => (s.fresh.advance x).any (fun r =>
      let due := s.holdover && !s.time.refLost && s.time.holdFrom.any (fun b => s.fget .HOLD_LIMIT HOLD_LIMIT.LIMIT_US * 1000 * 2 ^ 32 ≤ r.time.base - b);
      decide ((s.alive = true) ∧ ¬ due))) (later (10000 * 1000 * 2 ^ 32 - 1) hold) { ns := 0, frac := 0 }
    && (fun (s : State) (x : TimeIn) => (s.fresh.advance x).any (fun r =>
      let due := s.holdover && !s.time.refLost && s.time.holdFrom.any (fun b => s.fget .HOLD_LIMIT HOLD_LIMIT.LIMIT_US * 1000 * 2 ^ 32 ≤ r.time.base - b);
      decide ((s.alive = true) ∧ due))) (later (10000 * 1000 * 2 ^ 32 - 1) hold) { ns := 0, frac := 1 }) = true := by decide +kernel

theorem witness_SteeringWrites : (
      (fun (s : State) (a : Acc) (x : TimeIn) => decide ((s.alive = true) ∧ (s.mayWrite a.by_ = true) ∧ ((s.fresh.advance x).isSome = true) ∧
      (s.flag .FT_STATUS FT_STATUS.TIME_SET = false))) (base4) ({ by_ := Writer.host 0, size := Sz.full, val := 0x0000000000000000#64 }) { ns := 3, frac := 5 }
    && (fun (s : State) (a : Acc) (x : TimeIn) => decide ((s.alive = true) ∧ (s.mayWrite a.by_ = true) ∧ ((s.fresh.advance x).isSome = true) ∧
      (s.flag .FT_STATUS FT_STATUS.TIME_SET = true))) (ts) ({ by_ := Writer.host 0, size := Sz.full, val := 0x0000000000000000#64 }) { ns := 3, frac := 5 }
    && (fun (s : State) (a : Acc) (x : TimeIn) => decide ((s.alive = true) ∧ (s.mayWrite a.by_ = true) ∧ ((s.fresh.advance x).isSome = true) ∧
      (FT_CTRL.RESET_TIME.get (Reg.FT_CTRL.info.write (s.reg .FT_CTRL) a) = 0) ∧ (s.flag .FT_CTRL FT_CTRL.CLIENT_EN = false)))
      (base4) ({ by_ := Writer.host 0, size := Sz.full, val := 0x0000000000000001#64 }) { ns := 3, frac := 5 }
    && (fun (s : State) (a : Acc) (x : TimeIn) => (s.fresh.advance x).any (fun r =>
      let due := !s.flag .FT_STATUS FT_STATUS.MODE && decide (s.fget .FT_LIMITS FT_LIMITS.WDOG_MS * 1000000 * 2 ^ 32 ≤ r.time.base - s.time.wdFrom);
      decide ((s.alive = true) ∧ (s.mayWrite a.by_ = true) ∧ due)))
      (later (s0.fget .FT_LIMITS FT_LIMITS.WDOG_MS * 1000000 * 2 ^ 32 - 1) s0) ({ by_ := Writer.host 0, size := Sz.full, val := 0x0000000000000000#64 }) { ns := 0, frac := 1 }
    && (fun (s : State) (a : Acc) (x : TimeIn) => (s.fresh.advance x).any (fun r =>
      let due := !s.flag .FT_STATUS FT_STATUS.MODE && decide (s.fget .FT_LIMITS FT_LIMITS.WDOG_MS * 1000000 * 2 ^ 32 ≤ r.time.base - s.time.wdFrom);
      decide ((s.alive = true) ∧ (s.mayWrite a.by_ = true) ∧ ¬ due)))
      (later (s0.fget .FT_LIMITS FT_LIMITS.WDOG_MS * 1000000 * 2 ^ 32 - 1) s0) ({ by_ := Writer.host 0, size := Sz.full, val := 0x0000000000000000#64 }) { ns := 0, frac := 0 }
    && (fun (s : State) (a : Acc) => decide ((s.alive = true) ∧ (s.mayWrite a.by_ = true) ∧
      (FT_CTRL.RESET_TIME.get (Reg.FT_CTRL.info.write (s.reg .FT_CTRL) a) = 1) ∧ (s.loadedParts ≠ [])))
      (r) ({ by_ := Writer.host 0, size := Sz.full, val := 0x0000000000000002#64 })
    && (fun (s : State) (a : Acc) => decide ((s.alive = true) ∧ (s.mayWrite a.by_ = true) ∧
      (FT_CTRL.RESET_TIME.get (Reg.FT_CTRL.info.write (s.reg .FT_CTRL) a) = 1) ∧ (s.loadedParts = [])))
      (base4) ({ by_ := Writer.host 0, size := Sz.full, val := 0x0000000000000002#64 })) = true := by decide +kernel

/-- Of `Obligations.CrossingsAndReads`: the last moment before the boundary, and the boundary. -/
theorem witness_ReadOfFabricTime : (
      (fun (s : State) (x : TimeIn) => decide ((s.alive = true) ∧ (s.fabric + timeUnits x * s.gain < s.nextBoundary * 2 ^ 80)))
      (State.reset) ({ ns := 2047, frac := 0xFFFFFFFF#32 })
    && (fun (s : State) (x : TimeIn) => decide ((s.alive = true) ∧ (s.nextBoundary * 2 ^ 80 ≤ s.fabric + timeUnits x * s.gain)))
      (State.reset) ({ ns := 2048, frac := 0x00000000#32 })) = true := by decide +kernel

/-- What every clause on a message of `Obligations.TimeMessages` asks, and its moment. -/
def arrives (s : State) (p : Port) (k : Packet) (x : TimeIn) (heard : Bool) (kind : PtpMsg → Bool) : Bool :=
  (s.fresh.advance x).any (fun r => let u := (r.takeInbound p (pktBytes k)).fadd (.TS_COUNT p) TS_COUNT.RX 1
    (ptpOf k.payload).any (fun m => decide (s.alive = true ∧ s.lstate p = lUP ∧ isTime k = true) && kind m && ((u.clientOn p && u.fromMaster m) == heard)))
theorem witness_TimeMessages : (
      arrives cl 0 (ptpPkt 11 3) { ns := 5, frac := 0 } true (fun m => m.kind = 11)
    && [1, 7, 10, 15].all (fun n => arrives cl 0 (ptpPkt n 3) { ns := 5, frac := 0 } false (fun m => m.kind ∉ [0, 8, 9, 11] ∧ m.kind < 16)
        || arrives cl 0 (ptpPkt n 3) { ns := 5, frac := 0 } true (fun m => m.kind ∉ [0, 8, 9, 11] ∧ m.kind < 16))
    && arrives fr1 0 (ptpPkt 0 3) { ns := 5, frac := 0 } false (fun m => m.kind = 0)
    && arrives cl 0 (ptpPkt 0 3) { ns := 5, frac := 0 } true (fun m => m.kind = 0)
    && arrives (ex4 { times with t1 := none } []) 0 (ptpPkt 8 3) { ns := 5, frac := 0 } true (fun m => m.kind = 8 ∧ times.syncSeq = some m.seqId)
    && arrives cl 0 (ptpPkt 8 3) { ns := 5, frac := 0 } true (fun m => m.kind = 8 ∧ cl.time.ex.syncSeq ≠ some m.seqId)
    && arrives (ex4 { times with t4 := none } []) 0 (ptpPkt 9 3) { ns := 5, frac := 0 } true (fun m => m.kind = 9 ∧ times.reqSeq = some m.seqId)
    && arrives cl 0 (ptpPkt 9 3) { ns := 5, frac := 0 } true (fun m => m.kind = 9 ∧ cl.time.ex.reqSeq ≠ some m.seqId)
    && decide (cl.alive = true ∧ cl.clientOn 0 = true) && decide (cl.alive = true ∧ cl.clientOn 1 = false)) = true := by decide +kernel

/-- Of `Obligations.TimeMessages`. -/
theorem witness_TimestampQueue : (
      decide (((ex4 times (List.replicate 63 (3, 7))).port 0).tsq.length < 64)
    && decide (64 ≤ ((ex4 times (List.replicate 64 (3, 7))).port 0).tsq.length ∧ (ex4 times (List.replicate 64 (3, 7))).time.ex.reqSeq = some 3)) = true := by decide +kernel

/-- Of `Obligations.TimeMessages`. -/
theorem witness_Exchange : (
      (fun (x : Exchange) => decide (x.t1 = none ∨ x.t2 = none ∨ x.t4 = none ∨ x.reqSeq = none)) { times with t4 := none }
    && (fun (s : State) t1 t2 t4 id => let x := s.time.ex; decide (x.t1 = some t1 ∧ x.t2 = some t2 ∧ x.t4 = some t4 ∧ x.reqSeq = some id ∧ x.dropped = true))
      (ex4 { times with dropped := true } []) 65536000 131072000 131072001 3
    && (fun (s : State) t1 t2 t4 id => let x := s.time.ex; decide (x.t1 = some t1 ∧ x.t2 = some t2 ∧ x.t4 = some t4 ∧ x.reqSeq = some id ∧ x.dropped = false
      ∧ (∀ e ∈ (s.port 0).tsq, e.1 ≠ id))) (ex4 times [(4, 7)]) 65536000 131072000 131072001 3
    && (fun (s : State) t1 t2 t4 id tx => let x := s.time.ex; decide (x.t1 = some t1 ∧ x.t2 = some t2 ∧ x.t4 = some t4 ∧ x.reqSeq = some id ∧ x.dropped = false
      ∧ (s.port 0).tsq = [(id, tx)])) (ex4 times [(3, 7)]) 65536000 131072000 131072001 3 7) = true := by decide +kernel

/-- Of `Obligations.TimeMessages`: an offset of exactly JUMP_NS is within it. -/
theorem witness_OffsetSample : (
      (fun (s : State) (d : Int) => decide (((s.fget .FT_LIMITS FT_LIMITS.JUMP_NS : Int) * 131072000 < Int.natAbs d)))
      (State.reset) (-(State.reset.fget .FT_LIMITS FT_LIMITS.JUMP_NS : Int) * 131072000 - 1)
    && (fun (s : State) (d : Int) => decide (((Int.natAbs d : Int) ≤ (s.fget .FT_LIMITS FT_LIMITS.JUMP_NS : Int) * 131072000) ∧
      (s.flag .STG_STATUS STG_STATUS.FREF_OK = true))) (fr) ((State.reset.fget .FT_LIMITS FT_LIMITS.JUMP_NS : Int) * 131072000)
    && (fun (s : State) (d : Int) => decide (((Int.natAbs d : Int) ≤ (s.fget .FT_LIMITS FT_LIMITS.JUMP_NS : Int) * 131072000) ∧
      (s.watchdog.flag .FT_STATUS FT_STATUS.MODE = false))) (State.reset) (0)
    && (fun (s : State) (d ns : Int) => decide (((Int.natAbs d : Int) ≤ (s.fget .FT_LIMITS FT_LIMITS.JUMP_NS : Int) * 131072000) ∧
      (d = ns * 131072000) ∧ (s.watchdog.flag .FT_STATUS FT_STATUS.MODE = true) ∧ (s.flag .STG_STATUS STG_STATUS.FREF_OK = true))) (sv) (-131072000) (-1)) = true := by decide +kernel

end Stages

namespace Banks
/-! Witnesses of banks and LPDDR5X. -/

def tl (s : State) (g : Nat) (f : Tile → Tile) : State := s.modTile g f
def own (s : State) (g k o : Nat) : State := s.fset (.BANK_OWN g k) BANK_OWN.OWNER o
def pnd (s : State) (g k o : Nat) : State := (s.fset (.BANK_OWN g k) BANK_OWN.PEND 1).fset (.BANK_OWN g k) BANK_OWN.PEND_TO o
def ho1 (k : Nat) (f : Agent) (scan : Bool) : PendHo :=
    { bank := k, frm := f, towards := if scan then 8 else 3, tally := 0, e := 0, scan := scan, stage := 0 }
def p : State := planS 2
def b : State := own (own (own p 0 0 0) 0 71 1) 0 8 7
def d : State := { b with sram := [(0, 1), (1, 0x80), (71*0x100000 + 5, 9)], sramBad := [] }
def e1 : State := { d with sramBad := [(0, 1)] }
def e2 : State := { d with sramBad := [(0, 2)] }
def w : State := pnd (own p 0 0 7) 0 0 0
def sc : State := tl (own p 0 0 8) 0 (fun t => { t with scan := some { stage := 0, bank := 0, patch := 5, old := 7, tally := 0, spare := 2 } })
def sr : State := (pnd b 0 0 8).fset (.SEQ_STATUS 0) SEQ_STATUS.STATE 1
def q0 : State := (b.fset (.SEQ_STATUS 0) SEQ_STATUS.STATE 1)
def q1 : State := own (q0) 0 0 1
def q7 : State := own (q0) 0 0 7
def qfull : State := q1.putQueue 0 1 (List.replicate 600 (qi (.signal 0 1)))
def pe (f : Agent) (sc : Bool) : State := tl (pnd (own q0 0 0 f.toNat) 0 0 3) 0 (fun t => { t with pend := [ho1 0 f sc] })
def pq (f : Agent) (sc : Bool) : State := (pe f sc).putQueue 0 f.toNat [qi (if sc then .scan 0 else .handover 0)]
def db : State := { base4 with dram := [(0, 1), (5, 7)], dramBad := [(0, 1)] }
def dg : State := { base4 with dram := [(0, 1), (5, 7)] }
def z : State := { dg with regs := (dg.fset (.DR_STATUS 0) DR_STATUS.ZEROED 1).regs }
def pz : State := { (planS 2) with parts := [(0, { plan := some { planA with refPeriod := 4, refresh := [⟨0, 0, 0, 0⟩, ⟨0,0,15,0⟩] } })] }

theorem witness_AccessChecks : (
      (fun (a : Nat) => decide ((laView a = 3))) (402653184)
    && (fun (a n : Nat) => decide ((laView a ≠ 3) ∧ (n = 0))) (0) (0)
    && (fun (s : State) (g a n : Nat) => decide (let k := laBank a;
      let outside := 2 ^ 29 ≤ a ∨ 72 ≤ k ∨ bankSize k < laOff a + n ∨ s.touchesRetired g k (laOff a) n = true; (laView a ≠ 3) ∧ (n ≠ 0) ∧
      (outside))) (State.reset) (0) (0) (74448896)
    && (fun (s : State) (g agent a n : Nat) => decide (let k := laBank a; let owner := s.fget (.BANK_OWN g k) BANK_OWN.OWNER;
      let outside := 2 ^ 29 ≤ a ∨ 72 ≤ k ∨ bankSize k < laOff a + n ∨ s.touchesRetired g k (laOff a) n = true; (laView a ≠ 3) ∧ (n ≠ 0) ∧
      (¬ outside) ∧ (owner = agent))) (State.reset) (0) (7) (0) (1)
    && (fun (s : State) (g agent a n : Nat) => decide (let k := laBank a; let owner := s.fget (.BANK_OWN g k) BANK_OWN.OWNER;
      let pending := s.flag (.BANK_OWN g k) BANK_OWN.PEND = true ∧ s.fget (.BANK_OWN g k) BANK_OWN.PEND_TO = agent;
      let outside := 2 ^ 29 ≤ a ∨ 72 ≤ k ∨ bankSize k < laOff a + n ∨ s.touchesRetired g k (laOff a) n = true; (laView a ≠ 3) ∧ (n ≠ 0) ∧
      (¬ outside) ∧ (owner ≠ agent) ∧ (pending))) (w) (0) (0) (0) (1)
    && (fun (s : State) (g agent a n : Nat) => decide (let k := laBank a; let owner := s.fget (.BANK_OWN g k) BANK_OWN.OWNER;
      let pending := s.flag (.BANK_OWN g k) BANK_OWN.PEND = true ∧ s.fget (.BANK_OWN g k) BANK_OWN.PEND_TO = agent;
      let outside := 2 ^ 29 ≤ a ∨ 72 ≤ k ∨ bankSize k < laOff a + n ∨ s.touchesRetired g k (laOff a) n = true; (laView a ≠ 3) ∧ (n ≠ 0) ∧
      (¬ outside) ∧ (owner ≠ agent) ∧ (¬ pending) ∧ ((s.tile g).scan = none))) (State.reset) (0) (0) (0) (1)
    && (fun (s : State) (g agent a n : Nat) c => decide (let k := laBank a; let owner := s.fget (.BANK_OWN g k) BANK_OWN.OWNER;
      let pending := s.flag (.BANK_OWN g k) BANK_OWN.PEND = true ∧ s.fget (.BANK_OWN g k) BANK_OWN.PEND_TO = agent;
      let outside := 2 ^ 29 ≤ a ∨ 72 ≤ k ∨ bankSize k < laOff a + n ∨ s.touchesRetired g k (laOff a) n = true; (laView a ≠ 3) ∧ (n ≠ 0) ∧
      (¬ outside) ∧ (owner ≠ agent) ∧ (¬ pending) ∧ ((s.tile g).scan = some c)))
      (sc) (0) (0) (0) (1) ({ stage := 0, bank := 0, patch := 5, old := 0x7#4, tally := 0, spare := 2 })) = true := by decide +kernel

theorem witness_BankAccess : (
      (fun (s : State) (g : Gt) (ag : Agent) (a : BitVec 32) op c => decide ((s.alive = true) ∧ (s.tilePresent g = true) ∧
      (s.accCheck g ag.toNat a.toNat (match op with | .read n => n | .write d => d.length) = .refused c)))
      (State.reset) (0) (0x0#4) (0x00000000#32) (MemOp.read 2) (1)
    && (fun (s : State) (g : Gt) (ag : Agent) (a : BitVec 32) op => decide ((s.alive = true) ∧ (s.tilePresent g = true) ∧
      (s.accCheck g ag.toNat a.toNat (match op with | .read n => n | .write d => d.length) = .wait)))
      (w) (0) (0x0#4) (0x00000000#32) (MemOp.read 2)
    && (fun (s : State) (g : Gt) (ag : Agent) (a : BitVec 32) n => decide ((s.alive = true) ∧ (s.tilePresent g = true) ∧
      let k := laBank a.toNat; let key := sramKey g k (laOff a.toNat); (ag = 7 → (s.rgn (g / 8)).quiesce = false) ∧
      (s.accCheck g ag.toNat a.toNat n = .ok) ∧ (badIn s.sramBad key n = []))) d (0) (0x0#4) (0x00000000#32) 4
    && (fun (s : State) (g : Gt) (ag : Agent) (a : BitVec 32) (d : Bytes) => decide ((s.alive = true) ∧ (s.tilePresent g = true) ∧
      (ag = 7 → (s.rgn (g / 8)).quiesce = false) ∧ (s.accCheck g ag.toNat a.toNat d.length = .ok) ∧ (s.sramBad = []) ∧ (s.lockOn = false)))
      d (0) (0x7#4) (0x00800000#32) ([1, 2])
    && (fun (s : State) (g : Gt) (ag : Agent) (a : BitVec 32) op => decide ((s.alive = true) ∧ (s.tilePresent g = true) ∧ (ag = 7) ∧
      ((s.rgn (g / 8)).quiesce = true) ∧ ((match op with | .read n => n | .write d => d.length) ≠ 0) ∧
      (s.accCheck g 7 a.toNat (match op with | .read n => n | .write d => d.length) = .ok)))
      (d.modRgn 0 (fun r => { r with quiesce := true })) (0) (0x7#4) (0x00800000#32) (MemOp.write [1, 2])) = true := by decide +kernel

/-- Of `Obligations.BankAccess`. -/
theorem witness_BankErrors : (
      (fun (s : State) (key n : Nat) => decide ((badIn s.sramBad key n = []))) (State.reset) (0) (0)
    && (fun (s : State) (key n w : Nat) => decide ((badIn s.sramBad key n = [(w, 1)]))) (e1) (0) (1) (0)
    && (fun (s : State) (key n w : Nat) => decide ((badIn s.sramBad key n = [(w, 2)]))) (e2) (0) (1) (0)
    && (fun (s : State) (g key w : Nat) k off data => decide ((key = sramKey g k off) ∧ (data.length % 8 = 0) ∧ (off % 8 = 0) ∧
      (badIn s.sramBad key data.length = [(w, 2)]) ∧ (s.lockOn = false)))
      (e2) (0) (0) (0) (0) (0) ([0x01#8, 0x02#8, 0x03#8, 0x04#8, 0x05#8, 0x06#8, 0x07#8, 0x08#8])) = true := by decide +kernel

/-- Of `Obligations.EffectPoints`. -/
theorem witness_HandoverTakesEffect : (
      (fun (s : State) (h : PendHo) => decide ((h.bank < 72) ∧ (∀ a ∈ (s.tile 0).held, laBank a.addr.toNat ≠ h.bank)))
      (tl b 0 (fun t => { t with held := [⟨1, 0, .read 1, []⟩] })) ({ bank := 71, frm := 0x1#4, towards := 0x3#4, tally := 0, e := 0x00000000#32, scan := false, stage := 0, waiting := false, waitB := 0 })) = true := by decide +kernel

theorem witness_HandoverAndScanCommands : (
      (fun (s : State) (g : Gt) (bank : BitVec 7) (frm towards : Agent) (tally : TallyIx) (e : BitVec 32) (scan : Bool) c => decide ((s.alive = true) ∧
      (s.seqReady g = true) ∧
      let ho (scan : Bool) : PendHo := { bank := bank.toNat, frm := frm, towards := if scan then 8 else towards, tally := tally, e := e, scan := scan, stage := (s.tile g).issue };
      (s.hoRefusal g bank.toNat frm.toNat (ho scan).towards.toNat scan = some c)))
      (sr) (0) (0x00#7) (0x0#4) (0x0#4) (0) (0x00000000#32) (false) (1)
    && (fun (s : State) (g : Gt) (bank : BitVec 7) (frm towards : Agent) (tally : TallyIx) (e : BitVec 32) (scan : Bool) => decide ((s.alive = true) ∧
      (s.seqReady g = true) ∧
      let ho (scan : Bool) : PendHo := { bank := bank.toNat, frm := frm, towards := if scan then 8 else towards, tally := tally, e := e, scan := scan, stage := (s.tile g).issue };
      (s.hoRefusal g bank.toNat frm.toNat (ho scan).towards.toNat scan = none) ∧ (frm = (ho scan).towards)))
      (sr) (0) (0x47#7) (0x1#4) (0x1#4) (0) (0x00000000#32) (false)
    && (fun (s : State) (g : Gt) (bank : BitVec 7) (frm towards : Agent) (tally : TallyIx) (e : BitVec 32) (scan : Bool) => decide ((s.alive = true) ∧
      (s.seqReady g = true) ∧
      let ho (scan : Bool) : PendHo := { bank := bank.toNat, frm := frm, towards := if scan then 8 else towards, tally := tally, e := e, scan := scan, stage := (s.tile g).issue };
      (s.hoRefusal g bank.toNat frm.toNat (ho scan).towards.toNat scan = none) ∧ (frm ≠ (ho scan).towards) ∧ (frm = 0) ∧ (scan = true) ∧ ((s.tile g).scan ≠ none)))
      (tl q0 0 (fun t => { t with scan := some { stage := 0, bank := 3, patch := 5, old := 7, tally := 0, spare := 2 } })) (0) (0x00#7) (0x0#4) (0x0#4) (0) (0x00000000#32) (true)
    && (fun (s : State) (g : Gt) (bank : BitVec 7) (frm towards : Agent) (tally : TallyIx) (e : BitVec 32) (scan : Bool) => decide ((s.alive = true) ∧
      (s.seqReady g = true) ∧
      let ho (scan : Bool) : PendHo := { bank := bank.toNat, frm := frm, towards := if scan then 8 else towards, tally := tally, e := e, scan := scan, stage := (s.tile g).issue };
      (s.hoRefusal g bank.toNat frm.toNat (ho scan).towards.toNat scan = none) ∧ (frm ≠ (ho scan).towards) ∧ (frm = 0) ∧ (scan = false ∨ (s.tile g).scan = none)))
      (q0) (0) (0x00#7) (0x0#4) (0x0#4) (0) (0x00000000#32) (true)
    && (fun (s : State) (g : Gt) (bank : BitVec 7) (frm towards : Agent) (tally : TallyIx) (e : BitVec 32) (scan : Bool) => decide ((s.alive = true) ∧
      (s.seqReady g = true) ∧
      let ho (scan : Bool) : PendHo := { bank := bank.toNat, frm := frm, towards := if scan then 8 else towards, tally := tally, e := e, scan := scan, stage := (s.tile g).issue };
      (s.hoRefusal g bank.toNat frm.toNat (ho scan).towards.toNat scan = none) ∧ (frm ≠ (ho scan).towards) ∧ (frm = 0) ∧ (scan = false ∨ (s.tile g).scan = none)))
      (q0) (0) (0x00#7) (0x0#4) (0x1#4) (0) (0x00000000#32) (false)
    && (fun (s : State) (g : Gt) (bank : BitVec 7) (frm towards : Agent) (tally : TallyIx) (e : BitVec 32) (scan : Bool) => decide ((s.alive = true) ∧
      (s.seqReady g = true) ∧
      let ho (scan : Bool) : PendHo := { bank := bank.toNat, frm := frm, towards := if scan then 8 else towards, tally := tally, e := e, scan := scan, stage := (s.tile g).issue };
      (s.hoRefusal g bank.toNat frm.toNat (ho scan).towards.toNat scan = none) ∧ (frm ≠ (ho scan).towards) ∧ (1 ≤ frm.toNat) ∧
      (frm.toNat ≤ 6) ∧ (s.queueRoom g frm.toNat = false))) (qfull) (0) (0x00#7) (0x1#4) (0x0#4) (0) (0x00000000#32) (false)
    && (fun (s : State) (g : Gt) (bank : BitVec 7) (frm towards : Agent) (tally : TallyIx) (e : BitVec 32) (scan : Bool) => decide ((s.alive = true) ∧
      (s.seqReady g = true) ∧
      let ho (scan : Bool) : PendHo := { bank := bank.toNat, frm := frm, towards := if scan then 8 else towards, tally := tally, e := e, scan := scan, stage := (s.tile g).issue };
      (s.hoRefusal g bank.toNat frm.toNat (ho scan).towards.toNat scan = none) ∧ (frm ≠ (ho scan).towards) ∧ (1 ≤ frm.toNat) ∧
      (frm.toNat ≤ 6) ∧ (s.queueRoom g frm.toNat = true))) (sr) (0) (0x47#7) (0x1#4) (0x0#4) (0) (0x00000000#32) (false)
    && (fun (s : State) (g : Gt) (bank : BitVec 7) (frm towards : Agent) (tally : TallyIx) (e : BitVec 32) (scan : Bool) => decide ((s.alive = true) ∧
      (s.seqReady g = true) ∧
      let ho (scan : Bool) : PendHo := { bank := bank.toNat, frm := frm, towards := if scan then 8 else towards, tally := tally, e := e, scan := scan, stage := (s.tile g).issue };
      (s.hoRefusal g bank.toNat frm.toNat (ho scan).towards.toNat scan = none) ∧ (frm ≠ (ho scan).towards) ∧ (frm = 7)))
      (q7) (0) (0x00#7) (0x7#4) (0x0#4) (0) (0x00000000#32) (false)) = true := by decide +kernel

theorem witness_EffectPoints : (
      (fun (s : State) (g : Gt) (k : Bank) (scan : Bool) => decide ((s.alive = true) ∧
      ((s.tile g).pend.find? (fun h => h.bank = k.val ∧ h.scan = scan) = none))) (State.reset) (0) (0) (false)
    && (fun (s : State) (g : Gt) (k : Bank) (scan : Bool) h => decide ((s.alive = true) ∧
      ((s.tile g).pend.find? (fun h => h.bank = k.val ∧ h.scan = scan) = some h) ∧ (h.frm ≠ 7) ∧ (s.atHead g h = true) ∧ (scan = true → (s.tile g).scan = none)))
      (pq 1 false) (0) (0) (false) ({ bank := 0, frm := 0x1#4, towards := 0x3#4, tally := 0, e := 0x00000000#32, scan := false, stage := 0, waiting := false, waitB := 0 })
    && (fun (s : State) (g : Gt) (k : Bank) (scan : Bool) h => decide ((s.alive = true) ∧
      ((s.tile g).pend.find? (fun h => h.bank = k.val ∧ h.scan = scan) = some h) ∧ (h.frm = 7)))
      (pe 7 true) (0) (0) (true) ({ bank := 0, frm := 0x7#4, towards := 0x8#4, tally := 0, e := 0x00000000#32, scan := true, stage := 0, waiting := false, waitB := 0 })
    && (fun (s : State) (g : Gt) (k : Bank) (scan : Bool) h => decide ((s.alive = true) ∧
      ((s.tile g).pend.find? (fun h => h.bank = k.val ∧ h.scan = scan) = some h) ∧ (h.frm ≠ 7) ∧ (s.atHead g h = false ∨ (scan = true ∧ (s.tile g).scan ≠ none))))
      (pe 1 false) (0) (0) (false) ({ bank := 0, frm := 0x1#4, towards := 0x3#4, tally := 0, e := 0x00000000#32, scan := false, stage := 0, waiting := false, waitB := 0 })
    && (fun (s : State) (g : Gt) (k : Bank) (scan : Bool) h => decide ((s.alive = true) ∧
      ((s.tile g).pend.find? (fun h => h.bank = k.val ∧ h.scan = scan) = some h) ∧ (h.frm ≠ 7) ∧ (s.atHead g h = false ∨ (scan = true ∧ (s.tile g).scan ≠ none))))
      (tl (pq 1 true) 0 (fun t => { t with scan := some { stage := 0, bank := 3, patch := 5, old := 7, tally := 0, spare := 2 } })) (0) (0) (true) ({ bank := 0, frm := 0x1#4, towards := 0x8#4, tally := 0, e := 0x00000000#32, scan := true, stage := 0, waiting := false, waitB := 0 })) = true := by decide +kernel

theorem witness_ScanEnd : (
      (fun (s : State) (g : Gt) => decide ((s.alive = true) ∧ ((s.tile g).scan = none))) (State.reset) (0)
    && (fun (s : State) (g : Gt) (e : Nat) (c : ScanSt) => decide (s.alive = true ∧ (s.tile g).scan = some c ∧ (∀ h ∈ (s.tile g).pend, h.scan = true → h.frm ≠ 7) ∧ c.bank < 72 ∧ c.patch < 256 ∧ s.freeEntry g = some e ∧ c.spare < 4 ∧ e < 16))
      sc 0 0 { stage := 0, bank := 0, patch := 5, old := 7, tally := 0, spare := 2 }) = true := by decide +kernel

/-- Of `Obligations.OwnerWrites`. -/
theorem witness_BankAndPatchWrites : (
      (fun (s : State) (g : Gt) (k : Bank) (a : Acc) => decide ((s.alive = true) ∧ (s.mayWrite a.by_ = true) ∧ (s.tilePresent g = true) ∧
      let o := BANK_OWN.OWNER.get (accOver a (s.reg (.BANK_OWN g k))); (a.size ≠ .hi) ∧ (o < 8) ∧ (s.tileIdle g = true)))
      (State.reset) (0) (0) ({ by_ := Writer.steward, size := Sz.full, val := 0xfffffffffffffff0#64 })
    && (fun (s : State) (g : Gt) (k : Bank) (a : Acc) => decide ((s.alive = true) ∧ (s.mayWrite a.by_ = true) ∧ (s.tilePresent g = true) ∧
      let o := BANK_OWN.OWNER.get (accOver a (s.reg (.BANK_OWN g k))); (a.size ≠ .hi) ∧ ((8 ≤ o ∨ s.tileIdle g = false))))
      (p) (0) (0) ({ by_ := Writer.host 0, size := Sz.full, val := 0x0000000000000003#64 })) = true := by decide +kernel

/-- A request of one I/O die, as the statement has it. -/
abbrev one (off : BitVec 40) (n : Nat) : Prop := off.toNat + n ≤ dramSize ∧ (n = 0 ∨ dramIod off.toNat = dramIod (off.toNat + n - 1))
theorem witness_Lpddr5xRequests : (
      (fun (s : State) (off : BitVec 40) n => decide ((s.alive = true) ∧ one off n ∧ (badIn s.dramBad off.toNat n = [])))
      (State.reset) (0x3FFFFFFFFF#40) (1)
    && (fun (s : State) (off : BitVec 40) (d : Bytes) => decide ((s.alive = true) ∧ one off d.length ∧ (s.dramBad = []) ∧ (s.lockOn = false)))
      (State.reset) (0xFFFFFFFFFF#40) ([7])
    && (fun (s : State) (off : BitVec 40) n w => decide ((s.alive = true) ∧ one off n ∧ (badIn s.dramBad off.toNat n = [(w, 1)])))
      (db) (0x0000000000#40) (1) (0)
    && (fun (s : State) (off : BitVec 40) n k => decide ((s.alive = true) ∧ one off n ∧ (badIn s.dramBad off.toNat n = []) ∧ 0 < k))
      (db) (0x0000000008#40) (1) (3)
    && (fun (s : State) (off : BitVec 40) (op : MemOp) => decide ((s.alive = true) ∧ ¬ one off (match op with | .read n => n | .write d => d.length)))
      (State.reset) (0xFFFFFFFFFF#40) (.read 2)
    && (fun (s : State) (off : BitVec 40) (op : MemOp) => decide ((s.alive = true) ∧ ¬ one off (match op with | .read n => n | .write d => d.length)))
      (State.reset) (0x3FFFFFFFFF#40) (.write [1, 2])) = true := by decide +kernel

theorem witness_Refresh : (
      (fun (s : State) (i : Iod) => decide ((s.alive = true) ∧ ((∀ j ∈ List.range 16, -8 ≤ s.debt i j ∧ s.debt i j ≤ 8))
      ∧ (s.flag (.DR_STATUS i) DR_STATUS.ZEROED = true))) (z) (0)
    && (fun (s : State) (i : Iod) => decide ((s.alive = true) ∧ ((∀ j ∈ List.range 16, -8 ≤ s.debt i j ∧ s.debt i j ≤ 8))
      ∧ (s.flag (.DR_STATUS i) DR_STATUS.ZEROED = false))) (State.reset) (0)
    && (fun (s : State) (i : Iod) (k : RefBank) => decide ((s.alive = true) ∧ ((∀ j ∈ List.range 16, -8 ≤ s.debt i j ∧ s.debt i j ≤ 8))
      ∧ (s.windowPlanned i k = true) ∧ (s.debt i k ≠ -8))) (pz) (0) (0)
    && (fun (s : State) (i : Iod) (k : RefBank) => decide ((s.alive = true) ∧ ((∀ j ∈ List.range 16, -8 ≤ s.debt i j ∧ s.debt i j ≤ 8))
      ∧ ((s.windowPlanned i k = false ∨ s.debt i k = -8)))) (State.reset) (0) (0)
    && (fun (r : Mr4Result) => decide ((r.readings.getD r.pkg 0).toNat = r.readings.foldl (fun a b => max a b.toNat) 0)) ⟨[0, 1, 3, 2, 0, 0, 0, 0, 3], 8⟩) = true := by decide +kernel

end Banks

namespace Seq
/-! Witnesses of the tile sequencer. -/

def sq (s : State) : State := s.fset (.SEQ_STATUS 0) SEQ_STATUS.STATE 1
def code (s : State) (l : List Nat) : State := (s.fset (.SEQ_PC 0) SEQ_PC.PC 0x80000100).modTile 0 (fun t =>
    { t with imem := memWrite t.imem 0x100 (l.flatMap (toLe 4)), x := [(5, 0x00100000), (6, 0x40000010)] })
def b : State := sq (planS 2)
def c (w : Nat) : State := code b [w]
def lp (n : Nat) : State := (List.range n).foldl (fun s k => (s.fset (.LOOP 0 k) LOOP.ACTIVE 1).fset (.LOOP 0 k) LOOP.REMAIN (k+1)) ((c
    0).modTile 0 (fun t => { t with loops := (List.range n).map (fun k => ⟨BitVec.ofNat 32 (0x80000000 + k * 4), 0x80000200⟩) })) |>.fset
    (.SEQ_STATUS 0) SEQ_STATUS.LOOP_DEPTH n
def lpf : State := (lp 2).fset (.LOOP 0 1) LOOP.FOREVER 1
def wt (v : Nat) : State := ((sq (planS 2)).modTile 0 (fun t => { t with seqWait := some { what := .tally 0 5, waitB := v } })).fset
    (.SEQ_STATUS 0) SEQ_STATUS.WAIT_CAUSE 2
def full : State := (c 0).putQueue 0 1 (List.replicate 600 (qi (.signal 0 1))) |>.putQueue 0 2 (List.replicate 600 (qi (.signal 0 1)))
    |>.putQueue 0 3 (List.replicate 600 (qi (.signal 0 1)))
def ah : State := (c 0).modTile 0 (fun t => { t with issue := 9 })
def fr (d : Nat) : State := ((planS 2).putQueue 0 3 [{ qi (.fence 0) with phase := .running, captured := 3 }]).modTile 0 (fun t =>
    { t with chans := [(0, { done := BitVec.ofNat 32 d })] })
def run (f : Byte) (sk : Bool) : State := (planS 2).putQueue 0 1
    [{ qi (.eng hdr1 (.matmul mo0)) with phase := .running, fault := f, skipped := sk }] |>.putQueue 0 2
    [{ qi (.eng hdr1 (.vec .add vo0)) with phase := .running, fault := f, skipped := sk }]
/-- A MATMUL of one buffer and an ACCSTORE of the other in progress. -/
def both : State := (planS 2).putQueue 0 1
    [{ qi (.eng hdr0 (.matmul { mo0 with acc := 0 })) with phase := .running, begun := true }, { qi (.eng hdr0 (.accstore ao0)) with phase := .running, begun := true }]
def own (k o : Nat) (s : State) : State := s.fset (.BANK_OWN 0 k) BANK_OWN.OWNER o
def mem : State := { own 0 0 (own 1 1 (c 0x0002A303)) with sram := [(0, 0x80), (1, 0x90)] }
def pend : State := (mem.fset (.BANK_OWN 0 1) BANK_OWN.PEND 1).fset (.BANK_OWN 0 1) BANK_OWN.PEND_TO 0

/-- Of `Obligations.SequencerInstruction`. -/
theorem witness_SequencerProgress : (
      (fun (s : State) (g code : Nat) => decide ((g < 512) ∧ (s.flag (.SEQ_FAULT g) SEQ_FAULT.VALID = false) ∧ (1 ≤ code) ∧ (code ≤ 0x17)))
      (State.reset) (511) (0x17)) = true := by decide +kernel

theorem witness_SequencerInstruction : (
      (fun (s : State) (g : Gt) => decide ((s.alive = true) ∧ (s.seqReady g = true) ∧ ((s.tile g).imemBad = []) ∧ let pc := s.pc g; let o := pc.toNat - 0x80000000;
      let n := s.rvLen g; let fits := 0x80000000 ≤ pc.toNat ∧ o + n ≤ 0x10000 ∧ pc.toNat % 2 = 0; (¬ fits)))
      (b.fset (.SEQ_PC 0) SEQ_PC.PC 0x90000000) (0)
    && (fun (s : State) (g : Gt) => decide ((s.alive = true) ∧ (s.seqReady g = true) ∧ ((s.tile g).imemBad = []) ∧ let pc := s.pc g; let o := pc.toNat - 0x80000000;
      let n := s.rvLen g; let w := memNat (s.tile g).imem o n; let out := if n = 4 then rv32 w pc (s.xreg g) else rv16 w pc (s.xreg g);
      let fits := 0x80000000 ≤ pc.toNat ∧ o + n ≤ 0x10000 ∧ pc.toNat % 2 = 0; (fits) ∧ (out = .illegal))) (b) (0)
    && (fun (s : State) (g : Gt) rd v => decide ((s.alive = true) ∧ (s.seqReady g = true) ∧ ((s.tile g).imemBad = []) ∧ let pc := s.pc g;
      let o := pc.toNat - 0x80000000; let n := s.rvLen g; let w := memNat (s.tile g).imem o n;
      let out := if n = 4 then rv32 w pc (s.xreg g) else rv16 w pc (s.xreg g);
      let fits := 0x80000000 ≤ pc.toNat ∧ o + n ≤ 0x10000 ∧ pc.toNat % 2 = 0; (fits) ∧ (out = .set rd v))) (c 0x13) (0) (0) (0x00000000#32)
    && (fun (s : State) (g : Gt) rd l t => decide ((s.alive = true) ∧ (s.seqReady g = true) ∧ ((s.tile g).imemBad = []) ∧ let pc := s.pc g;
      let o := pc.toNat - 0x80000000; let n := s.rvLen g; let w := memNat (s.tile g).imem o n;
      let out := if n = 4 then rv32 w pc (s.xreg g) else rv16 w pc (s.xreg g);
      let fits := 0x80000000 ≤ pc.toNat ∧ o + n ≤ 0x10000 ∧ pc.toNat % 2 = 0; (fits) ∧ (out = .jump rd l t) ∧ ((s.tile g).loops = [])))
      (c 0x0080006F) (0) (0) (0x80000104#32) (0x80000108#32)
    && (fun (s : State) (g : Gt) a => decide ((s.alive = true) ∧ (s.seqReady g = true) ∧ ((s.tile g).imemBad = []) ∧ let pc := s.pc g; let o := pc.toNat - 0x80000000;
      let n := s.rvLen g; let w := memNat (s.tile g).imem o n; let out := if n = 4 then rv32 w pc (s.xreg g) else rv16 w pc (s.xreg g);
      let fits := 0x80000000 ≤ pc.toNat ∧ o + n ≤ 0x10000 ∧ pc.toNat % 2 = 0; (fits) ∧ (out = .mem a)))
      (c 0x0002A303) (0) ({ store := false, size := MemSize.word, signed := false, addr := 0x00100000#32, data := 0x00000000#32, rd := 6 })
    && (fun (s : State) (g : Gt) => decide ((s.alive = true) ∧ (s.seqReady g = true) ∧ ((s.tile g).imemBad = []) ∧ let pc := s.pc g; let o := pc.toNat - 0x80000000;
      let n := s.rvLen g; let w := memNat (s.tile g).imem o n; let out := if n = 4 then rv32 w pc (s.xreg g) else rv16 w pc (s.xreg g);
      let fits := 0x80000000 ≤ pc.toNat ∧ o + n ≤ 0x10000 ∧ pc.toNat % 2 = 0; (fits) ∧ (out = .skip))) (c 0x0FF0000F) (0)
    && (fun (s : State) (g : Gt) c => decide ((s.alive = true) ∧ (s.seqReady g = true) ∧ ((s.tile g).imemBad = []) ∧ let pc := s.pc g;
      (s.queueRoom g (engQueue c) = true))) (b) (0) (EngCmd.matmul mo0)
    && (fun (s : State) (g : Gt) c => decide ((s.alive = true) ∧ (s.seqReady g = true) ∧ ((s.tile g).imemBad = []) ∧ let pc := s.pc g;
      (s.queueRoom g (engQueue c) = false))) (full) (0) (EngCmd.matmul mo0)) = true := by decide +kernel

theorem witness_SequencerMemory : (
      (fun (s : State) (g : Gt) (a : SeqMemOp) => decide ((s.alive = true) ∧ (s.seqReady g = true) ∧ let n := memBytes a.size;
      let addr := a.addr.toNat; (addr % n ≠ 0)))
      (b) (0) ({ store := false, size := MemSize.half, signed := false, addr := 0x00000001#32, data := 0x89abcdef#32, rd := 7 })
    && (fun (s : State) (g : Gt) (a : SeqMemOp) => decide ((s.alive = true) ∧ (s.seqReady g = true) ∧ let n := memBytes a.size;
      let addr := a.addr.toNat; (0x60000020 ≤ addr) ∧ (addr % n = 0)))
      (b) (0) ({ store := false, size := MemSize.byte, signed := false, addr := 0x60000020#32, data := 0x89abcdef#32, rd := 7 })
    && (fun (s : State) (g : Gt) (a : SeqMemOp) c => decide ((s.alive = true) ∧ (s.seqReady g = true) ∧ let n := memBytes a.size;
      let addr := a.addr.toNat; (addr % n = 0) ∧ (addr < 0x20000000) ∧ (s.accCheck g 0 addr n = .refused c)))
      (b) (0) ({ store := false, size := MemSize.byte, signed := false, addr := 0x00000000#32, data := 0x89abcdef#32, rd := 7 }) (1)
    && (fun (s : State) (g : Gt) (a : SeqMemOp) => decide ((s.alive = true) ∧ (s.seqReady g = true) ∧ let n := memBytes a.size;
      let addr := a.addr.toNat; (addr % n = 0) ∧ (addr < 0x20000000) ∧ (s.accCheck g 0 addr n = .wait)))
      (pend) (0) ({ store := false, size := MemSize.byte, signed := false, addr := 0x00100000#32, data := 0x89abcdef#32, rd := 7 })
    && (fun (s : State) (g : Gt) (a : SeqMemOp) => decide ((s.alive = true) ∧ (s.seqReady g = true) ∧ let n := memBytes a.size;
      let addr := a.addr.toNat; (addr % n = 0) ∧ (addr < 0x20000000) ∧ (s.accCheck g 0 addr n = .ok) ∧ (a.store = true)))
      (mem) (0) ({ store := true, size := MemSize.byte, signed := false, addr := 0x00000000#32, data := 0x89abcdef#32, rd := 7 })
    && (fun (s : State) (g : Gt) (a : SeqMemOp) => decide ((s.alive = true) ∧ (s.seqReady g = true) ∧ let n := memBytes a.size;
      let addr := a.addr.toNat; (addr % n = 0) ∧ (addr < 0x20000000) ∧ (s.accCheck g 0 addr n = .ok) ∧ (a.store = false) ∧
      (badIn s.sramBad (sramKey g (laBank addr) (laOff addr)) n = [])))
      (mem) (0) ({ store := false, size := MemSize.byte, signed := false, addr := 0x00000000#32, data := 0x89abcdef#32, rd := 7 })
    && (fun (s : State) (g : Gt) (a : SeqMemOp) => decide ((s.alive = true) ∧ (s.seqReady g = true) ∧ let n := memBytes a.size;
      let addr := a.addr.toNat; let dmem := 0x40000000 ≤ addr ∧ addr < 0x40010000; (addr % n = 0) ∧ (dmem) ∧ ((s.tile g).dmemBad = []) ∧ (a.store = true)))
      (b) (0) ({ store := true, size := MemSize.byte, signed := false, addr := 0x40000010#32, data := 0x89abcdef#32, rd := 7 })
    && (fun (s : State) (g : Gt) (a : SeqMemOp) => decide ((s.alive = true) ∧ (s.seqReady g = true) ∧ let n := memBytes a.size;
      let addr := a.addr.toNat; let dmem := 0x40000000 ≤ addr ∧ addr < 0x40010000; (addr % n = 0) ∧ (dmem) ∧ ((s.tile g).dmemBad = []) ∧ (a.store = false) ∧
      (a.signed = false)))
      (b) (0) ({ store := false, size := MemSize.byte, signed := false, addr := 0x40000010#32, data := 0x89abcdef#32, rd := 7 })) = true := by decide +kernel

/-- Of `Obligations.SequencerMemory`. -/
theorem witness_SequencerStores : (
      (fun (s : State) (g : Gt) => decide ((s.alive = true) ∧ (s.seqReady g = true) ∧ (4 ≤ s.aheadOf g))) (ah) (0)
    && (fun (s : State) (g : Gt) => decide ((s.alive = true) ∧ (s.seqReady g = true) ∧ (s.aheadOf g < 4))) (b) (0)) = true := by decide +kernel

theorem witness_Loops : (
      (fun (s : State) (g : Gt) (o : LoopOps) => decide ((s.alive = true) ∧ (s.seqReady g = true) ∧ let n := (s.tile g).loops.length; (4 ≤ n ∨ o.common = true)))
      (lp 4) (0) ⟨.imm 1, 0x80000200, 8, false⟩
    && (fun (s : State) (g : Gt) (o : LoopOps) => decide ((s.alive = true) ∧ (s.seqReady g = true) ∧ let n := (s.tile g).loops.length; (4 ≤ n ∨ o.common = true)))
      b (0) ⟨.imm 1, 0x80000200, 8, true⟩
    && (fun (s : State) (g : Gt) => decide ((s.alive = true) ∧ (s.seqReady g = true) ∧ let n := (s.tile g).loops.length; (n < 4))) (b) (0)
    && (fun (s : State) (g : Gt) (c : BitVec 24) => decide ((s.alive = true) ∧ (s.seqReady g = true) ∧ let n := (s.tile g).loops.length;
      (n < 4) ∧ (c ≠ 0))) (b) (0) (0x000001#24)
    && (fun (s : State) (g : Gt) => decide ((s.alive = true) ∧ (s.seqReady g = true) ∧ let n := (s.tile g).loops.length; (n = 0))) (b) (0)
    && (fun (s : State) (g : Gt) l r => decide ((s.alive = true) ∧ (s.seqReady g = true) ∧ ((s.tile g).loops = l :: r) ∧
      (s.flag (.LOOP g r.length) LOOP.FOREVER = true)))
      (lpf) (0) ({ start := 0x80000000#32, bodyEnd := 0x80000200#32 }) ([{ start := 0x80000004#32, bodyEnd := 0x80000200#32 }])
    && (fun (s : State) (g : Gt) l r => decide ((s.alive = true) ∧ (s.seqReady g = true) ∧ ((s.tile g).loops = l :: r) ∧
      (s.flag (.LOOP g r.length) LOOP.FOREVER = false) ∧ (1 < s.fget (.LOOP g r.length) LOOP.REMAIN)))
      (lp 2) (0) ({ start := 0x80000000#32, bodyEnd := 0x80000200#32 }) ([{ start := 0x80000004#32, bodyEnd := 0x80000200#32 }])
    && (fun (s : State) (g : Gt) l r => decide ((s.alive = true) ∧ (s.seqReady g = true) ∧ ((s.tile g).loops = l :: r) ∧
      (s.flag (.LOOP g r.length) LOOP.FOREVER = false) ∧ (s.fget (.LOOP g r.length) LOOP.REMAIN ≤ 1)))
      (lp 1) (0) ({ start := 0x80000000#32, bodyEnd := 0x80000200#32 }) ([])
    && (fun (s : State) (g : Gt) l r => decide ((s.alive = true) ∧ (s.seqReady g = true) ∧ ((s.tile g).loops = l :: r) ∧ (r.length < 8)))
      (lp 1) (0) ({ start := 0x80000000#32, bodyEnd := 0x80000200#32 }) ([])) = true := by decide +kernel

theorem witness_SignalWaitFence : (
      (fun (s : State) (g : Gt) (o : SignalOps) => decide ((s.alive = true) ∧ (s.seqReady g = true) ∧ (o.agent = 0)))
      (b) (0) ({ agent := 0x0#4, tally := 0, amount := 0x012c#16, len := 0x0008#16 })
    && (fun (s : State) (g : Gt) (o : SignalOps) => decide ((s.alive = true) ∧ (s.seqReady g = true) ∧ (7 ≤ o.agent.toNat)))
      (b) (0) ({ agent := 0x7#4, tally := 0, amount := 0x012c#16, len := 0x0008#16 })
    && (fun (s : State) (g : Gt) (o : SignalOps) => decide ((s.alive = true) ∧ (s.seqReady g = true) ∧ (o.agent ≠ 0) ∧ (o.agent.toNat < 7)))
      (b) (0) ({ agent := 0x1#4, tally := 0, amount := 0x012c#16, len := 0x0008#16 })
    && (fun (s : State) (g : Gt) (t : TallyIx) (v : BitVec 32) => decide ((s.alive = true) ∧ (s.seqReady g = true) ∧
      (s.tallyReached g t v.toNat = true))) (b) (0) (0) (0x00000000#32)
    && (fun (s : State) (g : Gt) (t : TallyIx) (v : BitVec 32) => decide ((s.alive = true) ∧ (s.seqReady g = true) ∧
      (s.tallyReached g t v.toNat = false))) (b) (0) (0) (0x00000001#32)
    && (fun (s : State) (g : Gt) (t : TallyIx) (v : BitVec 32) (b : Nat) => decide ((s.alive = true) ∧ (s.tilePresent g = true) ∧
      ((s.tile g).seqWait = some { what := .tally t v, waitB := b }) ∧ (s.tallyReached g t v.toNat = true)))
      ((wt 1).fset (.TALLY 0 0) TALLY.VALUE 9) (0) (0) (0x00000005#32) (1)
    && (fun (s : State) (g : Gt) (t : TallyIx) (v : BitVec 32) (b : Nat) => decide ((s.alive = true) ∧ (s.tilePresent g = true) ∧
      ((s.tile g).seqWait = some { what := .tally t v, waitB := b }) ∧ (s.tallyReached g t v.toNat = false)))
      (wt 1) (0) (0) (0x00000005#32) (1)
    && (fun (s : State) (g : Gt) (a : Agent) => decide ((s.alive = true) ∧ (s.seqReady g = true) ∧ (3 ≤ a.toNat) ∧ (a.toNat ≤ 6)))
      (b) (0) (0x3#4)
    && (fun (s : State) (g : Gt) (a : Agent) => decide ((s.alive = true) ∧ (s.seqReady g = true) ∧ (a = 0))) (b) (0) (0x0#4)
    && (fun (s : State) (g : Gt) (a : Agent) => decide ((s.alive = true) ∧ (s.seqReady g = true) ∧ ((a = 1 ∨ a = 2 ∨ 7 ≤ a.toNat))))
      (b) (0) (0x1#4)
    && (fun (s : State) (g : Gt) (a : Agent) (i : QItem) (r : List QItem) (t : TallyIx) => decide ((s.alive = true) ∧
      (s.tilePresent g = true) ∧ (a ≠ 0) ∧ (s.queue g a.toNat = i :: r) ∧ (i.body = .fence t) ∧ (i.phase = .running)))
      (fr 3) (0) (0x3#4) ({ stage := 0, pred := false, body := QBody.fence 0, phase := QPhase.running, waiting := false, waitB := 0, fault := 0x00#8, skipped := false, captured := 0x00000003#32 }) ([]) (0)) = true := by decide +kernel

/-- Of `Obligations.SignalWaitFence`. -/
theorem witness_Tallies : (
      (fun (v : Nat) => decide ((v < 2 ^ 32))) (1)) = true := by decide +kernel

theorem witness_WaitsAndEnds : (
      (fun (s : State) (g : Gt) w => decide ((s.alive = true) ∧ (s.tilePresent g = true) ∧
      let lim := s.fget (.TALLY_LIMIT g) TALLY_LIMIT.LIMIT; ((s.tile g).seqWait = some w) ∧ (w.waitB = lim)))
      (wt 0x40) (0) ({ what := SeqWaitFor.tally 0 0x00000005#32, waitB := 64 })
    && (fun (s : State) (g : Gt) w => decide ((s.alive = true) ∧ (s.tilePresent g = true) ∧
      let lim := s.fget (.TALLY_LIMIT g) TALLY_LIMIT.LIMIT; ((s.tile g).seqWait = some w) ∧ (w.waitB ≠ lim)))
      (wt 3) (0) ({ what := SeqWaitFor.tally 0 0x00000005#32, waitB := 3 })
    && (fun (s : State) (g : Gt) (a : Agent) drain ix => decide ((s.alive = true) ∧ (s.tilePresent g = true) ∧ ((a = 1 ∨ a = 2))
      ∧ (s.runningIx g a.toNat drain = some ix))) (run 0 false) (0) (0x1#4) false (0)
    && (fun (s : State) (g : Gt) (a : Agent) drain ix => decide ((s.alive = true) ∧ (s.tilePresent g = true) ∧ ((a = 1 ∨ a = 2))
      ∧ (s.runningIx g a.toNat drain = some ix))) both (0) (0x1#4) true (1)
    && (fun (s : State) (g : Gt) (a : Agent) drain => decide ((s.alive = true) ∧ (s.tilePresent g = true) ∧ ((a = 1 ∨ a = 2))
      ∧ (s.runningIx g a.toNat drain = none))) (run 0 false) (0) (0x1#4) true
    && (fun (s : State) (g : Gt) (a : Acc) => decide ((s.alive = true) ∧ (s.tilePresent g = true) ∧ (s.mayWrite a.by_ = true)))
      (State.reset) (0) ({ by_ := Writer.steward, size := Sz.hi, val := 0xfffffffffffffff0#64 })) = true := by decide +kernel

/-- Of `Obligations.WaitsAndEnds`. -/
theorem witness_EngineCommandEnds : (
      (fun (s : State) (g q ix : Nat) (i : QItem) (h : CmdHdr) (c : EngCmd) => decide (((s.queue g q)[ix]? = some i) ∧
      (i.body = .eng h c) ∧ ((q = 1 ∨ q = 2))))
      (run 0 false) (0) (1) (0) ({ stage := 0, pred := false, body := QBody.eng hdr1 (EngCmd.matmul mo0), phase := QPhase.running, waiting := false, waitB := 0, fault := 0x00#8, skipped := false, captured := 0x00000000#32 }) hdr1 (EngCmd.matmul mo0)) = true := by decide +kernel

end Seq

namespace Engines
/-! Witnesses of the engines. -/

def hds : List CmdHdr := [hdr0, hdr1, { hdr0 with predKind := 1, predIdx := 3 },
    { hdr0 with predKind := 2, predIdx := 3, predNeg := true }, { hdr0 with predKind := 3 }]
def bank0 : State :=
    { (List.range 4).foldl (fun s k => s.fset (.BANK_OWN 0 k) BANK_OWN.OWNER (if k < 2 then 1 else 2)) (planS 2) with sram := memWrite [] 0 ((List.range 300).map (fun i => BitVec.ofNat 8 (i*37+11))) }
def es (h st k : Nat) : State :=
  let q (b : QBody) := [{ qi b with stage := st }]
  let hh := hds.getD h hdr0
  match k with
  | 0 => bank0.putQueue 0 1 (q (.eng hh (.matmul mo0)))
  | 1 => bank0.putQueue 0 1 (q (.eng hh (.accstore ao0)))
  | 2 => bank0.putQueue 0 2 (q (.eng hh (.vec .add vo0)))
  | _ => bank0.putQueue 0 3 (q (.eng hh (.desc 0 .copy de0)))
def full6 : State := (List.range 7).foldl (fun s k => s.putQueue 0 k (List.replicate 600 (qi (.signal 0 1)))) bank0
def tal6 : State := (bank0.fset (.TALLY 0 0) TALLY.VALUE 9).putQueue 0 1 [{ qi (.eng hdr1 (.matmul mo0)) with stage := 0 }]

/-- The rows that name an engine command, as `Obligations.EngineCommandBegins` lists them. -/
def rows (g : Gt) (h : CmdHdr) (m : MatmulOps) (a : AccstoreOps) (v : VecOps) (ch : TileCh) (d : Desc) : List (Instr × EngCmd × (QItem → State → Began × State)) :=
  [(Instr.matmul g h m, EngCmd.matmul m, fun (i : QItem) (s : State) => s.matmul g m i), (.accstore g h a, .accstore a, fun i s => s.accstore g a i)]
        ++ (vecForms g h v).map (fun f => (f.2, EngCmd.vec f.1 v, fun (i : QItem) (s : State) => s.vecRun g f.1 v i))
        ++ [(DescOp.copy, Instr.copyOp (.tile g ch h) d), (.get, .getOp (.tile g ch h) d), (.put, .putOp (.tile g ch h) d),
            (.set, .setOp (.tile g ch h) d), (.clear, .clearOp (.tile g ch h) d), (.parity, .parity (.tile g ch h) d)].map (fun f =>
              (f.2, EngCmd.desc ch f.1 d, fun (i : QItem) (s : State) =>
                let q := s.chan (.tile g ch)
                if i.begun && q.cur.isSome then
                  let r := s.xferGo (.tile g ch)
                  (.ran (match (r.2.chan (.tile g ch)).cur with | none => 0 | some x => x.fault.toNat) (r.1 = .blocked), r.2)
                else if q.held.isSome || q.cur.isSome then (.stands, s)
                else if s.fget (.TDMA_CFG g ch) TDMA_CFG.SHARE = 0 then (.waits, s) else s.descRun (.tile g ch) f.1 d i.stage [] i))
def pick (h : CmdHdr) (k : Nat) : Option (Instr × EngCmd × (QItem → State → Began × State)) := (rows 0 h mo0 ao0 vo0 0 de0)[k]?
def mmItem (h : CmdHdr) (st : Nat) : QItem := { qi (.eng h (.matmul mo0)) with stage := st }

theorem witness_EngineCommandBegins : (
      (pick hdr0 0).any (fun e => decide (bank0.alive = true ∧ bank0.tilePresent 0 = true ∧ ¬ (bank0.rgn 0).quiesce = true ∧ bank0.queue 0 (engQueue e.2.1) = []))
    && (pick hdr0 0).any (fun _ => let s := bank0.modRgn 0 (fun r => { r with quiesce := true }); decide (s.alive = true ∧ s.tilePresent 0 = true ∧ (s.rgn 0).quiesce = true))
    && (pick hdr0 0).any (fun e => let s := full6; let q := engQueue e.2.1; decide (s.alive = true ∧ s.tilePresent 0 = true ∧ s.queueRoom 0 q = false ∧
        ∀ i ∈ s.queue 0 q, i.body ≠ .eng hdr0 e.2.1))
    && (pick hdr0 0).any (fun e => let i := { mmItem hdr0 0 with begun := true, waiting := true, phase := .running }; let q := engQueue e.2.1
        let s := bank0.putQueue 0 1 [i]; decide (s.alive = true ∧ s.tilePresent 0 = true ∧ ¬ (s.rgn 0).quiesce = true ∧ s.queue 0 q = i :: [] ∧ i.begun = true ∧
        i.waiting = true ∧ i.body = .eng hdr0 e.2.1))
    && (pick hdr0 0).any (fun e => let i := mmItem hdr0 9; let q := engQueue e.2.1; let s := es 0 9 0; decide (s.alive = true ∧ s.tilePresent 0 = true ∧
        ¬ (s.rgn 0).quiesce = true ∧ s.queue 0 q = i :: [] ∧ i.phase = .queued ∧ i.begun = false ∧ i.body = .eng hdr0 e.2.1 ∧ s.gateOpen 0 i.stage = false))
    && (pick hdr1 0).any (fun e => let i := mmItem hdr1 0; let q := engQueue e.2.1; let s := es 1 0 0; decide (s.alive = true ∧ s.tilePresent 0 = true ∧
        ¬ (s.rgn 0).quiesce = true ∧ s.queue 0 q = i :: [] ∧ i.phase = .queued ∧ i.begun = false ∧ i.body = .eng hdr1 e.2.1 ∧ s.gateOpen 0 i.stage = true ∧
        hdr1.waitEn = true ∧ s.tallyReached 0 hdr1.waitT hdr1.waitV.toNat = false))
    && (pick hdr1 0).any (fun e => let i := mmItem hdr1 0; let q := engQueue e.2.1; let s := tal6; decide (s.alive = true ∧ s.tilePresent 0 = true ∧
        ¬ (s.rgn 0).quiesce = true ∧ s.queue 0 q = i :: [] ∧ i.phase = .queued ∧ i.begun = false ∧ i.body = .eng hdr1 e.2.1 ∧ s.gateOpen 0 i.stage = true ∧
        (hdr1.waitEn = false ∨ s.tallyReached 0 hdr1.waitT hdr1.waitV.toNat = true)))) = true := by decide +kernel

/-- Of `Obligations.MatrixInteger`. -/
theorem witness_MatmulInteger : (
      (fun (s : State) (g : Gt) (h : CmdHdr) (o : MatmulOps) => decide ((s.alive = true) ∧ (s.engineFree g 1 h) ∧ (o.aFmt = 8) ∧
      (o.bFmt = 8) ∧ (o.aIdx = false) ∧ (o.m = 1) ∧ let n := o.n.toNat; let k := o.k.toNat; (0 < n) ∧ (n ≤ 128) ∧ (0 < k) ∧
      (s.sramBad = []) ∧ ((s.tile g).accBad = []) ∧ (s.clear g 1 o.a.toNat k) ∧ (s.clear g 1 o.b.toNat ((k + 63) / 64 * n * 64))))
      (bank0) (0) hdr0 matmulRow) = true := by decide +kernel

/-- Of `Obligations.MatrixInteger`. -/
theorem witness_AccstoreInteger : (
      (fun (s : State) (g : Gt) (h : CmdHdr) (o : AccstoreOps) => decide ((s.alive = true) ∧ (s.engineFree g 1 h) ∧ (o.accFmt = 11) ∧
      (o.dFmt = 11) ∧ (o.m = 1) ∧ let n := o.n.toNat; (0 < n) ∧ (n ≤ 128) ∧ (o.rmode = 0) ∧ (o.rowbind = 0) ∧ (s.sramBad = []) ∧
      ((s.tile g).accBad = []) ∧ (s.clear g 1 o.d.toNat (4 * n)) ∧ (laView o.d.toNat = 0))) (bank0) (0) hdr0 accstoreRow) = true := by decide +kernel

theorem witness_VectorFloat : (
      (fun (s : State) (g : Gt) (h : CmdHdr) (o : VecOps) => decide ((s.alive = true) ∧ (s.engineFree g 2 h) ∧ (s.sramBad = []) ∧
      (o.rows = 1) ∧ (o.s1Idx = false) ∧ (o.lim = false) ∧ (o.rmode = 0) ∧ (o.rowbind = 0) ∧ (o.dFmt = 0) ∧ (o.dEstride = 1) ∧
      (laView o.d.toNat = 0) ∧ (plainFmt o.s1Fmt) ∧ (plainFmt o.s2Fmt) ∧ (plainFmt o.s3Fmt) ∧ let n := o.count.toNat; (0 < n) ∧ let size := 4 * n; (s.clear g 2 o.d.toNat size) ∧
      ((([(o.s1, o.s1Fmt, o.s1Estride), (o.s2, o.s2Fmt, o.s2Estride), (o.s3, o.s3Fmt, o.s3Estride)].take (srcCount VecOp.add)).all (fun x => decide (x.2.1 = 0 ∧ x.2.2 = 1 ∧ s.clear g 2 x.1.toNat (4 * n) ∧
      disjointLa x.1.toNat (4 * n) o.d.toNat size))) = true))) (bank0) (0) hdr0 vo0) = true := by decide +kernel

theorem witness_VectorInteger : (
      (fun (s : State) (g : Gt) (h : CmdHdr) (o : VecOps) => decide ((s.alive = true) ∧ (s.engineFree g 2 h) ∧ (s.sramBad = []) ∧
      (o.rows = 1) ∧ (o.s1Idx = false) ∧ (o.lim = false) ∧ (o.rmode = 0) ∧ (o.rowbind = 0) ∧ (o.dFmt = 11) ∧ (o.dEstride = 1) ∧
      (laView o.d.toNat = 0) ∧ (plainFmt o.s1Fmt) ∧ (plainFmt o.s2Fmt) ∧ (plainFmt o.s3Fmt) ∧ let n := o.count.toNat; (0 < n) ∧ (s.clear g 2 o.d.toNat (4 * n))
      ∧ ((([(o.s1, o.s1Fmt, o.s1Estride), (o.s2, o.s2Fmt, o.s2Estride)].take (srcCount VecOp.iadd)).all (fun y => decide (y.2.1 = 11 ∧ y.2.2 = 1 ∧ s.clear g 2 y.1.toNat (4 * n) ∧
      disjointLa y.1.toNat (4 * n) o.d.toNat (4 * n)))) = true))) (bank0) (0) hdr0 vecInt) = true := by decide +kernel

theorem witness_VectorRows : (
      (fun (s : State) (g : Gt) (h : CmdHdr) (o : VecOps) => decide ((s.alive = true) ∧ (s.engineFree g 2 h) ∧ (s.sramBad = []) ∧
      (o.rows = 1) ∧ (o.s1Idx = false) ∧ (o.lim = false) ∧ (o.rmode = 0) ∧ (o.rowbind = 0) ∧ (o.dEstride = 1) ∧ (o.s1Estride = 1) ∧
      (laView o.d.toNat = 0) ∧ (plainFmt o.s1Fmt) ∧ (plainFmt o.s2Fmt) ∧ (plainFmt o.s3Fmt) ∧ let n := o.count.toNat; (0 < n) ∧
      let apart (k size : Nat) : Prop := s.clear g 2 o.s1.toNat k ∧ s.clear g 2 o.d.toNat size ∧ disjointLa o.s1.toNat k o.d.toNat size;
      (o.s1Fmt = 0) ∧ (o.dFmt = 11) ∧ (apart (4 * n) 4))) (bank0) (0) hdr0 vecArgmax
    && (fun (s : State) (g : Gt) (h : CmdHdr) (o : VecOps) => decide ((s.alive = true) ∧ (s.engineFree g 2 h) ∧ (s.sramBad = []) ∧
      (o.rows = 1) ∧ (o.s1Idx = false) ∧ (o.lim = false) ∧ (o.rmode = 0) ∧ (o.rowbind = 0) ∧ (o.dEstride = 1) ∧ (o.s1Estride = 1) ∧
      (laView o.d.toNat = 0) ∧ (plainFmt o.s1Fmt) ∧ (plainFmt o.s2Fmt) ∧ (plainFmt o.s3Fmt) ∧ let n := o.count.toNat; (0 < n) ∧
      let apart (k size : Nat) : Prop := s.clear g 2 o.s1.toNat k ∧ s.clear g 2 o.d.toNat size ∧ disjointLa o.s1.toNat k o.d.toNat size;
      (o.s1Fmt = 0) ∧ (o.dFmt = 1) ∧ (apart (4 * n) (2 * n)))) (bank0) (0) hdr0 vecCvt
    && (fun (s : State) (g : Gt) (h : CmdHdr) (o : VecOps) (ix : Nat → Nat) => decide ((s.alive = true) ∧ (s.engineFree g 2 h) ∧
      (s.sramBad = []) ∧ (o.rows = 1) ∧ (o.s1Idx = false) ∧ (o.lim = false) ∧ (o.rmode = 0) ∧ (o.rowbind = 0) ∧ (o.dEstride = 1) ∧
      (o.s1Estride = 1) ∧ (laView o.d.toNat = 0) ∧ (plainFmt o.s1Fmt) ∧ (plainFmt o.s2Fmt) ∧ (plainFmt o.s3Fmt) ∧ let n := o.count.toNat; (0 < n) ∧
      let apart (k size : Nat) : Prop := s.clear g 2 o.s1.toNat k ∧ s.clear g 2 o.d.toNat size ∧ disjointLa o.s1.toNat k o.d.toNat size;
      (o.s1Fmt = 0) ∧ (o.dFmt = 0) ∧ (o.s2Fmt = 11) ∧ (o.s2Estride = 1) ∧ (o.s2.toNat % 4 = 0) ∧ (0 < o.imm0.toInt) ∧
      (s.clear g 2 o.s2.toNat (4 * n)) ∧ (apart (4 * o.imm0.toNat) (4 * n))
      ∧ (disjointLa o.s2.toNat (4 * n) o.d.toNat (4 * n))
      ∧ ((∀ j ∈ List.range n, ix j = s.laNat g o.s2.toNat (4 * j) 4 ∧ ix j < o.imm0.toNat)))) (bank0) (0) hdr0 vecGather (fun _ => 0)
    && (fun (s : State) (g : Gt) (h : CmdHdr) (o : VecOps) => decide ((s.alive = true) ∧ (s.engineFree g 2 h) ∧ (s.sramBad = []) ∧
      (o.rows = 1) ∧ (o.s1Idx = false) ∧ (o.lim = false) ∧ (o.rmode = 0) ∧ (o.rowbind = 0) ∧ (o.dEstride = 1) ∧ (o.s1Estride = 1) ∧
      (laView o.d.toNat = 0) ∧ (plainFmt o.s1Fmt) ∧ (plainFmt o.s2Fmt) ∧ (plainFmt o.s3Fmt) ∧ let n := o.count.toNat; (0 < n) ∧
      let apart (k size : Nat) : Prop := s.clear g 2 o.s1.toNat k ∧ s.clear g 2 o.d.toNat size ∧ disjointLa o.s1.toNat k o.d.toNat size;
      (o.s1Fmt = 0) ∧ (apart (4 * n) 32))) (bank0) (0) hdr0 vecArgmax
    && (fun (s : State) (g : Gt) (h : CmdHdr) (o : VecOps) => decide ((s.alive = true) ∧ (s.engineFree g 2 h) ∧ (s.sramBad = []) ∧
      (o.rows = 1) ∧ (o.s1Idx = false) ∧ (o.lim = false) ∧ (o.rmode = 0) ∧ (o.rowbind = 0) ∧ (o.dEstride = 1) ∧ (o.s1Estride = 1) ∧
      (laView o.d.toNat = 0) ∧ (plainFmt o.s1Fmt) ∧ (plainFmt o.s2Fmt) ∧ (plainFmt o.s3Fmt) ∧ let n := o.count.toNat; (0 < n) ∧
      let apart (k size : Nat) : Prop := s.clear g 2 o.s1.toNat k ∧ s.clear g 2 o.d.toNat size ∧ disjointLa o.s1.toNat k o.d.toNat size;
      (plainFmt o.dFmt) ∧ (apart (32 * n) 32))) (bank0) (0) hdr0 vecArgmax) = true := by decide +kernel

end Engines

namespace Movers
/-! Witnesses of data movers and packets. -/

def it1 (k : Nat) : LandItem := { bank := k, off := 5, view := 1, data := [3, 4], readLen := 0, land_ := none, ack := none, counts := true }
/-- The 64 bytes of a descriptor in a ring, by the table of R262. -/
def descBytes (o : Nat) (d : Desc) : Bytes :=
  toLe 8 d.src.toNat ++ toLe 8 d.dst.toNat ++ toLe 4 d.len.toNat
    ++ toLe 4 (o + d.srcKind.toNat * 16 + d.dstKind.toNat * 64 + b2n d.crec * 256 + b2n d.paged * 512 + b2n d.pageSide * 1024 + d.pgLog2.toNat * 2048 + d.tag.toNat * 65536)
    ++ toLe 4 d.pgTable.toNat ++ toLe 4 d.pgCount.toNat ++ toLe 8 d.notBefore.toNat ++ toLe 8 d.qdst.toNat
    ++ toLe 4 (d.shards.toNat + d.pq.toNat * 32) ++ toLe 4 d.shStride.toNat ++ toLe 8 0
def xf (gets : List (BitVec 32 × Nat)) (fault : Byte) (crec short : Bool) (sk : BitVec 2) : Xfer :=
    { op := .get, d := { de0 with crec := crec, srcKind := sk }, stage := 0, bursts := 0, bytes := 64, fault := fault, split := false, gets := gets, short := short }
def b : State := ioS
/-- The next entry of the channel's ring, entry 1 from address 0, is this descriptor. -/
def inRing (o : Nat) (d : Desc) : State := { b with dram := memWrite b.dram 64 (descBytes o d) }
def farDst : Desc := { de0 with dst := 0x0006400000001000 }
def farSrc : Desc := { de0 with src := 0x0006400000001000, dst := 0x0000400000001000 }
def cur (x : Xfer) : State := { b with idma := [(0, { share := 8, seq := 5, cur := some x })] }
def held : State := { b with idma := [(0, { share := 8, held := some (List.replicate 32 1) })] }
def land (o : Nat) (q : Bool) : State := ((route6 (planS 2)).fset (.BANK_OWN 0 3) BANK_OWN.OWNER o |>.modTile 0 (fun t =>
    { t with landing := [it1 3] })).modRgn 0 (fun r => { r with quiesce := q })

theorem witness_DescriptorsMove : (
      (fun (s : State) (d : Desc) (op : DescOp) (e : Nat) => ([(DescOp.copy, Instr.copyOp (DescAt.io 0 0 []) d), (.get, .getOp (DescAt.io 0 0 []) d), (.put, .putOp (DescAt.io 0 0 []) d), (.set, .setOp (DescAt.io 0 0 []) d), (.clear, .clearOp (DescAt.io 0 0 []) d), (.parity, .parity (DescAt.io 0 0 []) d)][1]?).any (fun x => decide (s.alive = true ∧ s.ioReady 0 0 d = true ∧
      s.ringNames 0 0 op d ∧ s.descCheck (.io 0 0) op d = some e ∧ e < 256 ∧ x.1 = op))) (inRing 1 de0) de0 DescOp.get 4
    && (fun (s : State) (d : Desc) => ([(DescOp.copy, Instr.copyOp (DescAt.io 0 0 []) d), (.get, .getOp (DescAt.io 0 0 []) d), (.put, .putOp (DescAt.io 0 0 []) d), (.set, .setOp (DescAt.io 0 0 []) d), (.clear, .clearOp (DescAt.io 0 0 []) d), (.parity, .parity (DescAt.io 0 0 []) d)][0]?).any (fun x => decide (s.alive = true ∧ s.ioReady 0 0 d = true ∧
      s.dramBad = [] ∧ ¬ s.ringNames 0 0 x.1 d))) b de0
    && (fun (s : State) (d : Desc) => decide (s.alive = true ∧ s.ioReady 0 0 d = true ∧ let n := d.len.toNat; 0 < n ∧ d.rsvOp = none ∧ d.rsvd0 = 0 ∧ d.rsvd1 = 0 ∧ d.paged = false ∧ d.srcKind = 1 ∧ d.dstKind = 1 ∧ s.dramBad = [] ∧
      (∀ e ∈ s.late, e.chan ≠ .io 0 0) ∧ s.ownDram d.src n ∧ s.ownDram d.dst n ∧ 
      let x := gaDram d.src.toNat; let y := gaDram d.dst.toNat; s.ringNames 0 0 .copy d ∧ (x + n ≤ y ∨ y + n ≤ x))) (inRing 0 de0) de0
    && (fun (s : State) (d : Desc) => decide (s.alive = true ∧ s.ioReady 0 0 d = true ∧ let n := d.len.toNat; 0 < n ∧ d.rsvOp = none ∧ d.rsvd0 = 0 ∧ d.rsvd1 = 0 ∧ d.paged = false ∧ d.srcKind = 1 ∧ d.dstKind = 1 ∧ s.dramBad = [] ∧
      (∀ e ∈ s.late, e.chan ≠ .io 0 0) ∧ s.ownDram d.src n ∧ s.ownDram d.dst n ∧ 
      let x := gaDram d.src.toNat; let y := gaDram d.dst.toNat; let q := gaDram d.qdst.toNat; let shard (k : Nat) : Nat := x + k * d.shStride.toNat;
      s.ringNames 0 0 .parity d ∧ d.pq = 3 ∧ d.shards.toNat ≤ 16 ∧ s.ownDram d.qdst n ∧ (y + n ≤ q ∨ q + n ≤ y) ∧
      s.ownDram d.src ((d.shards.toNat - 1) * d.shStride.toNat + n) ∧
      ∀ k ∈ List.range d.shards.toNat, (shard k + n ≤ y ∨ y + n ≤ shard k) ∧ (shard k + n ≤ q ∨ q + n ≤ shard k))) (inRing 5 de0) de0) = true := by decide +kernel

theorem witness_DescriptorsSend : (
      (fun (s : State) (d : Desc) (p : Nat) => ([(Instr.putOp (DescAt.io 0 0 []) d, 3, DescOp.put), (.setOp (DescAt.io 0 0 []) d, 4, .set), (.clearOp (DescAt.io 0 0 []) d, 5, .clear)][0]?).any (fun x => decide (s.alive = true ∧ s.ioReady 0 0 d = true ∧ d.rsvOp = none ∧ d.rsvd0 = 0 ∧ d.rsvd1 = 0 ∧ d.paged = false ∧ d.srcKind = 1 ∧ d.dstKind = 1 ∧
      0 < d.len.toNat ∧ d.len.toNat ≤ 4096 ∧ s.dramBad = [] ∧ (∀ e ∈ s.late, e.chan ≠ .io 0 0) ∧ 
      s.ringNames 0 0 x.2.2 d ∧ s.ownDram d.src d.len.toNat ∧ gaModule d.dst.toNat ≠ s.self ∧ gaSpace d.dst.toNat < 2 ∧ s.routesTo (gaModule d.dst.toNat) p))) (inRing 2 farDst) farDst 0
    && (fun (s : State) (d : Desc) (p : Nat) => decide (s.alive = true ∧ s.ioReady 0 0 d = true ∧ d.rsvOp = none ∧ d.rsvd0 = 0 ∧ d.rsvd1 = 0 ∧ d.paged = false ∧ d.srcKind = 1 ∧ d.dstKind = 1 ∧
      0 < d.len.toNat ∧ d.len.toNat ≤ 4096 ∧ s.dramBad = [] ∧ (∀ e ∈ s.late, e.chan ≠ .io 0 0) ∧ 
      s.ringNames 0 0 .get d ∧ s.ownDram d.dst d.len.toNat ∧ gaModule d.src.toNat ≠ s.self ∧ gaSpace d.src.toNat < 2 ∧ s.routesTo (gaModule d.src.toNat) p)) (inRing 1 farSrc) farSrc 0) = true := by decide +kernel

theorem witness_DescriptorEnds : (
      decide (State.reset.alive = true ∧ (State.reset.chan (.io 0 0)).cur = none)
    && (fun (s : State) (x : Xfer) => decide (s.alive = true ∧ (s.chan (.io 0 0)).cur = some x ∧ let ready := x.todo = [] ∧ x.landing = 0 ∧ x.asked = false ∧ (x.fault ≠ 0 ∨ (x.short = false ∧ x.bursts = 0 ∧ x.gets = [])); ready ∧ x.fault = 0)) (cur (xf [] 0 false false 1)) (xf [] 0 false false 1)
    && (fun (s : State) (x : Xfer) => decide (s.alive = true ∧ (s.chan (.io 0 0)).cur = some x ∧ let ready := x.todo = [] ∧ x.landing = 0 ∧ x.asked = false ∧ (x.fault ≠ 0 ∨ (x.short = false ∧ x.bursts = 0 ∧ x.gets = [])); ready ∧ x.fault ≠ 0 ∧ x.d.crec = false)) (cur (xf [] 4 false false 1)) (xf [] 4 false false 1)
    && (fun (s : State) (x : Xfer) => decide (s.alive = true ∧ (s.chan (.io 0 0)).cur = some x ∧ let ready := x.todo = [] ∧ x.landing = 0 ∧ x.asked = false ∧ (x.fault ≠ 0 ∨ (x.short = false ∧ x.bursts = 0 ∧ x.gets = [])); ¬ ready)) (cur (xf [(5, 0x400000001000)] 0 true false 1)) (xf [(5, 0x400000001000)] 0 true false 1)
    && (fun (s : State) (x : Xfer) => decide (s.alive = true ∧ (s.chan (.io 0 0)).cur = some x ∧ let ready := x.todo = [] ∧ x.landing = 0 ∧ x.asked = false ∧ (x.fault ≠ 0 ∨ (x.short = false ∧ x.bursts = 0 ∧ x.gets = [])); (0 : Iod).val < 2 ∧ x.d.srcKind = 2)) (cur (xf [] 0 true false 2)) (xf [] 0 true false 2)
    && (fun (s : State) (x : Xfer) => decide (s.alive = true ∧ (s.chan (.io 0 0)).cur = some x ∧ let ready := x.todo = [] ∧ x.landing = 0 ∧ x.asked = false ∧ (x.fault ≠ 0 ∨ (x.short = false ∧ x.bursts = 0 ∧ x.gets = [])); (2 ≤ (0 : Iod).val ∨ x.d.srcKind ≠ 2))) (cur (xf [] 0 false false 1)) (xf [] 0 false false 1)
    && decide (held.alive = true ∧ (held.chan (.io 0 0)).held = some (List.replicate 32 1))
    && decide (State.reset.alive = true ∧ (State.reset.chan (.io 0 0)).held = none)
    && (fun (s : State) (t : Fin 256) => decide (s.alive = true ∧ wheelSlot ((List.range 32).map (fun k => (tget {} s.idma k).share)) t = none)) b 1
    && (fun (s : State) (t : Fin 256) => decide (s.alive = true ∧ wheelSlot ((List.range 32).map (fun k => (tget {} s.idma k).share)) t = some 0 ∧
        (s.chan (.io 0 0)).cur = none)) b 0
    && (fun (s : State) (t : Fin 256) (x : Xfer) => decide (s.alive = true ∧ wheelSlot ((List.range 32).map (fun k => (tget {} s.idma k).share)) t = some 0 ∧
        (s.chan (.io 0 0)).cur = some x ∧ x.fault ≠ 0)) (cur (xf [] 4 false false 1)) 0 (xf [] 4 false false 1)
    && (fun (s : State) (t : Fin 256) (x : Xfer) => decide (s.alive = true ∧ wheelSlot ((List.range 32).map (fun k => (tget {} s.idma k).share)) t = some 0 ∧
        (s.chan (.io 0 0)).cur = some x ∧ x.fault = 0 ∧ x.todo = [] ∧ x.op ≠ .get)) (cur { xf [] 0 false false 1 with op := .copy }) 0 { xf [] 0 false false 1 with op := .copy }
    && (fun (s : State) (t : Fin 256) (x : Xfer) (b : Bytes) (at_ : Nat) => decide (s.alive = true ∧ wheelSlot ((List.range 32).map (fun k => (tget {} s.idma k).share)) t = some 0 ∧
        (s.chan (.io 0 0)).cur = some x ∧ x.fault = 0 ∧ x.todo = [] ∧ x.op = .get ∧ x.inq = [(5, b, 1)] ∧ x.gets = [(5, at_)] ∧ x.d.dstKind = 1 ∧ gaSpace at_ = 1 ∧ s.dramBad = []))
      (cur { xf [(5, 0x400000001000)] 0 true false 1 with inq := [(5, [1, 2, 3], 1)] }) 0 { xf [(5, 0x400000001000)] 0 true false 1 with inq := [(5, [1, 2, 3], 1)] } [1, 2, 3] 0x400000001000) = true := by decide +kernel

/-- Of `Obligations.OwnerWrites`. -/
theorem witness_ChannelWrites : (
      (fun (s : State) (i : Iod) (ch : IoCh) (a : Acc) => (([Instr.idmaRun i ch a, .idmaStop i ch a, .idmaShareWrite i ch a])[0]?).any (fun c => decide ((s.alive = true) ∧
      (s.mayWrite a.by_ = true) ∧ let r := Reg.IDMA_CTRL i ch; let v := r.info.write (s.reg r) a; let share := IDMA_CTRL.SHARE.get v;
      let total := s.shareTotal i - s.fget r IDMA_CTRL.SHARE + share; ((256 < share ∨ (s.fget r IDMA_CTRL.SHARE < share ∧ s.fget (.IDMA_SUM i) IDMA_SUM.LIMIT < total)))))) (State.reset) (0) (0) ({ by_ := Writer.steward, size := Sz.full, val := 0xfffffffffffffff0#64 })
    && (fun (s : State) (i : Iod) (ch : IoCh) (a : Acc) => (([Instr.idmaRun i ch a, .idmaStop i ch a, .idmaShareWrite i ch a])[0]?).any (fun c => decide ((s.alive = true) ∧
      (s.mayWrite a.by_ = true) ∧ let r := Reg.IDMA_CTRL i ch; let v := r.info.write (s.reg r) a; let share := IDMA_CTRL.SHARE.get v;
      let total := s.shareTotal i - s.fget r IDMA_CTRL.SHARE + share; ((256 < share ∨ (s.fget r IDMA_CTRL.SHARE < share ∧ s.fget (.IDMA_SUM i) IDMA_SUM.LIMIT < total))))))
      (b.fset (.IDMA_SUM 0) IDMA_SUM.LIMIT 9) (0) (0) ({ by_ := Writer.host 0, size := Sz.full, val := 0x0000000000001001#64 })
    && (fun (s : State) (i : Iod) (ch : IoCh) (a : Acc) => (([Instr.idmaRun i ch a, .idmaStop i ch a, .idmaShareWrite i ch a])[0]?).any (fun c => decide ((s.alive = true) ∧
      (s.mayWrite a.by_ = true) ∧ let r := Reg.IDMA_CTRL i ch; let v := r.info.write (s.reg r) a; let share := IDMA_CTRL.SHARE.get v;
      let total := s.shareTotal i - s.fget r IDMA_CTRL.SHARE + share;
      let bound (n t e : Nat) : Prop := s.fget (.RING_CFG n) RING_CFG.TYPE = t ∧ s.fget (.RING_CFG n) RING_CFG.ESIZE = e;
      let rings := bound (s.fget (.IDMA_RINGS i ch) IDMA_RINGS.DRING) 5 2 ∧ bound (s.fget (.IDMA_RINGS i ch) IDMA_RINGS.CRING) 3 0;
      (share ≤ 256) ∧ ((share ≤ s.fget r IDMA_CTRL.SHARE ∨ total ≤ s.fget (.IDMA_SUM i) IDMA_SUM.LIMIT)) ∧ (a.size ≠ .hi) ∧
      (IDMA_CTRL.RUN.get v = 1) ∧ (¬ rings))))
      (b.setReg (.IDMA_RINGS 0 0) 0 |>.fset (.IDMA_CTRL 0 0) IDMA_CTRL.RUN 0) (0) (0) ({ by_ := Writer.host 0, size := Sz.full, val := 0x0000000000000801#64 })
    && (fun (s : State) (i : Iod) (ch : IoCh) (a : Acc) => (([Instr.idmaRun i ch a, .idmaStop i ch a, .idmaShareWrite i ch a])[0]?).any (fun c => decide ((s.alive = true) ∧
      (s.mayWrite a.by_ = true) ∧ let r := Reg.IDMA_CTRL i ch; let v := r.info.write (s.reg r) a; let share := IDMA_CTRL.SHARE.get v;
      let total := s.shareTotal i - s.fget r IDMA_CTRL.SHARE + share;
      let bound (n t e : Nat) : Prop := s.fget (.RING_CFG n) RING_CFG.TYPE = t ∧ s.fget (.RING_CFG n) RING_CFG.ESIZE = e;
      let rings := bound (s.fget (.IDMA_RINGS i ch) IDMA_RINGS.DRING) 5 2 ∧ bound (s.fget (.IDMA_RINGS i ch) IDMA_RINGS.CRING) 3 0;
      (share ≤ 256) ∧ ((share ≤ s.fget r IDMA_CTRL.SHARE ∨ total ≤ s.fget (.IDMA_SUM i) IDMA_SUM.LIMIT))
      ∧ ((a.size = .hi ∨ IDMA_CTRL.RUN.get v ≠ 1 ∨ rings)))))
      (b) (0) (0) ({ by_ := Writer.host 0, size := Sz.full, val := 0x0000000000000000#64 })) = true := by decide +kernel

theorem witness_RequestPackets : (
      (fun (s : State) (p : Port) (k : Packet) => (([(Instr.getRequestPacket p k, 1, 0), (.putPacket p k, 3, 0), (.setPacket p k, 4, 1), (.clearPacket p k, 5, 2)])[1]?).any (fun x => decide ((s.alive = true) ∧
      (s.dramBad = []) ∧ let a := k.hdr.ga.toNat; let valid := s.flag .ROUTE_SELF ROUTE_SELF.SELF_VALID = true;
      let mine := valid ∧ gaModule a = s.self ∧ gaSpace a = 1 ∧ gaZeros a = true; (k.hdr.opc.toNat = x.2.1) ∧
      let n := if x.2.1 = 1 then k.hdr.length.toNat else k.payload.length; (mine) ∧ (gaDram a + n ≤ dramSize) ∧ (x.2.1 ≠ 1))))
      (b) (0) ({ hdr := { ga := 0x0000400000000010#64, reply := 0x0006400000000100#64, src := 0x0006#16, opc := 0x03#8, flags := 0x00#8, length := 0x0000#16, issuer := 0x0000#16, seq := 0x00000000#32, land_ := 0x00000000#32 }, payload := [0x01#8, 0x02#8, 0x03#8] })
    && (fun (s : State) (p : Port) (k : Packet) => (([(Instr.getRequestPacket p k, 1, 0), (.putPacket p k, 3, 0), (.setPacket p k, 4, 1), (.clearPacket p k, 5, 2)])[0]?).any (fun x => decide ((s.alive = true) ∧
      (s.dramBad = []) ∧ let a := k.hdr.ga.toNat; let valid := s.flag .ROUTE_SELF ROUTE_SELF.SELF_VALID = true;
      let mine := valid ∧ gaModule a = s.self ∧ gaSpace a = 1 ∧ gaZeros a = true; (k.hdr.opc.toNat = x.2.1) ∧
      let n := if x.2.1 = 1 then k.hdr.length.toNat else k.payload.length; (mine) ∧ (gaDram a + n ≤ dramSize) ∧ (x.2.1 = 1))))
      (b) (0) ({ hdr := { ga := 0x0000400000000010#64, reply := 0x0006400000000100#64, src := 0x0006#16, opc := 0x01#8, flags := 0x00#8, length := 0x0003#16, issuer := 0x0000#16, seq := 0x00000000#32, land_ := 0x00000000#32 }, payload := [] })
    && (fun (s : State) (p : Port) (k : Packet) => (([(Instr.getRequestPacket p k, 1, 0), (.putPacket p k, 3, 0), (.setPacket p k, 4, 1), (.clearPacket p k, 5, 2)])[0]?).any (fun x => decide ((s.alive = true) ∧
      (s.dramBad = []) ∧ let a := k.hdr.ga.toNat; let valid := s.flag .ROUTE_SELF ROUTE_SELF.SELF_VALID = true;
      let mine := valid ∧ gaModule a = s.self ∧ gaSpace a = 1 ∧ gaZeros a = true; (k.hdr.opc.toNat = x.2.1) ∧
      let n := if x.2.1 = 1 then k.hdr.length.toNat else k.payload.length; (mine) ∧ (dramSize < gaDram a + n))))
      (b) (0) ({ hdr := { ga := 0x000040ffffffffff#64, reply := 0x0006400000000100#64, src := 0x0006#16, opc := 0x01#8, flags := 0x00#8, length := 0x0003#16, issuer := 0x0000#16, seq := 0x00000000#32, land_ := 0x00000000#32 }, payload := [] })
    && (fun (s : State) (p : Port) (k : Packet) => (([(Instr.getRequestPacket p k, 1, 0), (.putPacket p k, 3, 0), (.setPacket p k, 4, 1), (.clearPacket p k, 5, 2)])[0]?).any (fun x => decide ((s.alive = true) ∧
      (s.dramBad = []) ∧ let a := k.hdr.ga.toNat; let valid := s.flag .ROUTE_SELF ROUTE_SELF.SELF_VALID = true; (k.hdr.opc.toNat = x.2.1) ∧
      (valid) ∧ (gaModule a ≠ s.self) ∧ (s.isGroup (gaModule a) = false))))
      (b) (0) ({ hdr := { ga := 0x0006400000000010#64, reply := 0x0006400000000100#64, src := 0x0006#16, opc := 0x01#8, flags := 0x00#8, length := 0x0003#16, issuer := 0x0000#16, seq := 0x00000000#32, land_ := 0x00000000#32 }, payload := [] })
    && (fun (s : State) (p : Port) (k : Packet) => (([(Instr.getRequestPacket p k, 1, 0), (.putPacket p k, 3, 0), (.setPacket p k, 4, 1), (.clearPacket p k, 5, 2)])[0]?).any (fun x => decide ((s.alive = true) ∧
      (s.dramBad = []) ∧ let valid := s.flag .ROUTE_SELF ROUTE_SELF.SELF_VALID = true; (k.hdr.opc.toNat = x.2.1) ∧ (¬ valid))))
      (State.reset) (0) ({ hdr := { ga := 0x0000400000000010#64, reply := 0x0006400000000100#64, src := 0x0006#16, opc := 0x01#8, flags := 0x00#8, length := 0x0003#16, issuer := 0x0000#16, seq := 0x00000000#32, land_ := 0x00000000#32 }, payload := [] })) = true := by decide +kernel

/-- Of `Obligations.RequestPackets`. -/
theorem witness_RemoteLanding : (
      (fun (s : State) (g : Gt) (it : LandItem) => decide ((s.alive = true) ∧ (it.readLen = 0) ∧ (it.counts = true) ∧ (it.land_ = none) ∧
      (it.ack = none) ∧ (it.aper = none) ∧ (it.chan = none) ∧ (s.sramBad = []) ∧ (s.lockOn = false) ∧ let own := s.ownCheck g it.bank 7;
      let quiet := (s.rgn (g / 8)).quiesce; (quiet = false) ∧ (own = .ok) ∧ ((s.tile g).landing = [it])))
      (land 7 false) (0) (it1 3)
    && (fun (s : State) (g : Gt) (it : LandItem) => decide ((s.alive = true) ∧ (it.readLen = 0) ∧ (it.counts = true) ∧ (it.land_ = none) ∧
      (it.ack = none) ∧ (it.aper = none) ∧ (it.chan = none) ∧ (s.sramBad = []) ∧ (s.lockOn = false) ∧ let own := s.ownCheck g it.bank 7;
      let quiet := (s.rgn (g / 8)).quiesce; ((quiet = true ∨ own = .wait)) ∧ ((s.tile g).landing = [it])))
      (land 7 true) (0) (it1 3)
    && (fun (s : State) (g : Gt) (it : LandItem) => decide ((s.alive = true) ∧ (it.readLen = 0) ∧ (it.counts = true) ∧ (it.land_ = none) ∧
      (it.ack = none) ∧ (it.aper = none) ∧ (it.chan = none) ∧ (s.sramBad = []) ∧ (s.lockOn = false) ∧ ((s.tile g).landing = [])))
      (State.reset) (0) (it1 3)
    && (fun (s : State) (g : Gt) (it : LandItem) (e : Nat) => decide (s.alive = true ∧ it.readLen = 0 ∧ it.counts = true ∧ it.land_ = none ∧ it.ack = none ∧ it.aper = none ∧ it.chan = none ∧ s.sramBad = [] ∧ s.lockOn = false ∧ (s.rgn (g / 8)).quiesce = false ∧ s.ownCheck g it.bank 7 = .refused e))
      (land 0 false) 0 (it1 3) 0x01) = true := by decide +kernel

theorem witness_AnswerPackets : (
      (fun (s : State) (k : Packet) (c : ChanId) => decide (s.alive = true ∧ s.flag .ROUTE_SELF ROUTE_SELF.SELF_VALID = true ∧ gaModule k.hdr.ga.toNat = s.self ∧ let o := k.hdr.opc.toNat; chanOf k.hdr.issuer.toNat = some c ∧ o = 6)) b ({ hdr := { hdrP 6 0x400000000010 0 0 0 with src := 6 }, payload := [] }) (.tile 0 0)
    && (fun (s : State) (k : Packet) (c : ChanId) (n : Nat) => decide (s.alive = true ∧ s.flag .ROUTE_SELF ROUTE_SELF.SELF_VALID = true ∧ gaModule k.hdr.ga.toNat = s.self ∧ let o := k.hdr.opc.toNat; chanOf k.hdr.issuer.toNat = some c ∧ (s.chan c).open_ = [(k.hdr.seq, n)]))
      { b with idma := [(0, { open_ := [(7, 2)] })] } ({ hdr := { hdrP 6 0x400000000010 0 0x8000 7 with src := 6 }, payload := [] }) (.io 0 0) 2
    && (fun (s : State) (k : Packet) (c : ChanId) => decide (s.alive = true ∧ s.flag .ROUTE_SELF ROUTE_SELF.SELF_VALID = true ∧ gaModule k.hdr.ga.toNat = s.self ∧ let o := k.hdr.opc.toNat; chanOf k.hdr.issuer.toNat = some c ∧ o = 7 ∧ (s.chan c).cur = none)) b ({ hdr := { hdrP 7 0x400000000010 2 0 0 with src := 6 }, payload := [] }) (.tile 0 0)
    && (fun (s : State) (k : Packet) (c : ChanId) (x : Xfer) (at_ : Nat) => decide (s.alive = true ∧ s.flag .ROUTE_SELF ROUTE_SELF.SELF_VALID = true ∧ gaModule k.hdr.ga.toNat = s.self ∧ let o := k.hdr.opc.toNat; chanOf k.hdr.issuer.toNat = some c ∧ o = 7 ∧ (s.chan c).cur = some x ∧ (k.hdr.seq, at_) ∈ x.gets))
      (cur (xf [(5, 0x400000001000)] 0 true false 1)) ({ hdr := { hdrP 7 0x400000000010 2 0x8000 5 with src := 6 }, payload := [] }) (.io 0 0) (xf [(5, 0x400000001000)] 0 true false 1) 0x400000001000
    && (fun (s : State) (k : Packet) (c : ChanId) => decide (s.alive = true ∧ s.flag .ROUTE_SELF ROUTE_SELF.SELF_VALID = true ∧ gaModule k.hdr.ga.toNat = s.self ∧ let o := k.hdr.opc.toNat; chanOf k.hdr.issuer.toNat = some c ∧ o = 2 ∧ (s.chan c).cur = none)) b ({ hdr := { hdrP 2 0x400000000010 0 0 0 with src := 6 }, payload := [1, 2, 3] }) (.tile 0 0)
    && (fun (s : State) (k : Packet) (c : ChanId) (x : Xfer) => decide (s.alive = true ∧ s.flag .ROUTE_SELF ROUTE_SELF.SELF_VALID = true ∧ gaModule k.hdr.ga.toNat = s.self ∧ let o := k.hdr.opc.toNat; chanOf k.hdr.issuer.toNat = some c ∧ o = 2 ∧ (s.chan c).cur = some x ∧ ∀ e ∈ x.gets, e.1 ≠ k.hdr.seq))
      (cur (xf [(5, 0x400000001000)] 0 true false 1)) ({ hdr := { hdrP 2 0x400000000010 0 0x8000 6 with src := 6 }, payload := [1, 2, 3] }) (.io 0 0) (xf [(5, 0x400000001000)] 0 true false 1)
    && (fun (s : State) (k : Packet) (c : ChanId) (x : Xfer) (at_ : Nat) => decide (s.alive = true ∧ s.flag .ROUTE_SELF ROUTE_SELF.SELF_VALID = true ∧ gaModule k.hdr.ga.toNat = s.self ∧ let o := k.hdr.opc.toNat; chanOf k.hdr.issuer.toNat = some c ∧ o = 2 ∧ (s.chan c).cur = some x ∧
        (k.hdr.seq, at_) ∈ x.gets ∧ ∀ e ∈ x.inq, e.1 ≠ k.hdr.seq))
      (cur (xf [(5, 0x400000001000)] 0 true false 1)) ({ hdr := { hdrP 2 0x400000000010 0 0x8000 5 with src := 6 }, payload := [1, 2, 3] }) (.io 0 0) (xf [(5, 0x400000001000)] 0 true false 1) 0x400000001000
    && (fun (s : State) (k : Packet) => decide (s.alive = true ∧ s.flag .ROUTE_SELF ROUTE_SELF.SELF_VALID = true ∧ gaModule k.hdr.ga.toNat = s.self ∧ let o := k.hdr.opc.toNat; (o = 0 ∨ 8 < o))) b ({ hdr := { hdrP 0 0x400000000010 0 0 0 with src := 6 }, payload := [1, 2, 3] })) = true := by decide +kernel

end Movers

namespace Links
/-! Witnesses of the Volbago Link. -/

def pc (d : Bytes) : Parcel := { data := d, first := true, last := true }
def tp (d : Bytes) (pl : Option (Nat × Nat)) : TxParcel := { parcel := pc d, planned := pl, part := none }
def rp (sq : BitVec 16) (retx : Nat) (qd : Bool) : Replay :=
    { seq := sq, parcel := pc [1,2,3], retx := retx, acked := false, queued := qd, order := 0 }
def lk : State :=
  let s := route6 base4
  let s := { s with img := { imgA with roles := List.replicate 16 1 } }
  ((s.setReg (.VBL_PATTERN0 0) 0b11100100).fset (.VBL_SLOTS 0) VBL_SLOTS.PLEN 4).fset (.VBL_CTRL 0) VBL_CTRL.ENABLE 1
def lkp (f : PortSt → PortSt) : State := lk.modPort 0 f
def tx (s : State) (n c : Nat) : State := (s.fset (.VBL_TX 0) VBL_TX.NEXT n).fset (.VBL_TX 0) VBL_TX.CRED c
def init : State := lk.fset (.VBL_STATUS 0) VBL_STATUS.STATE 2
def tr : State := lk.fset (.VBL_STATUS 0) VBL_STATUS.STATE 1
def c : State := lkp (fun t => { t with ctlDue := true })
def r : State := lkp (fun t => { t with replay := [rp 4 2 true] })
def r0 : State := tx (lkp (fun t => { t with replay := [rp 4 2 false] })) 5 3
def r8 : State := lkp (fun t => { t with replay := [rp 4 8 false] })
def q : State := lkp (fun t => { t with txLate := [tp [9] none, tp [8] none], txService := [tp [7] none], txAnswer := [tp [6] none] })
def pl (n : Nat) : State := tx ((lkp (fun t => { t with txPlan := [tp [5] (some (0, 3))] }))) n 3
def plNone : State := tx ((lkp (fun t => { t with txPlan := [tp [5] none] }))) 4 3
def looped : State := tx (lkp (fun t => { t with loop := true })) 1 0
/-- A moment within the stage in progress. -/
def z3 : TimeIn := { ns := 3, frac := 7 }
def frames (s r : State) (f : Frame) : List (Instr × Nat × State) :=
  [(.idleFrame 0 f, 0, s.fresh), (.dataFrame 0 f, 1, s.fresh), (.controlFrame 0 f z3, 2, r), (.probeFrame 0 f z3, 3, r), (.calFrame 0 f 3, 4, s.fresh),
    (.initFrame 0 f, 5, s.fresh), (.reservedKindFrame 0 f, 6, s.fresh)]
def fr (k : Byte) (seq ep : BitVec 16) (fl : Byte) (body : List Nat) : Frame := withCrc
    { seq := seq, kind := k, flags := fl, valid := 3, epoch := ep, stage := 0, slot := 0, body := padTo 256 (body.map (BitVec.ofNat 8)), crc := 0 }

theorem witness_SlotsCarryFrames : (
      (fun (s : State) (x : SlotIn) => decide (s.alive = true ∧ let n := x.slot.toNat; let here := s.portPresent 0 = true ∧ s.locked 0 = true ∧ n < s.fget (.VBL_SLOTS 0) VBL_SLOTS.S;
      let q := s.port 0; let room := s.outstanding 0 < 16384; (¬ here ∨ (s.lstate 0 ≠ 2 ∧ s.lstate 0 ≠ 3)))) (State.reset) { slot := 0 }
    && (fun (s : State) (x : SlotIn) => decide (s.alive = true ∧ let n := x.slot.toNat; let here := s.portPresent 0 = true ∧ s.locked 0 = true ∧ n < s.fget (.VBL_SLOTS 0) VBL_SLOTS.S;
      let q := s.port 0; let room := s.outstanding 0 < 16384; here ∧ q.loop = false ∧ s.lstate 0 = 2)) (init) { slot := 0 }
    && (fun (s : State) (x : SlotIn) => decide (s.alive = true ∧ let n := x.slot.toNat; let here := s.portPresent 0 = true ∧ s.locked 0 = true ∧ n < s.fget (.VBL_SLOTS 0) VBL_SLOTS.S;
      let q := s.port 0; let room := s.outstanding 0 < 16384; here ∧ q.loop = false ∧ s.lstate 0 = 3 ∧ q.txPlan = [] ∧ s.slotClass 0 n = 0 ∧ q.ctlDue = true ∧ q.sackFrom = none)) (c) { slot := 0 }
    && (fun (s : State) (x : SlotIn) => decide (s.alive = true ∧ let n := x.slot.toNat; let here := s.portPresent 0 = true ∧ s.locked 0 = true ∧ n < s.fget (.VBL_SLOTS 0) VBL_SLOTS.S;
      let q := s.port 0; let room := s.outstanding 0 < 16384; here ∧ q.loop = false ∧ s.lstate 0 = 3 ∧ q.txPlan = [] ∧ s.slotClass 0 n = 0 ∧ q.ctlDue = false ∧ q.sackFrom = none ∧ q.replay = [rp 4 2 true] ∧ (rp 4 2 true).queued = true)) (r) { slot := 0 }
    && (fun (s : State) (x : SlotIn) => decide (s.alive = true ∧ let n := x.slot.toNat; let here := s.portPresent 0 = true ∧ s.locked 0 = true ∧ n < s.fget (.VBL_SLOTS 0) VBL_SLOTS.S;
      let q := s.port 0; let room := s.outstanding 0 < 16384; here ∧ q.loop = false ∧ s.lstate 0 = 3 ∧ q.txPlan = [] ∧ s.slotClass 0 n = 0 ∧ q.ctlDue = false ∧ q.sackFrom = none ∧ (∀ r ∈ q.replay, r.queued = false) ∧ q.probeDue = false ∧ q.calDue = false)) (tx lk 1 0) { slot := 0 }
    && (fun (s : State) (x : SlotIn) => decide (s.alive = true ∧ let n := x.slot.toNat; let here := s.portPresent 0 = true ∧ s.locked 0 = true ∧ n < s.fget (.VBL_SLOTS 0) VBL_SLOTS.S;
      let q := s.port 0; let room := s.outstanding 0 < 16384; here ∧ q.loop = false ∧ s.lstate 0 = 3 ∧ q.txPlan = [] ∧ s.slotClass 0 n = 1 ∧ q.txLate = tp [9] none :: [tp [8] none] ∧ room)) (tx q 5 4) { slot := 1 }
    && (fun (s : State) (x : SlotIn) => decide (s.alive = true ∧ let n := x.slot.toNat; let here := s.portPresent 0 = true ∧ s.locked 0 = true ∧ n < s.fget (.VBL_SLOTS 0) VBL_SLOTS.S;
      let q := s.port 0; let room := s.outstanding 0 < 16384; here ∧ q.loop = false ∧ s.lstate 0 = 3 ∧ q.txPlan = [] ∧ s.slotClass 0 n = 2 ∧ q.txService = tp [7] none :: [] ∧ room)) (tx q 5 4) { slot := 2 }
    && (fun (s : State) (x : SlotIn) => decide (s.alive = true ∧ let n := x.slot.toNat; let here := s.portPresent 0 = true ∧ s.locked 0 = true ∧ n < s.fget (.VBL_SLOTS 0) VBL_SLOTS.S;
      let q := s.port 0; let room := s.outstanding 0 < 16384; here ∧ q.loop = false ∧ s.lstate 0 = 3 ∧ q.txPlan = [] ∧ s.slotClass 0 n = 3 ∧ x.assigned = false ∧ q.txAnswer = tp [6] none :: [] ∧ room)) (tx q 5 4) { slot := 3, assigned := false }
    && (fun (s : State) (x : SlotIn) => decide (s.alive = true ∧ let n := x.slot.toNat; let here := s.portPresent 0 = true ∧ s.locked 0 = true ∧ n < s.fget (.VBL_SLOTS 0) VBL_SLOTS.S;
      let q := s.port 0; let room := s.outstanding 0 < 16384; here ∧ q.loop = false ∧ s.lstate 0 = 3 ∧ q.txPlan = [] ∧ s.slotClass 0 n = 1 ∧ q.txLate = [])) (tx lk 1 0) { slot := 1 }
    && (fun (s : State) (x : SlotIn) => decide (s.alive = true ∧ let n := x.slot.toNat; let here := s.portPresent 0 = true ∧ s.locked 0 = true ∧ n < s.fget (.VBL_SLOTS 0) VBL_SLOTS.S;
      let q := s.port 0; let room := s.outstanding 0 < 16384; here ∧ q.loop = false ∧ s.lstate 0 = 3 ∧ q.txPlan = [] ∧ s.slotClass 0 n = 2 ∧ q.txService = [])) (tx lk 1 0) { slot := 2 }
    && (fun (s : State) (x : SlotIn) => decide (s.alive = true ∧ let n := x.slot.toNat; let here := s.portPresent 0 = true ∧ s.locked 0 = true ∧ n < s.fget (.VBL_SLOTS 0) VBL_SLOTS.S;
      let q := s.port 0; let room := s.outstanding 0 < 16384; here ∧ q.loop = false ∧ s.lstate 0 = 3 ∧ q.txPlan = [] ∧ s.slotClass 0 n = 3 ∧ (q.txAnswer = [] ∨ x.assigned = true))) (tx q 5 4) { slot := 3, assigned := true }
    && (fun (s : State) (x : SlotIn) => decide (s.alive = true ∧ let n := x.slot.toNat; let here := s.portPresent 0 = true ∧ s.locked 0 = true ∧ n < s.fget (.VBL_SLOTS 0) VBL_SLOTS.S;
      let q := s.port 0; let room := s.outstanding 0 < 16384; here ∧ q.loop = false ∧ s.lstate 0 = 3 ∧ s.slotClass 0 n = 3 ∧ q.txPlan = [tp [5] none] ∧ (tp [5] none).planned = none ∧ room ∧ x.assigned = false)) (plNone) { slot := 3, assigned := false }
    && (fun (s : State) (x : SlotIn) => decide (s.alive = true ∧ let n := x.slot.toNat; let here := s.portPresent 0 = true ∧ s.locked 0 = true ∧ n < s.fget (.VBL_SLOTS 0) VBL_SLOTS.S;
      let q := s.port 0; let room := s.outstanding 0 < 16384; here ∧ q.loop = false ∧ s.lstate 0 = 3 ∧ s.slotClass 0 n = 3 ∧ q.txPlan = [tp [5] none] ∧ (tp [5] none).planned = none ∧ x.assigned = true)) (plNone) { slot := 3, assigned := true }
    && (fun (s : State) (x : SlotIn) => decide (s.alive = true ∧ let n := x.slot.toNat; let here := s.portPresent 0 = true ∧ s.locked 0 = true ∧ n < s.fget (.VBL_SLOTS 0) VBL_SLOTS.S;
      let q := s.port 0; let room := s.outstanding 0 < 16384; here ∧ q.loop = false ∧ s.lstate 0 = 3 ∧ s.slotClass 0 n = 3 ∧ q.txPlan = [tp [5] (some (0, 3))] ∧ some (0, 3) = some (s.stage, n) ∧ room)) (pl 4) { slot := 3 }
    && (fun (s : State) (x : SlotIn) => decide (s.alive = true ∧ let n := x.slot.toNat; let here := s.portPresent 0 = true ∧ s.locked 0 = true ∧ n < s.fget (.VBL_SLOTS 0) VBL_SLOTS.S;
      let q := s.port 0; let room := s.outstanding 0 < 16384; here ∧ q.loop = false ∧ s.lstate 0 = 3 ∧ s.slotClass 0 n = 3 ∧ q.txPlan = [tp [5] (some (0, 3))] ∧ some (0, 3) = some (s.stage, n) ∧ ¬ room ∧ q.txLate = [])) (pl 16400) { slot := 3 }) = true := by decide +kernel

theorem witness_FramesReceived : (
      (fun (s : State) (f : Frame) => (s.fresh.advance z3).any (fun r => ((frames s r f)[0]?).any (fun x => decide (s.alive = true ∧ let q := s.port 0; let heard := s.portPresent 0 = true ∧ s.locked 0 = true ∧ s.lstate 0 ≠ 0 ∧ s.lstate 0 ≠ 4;
      let open_ := heard ∧ q.loop = false; let kind := f.kind.toNat % 16; let good := open_ ∧ frameCrcOk f = true ∧ q.partner = some f.epoch;
      let con := s.fget (.VBL_RX 0) VBL_RX.CONSUMED; let dist := (f.seq.toNat + 2 ^ 17 - con - 1) % 2 ^ 16; ¬ heard)))) (State.reset) (fr 0 1 9 3 [1,0,0,4])
    && (fun (s : State) (f : Frame) => (s.fresh.advance z3).any (fun r => ((frames s r f)[0]?).any (fun x => decide (s.alive = true ∧ let q := s.port 0; let heard := s.portPresent 0 = true ∧ s.locked 0 = true ∧ s.lstate 0 ≠ 0 ∧ s.lstate 0 ≠ 4;
      let open_ := heard ∧ q.loop = false; let kind := f.kind.toNat % 16; let good := open_ ∧ frameCrcOk f = true ∧ q.partner = some f.epoch;
      let con := s.fget (.VBL_RX 0) VBL_RX.CONSUMED; let dist := (f.seq.toNat + 2 ^ 17 - con - 1) % 2 ^ 16; (q.loop = true ∧ q.loopq.head? ≠ some f))))) (looped) (fr 0 1 9 3 [1,0,0,4])
    && (fun (s : State) (f : Frame) => (s.fresh.advance z3).any (fun r => ((frames s r f)[0]?).any (fun x => decide (s.alive = true ∧ let q := s.port 0; let heard := s.portPresent 0 = true ∧ s.locked 0 = true ∧ s.lstate 0 ≠ 0 ∧ s.lstate 0 ≠ 4;
      let open_ := heard ∧ q.loop = false; let kind := f.kind.toNat % 16; let good := open_ ∧ frameCrcOk f = true ∧ q.partner = some f.epoch;
      let con := s.fget (.VBL_RX 0) VBL_RX.CONSUMED; let dist := (f.seq.toNat + 2 ^ 17 - con - 1) % 2 ^ 16; open_ ∧ frameCrcOk f = false)))) (tx lk 1 0) ({ fr 0 0 9 0 [] with crc := 1 })
    && (fun (s : State) (f : Frame) => (s.fresh.advance z3).any (fun r => ((frames s r f)[0]?).any (fun x => decide (s.alive = true ∧ let q := s.port 0; let heard := s.portPresent 0 = true ∧ s.locked 0 = true ∧ s.lstate 0 ≠ 0 ∧ s.lstate 0 ≠ 4;
      let open_ := heard ∧ q.loop = false; let kind := f.kind.toNat % 16; let good := open_ ∧ frameCrcOk f = true ∧ q.partner = some f.epoch;
      let con := s.fget (.VBL_RX 0) VBL_RX.CONSUMED; let dist := (f.seq.toNat + 2 ^ 17 - con - 1) % 2 ^ 16; x.2.1 = min kind 6 ∧ kind ≠ 5 ∧ open_ ∧ frameCrcOk f = true ∧ q.partner ≠ some f.epoch)))) (tx lk 1 0) (fr 0 1 5 3 [1,0,0,4])
    && (fun (s : State) (f : Frame) => decide (s.alive = true ∧ (s.fresh.advance z3).isSome = true ∧ let q := s.port 0; let heard := s.portPresent 0 = true ∧ s.locked 0 = true ∧ s.lstate 0 ≠ 0 ∧ s.lstate 0 ≠ 4;
      let open_ := heard ∧ q.loop = false; let kind := f.kind.toNat % 16; let good := open_ ∧ frameCrcOk f = true ∧ q.partner = some f.epoch;
      let con := s.fget (.VBL_RX 0) VBL_RX.CONSUMED; let dist := (f.seq.toNat + 2 ^ 17 - con - 1) % 2 ^ 16; good ∧ kind = 0)) (tx lk 1 0) (fr 0 1 9 3 [1,0,0,4])
    && (fun (s : State) (f : Frame) => decide (s.alive = true ∧ (s.fresh.advance z3).isSome = true ∧ let q := s.port 0; let heard := s.portPresent 0 = true ∧ s.locked 0 = true ∧ s.lstate 0 ≠ 0 ∧ s.lstate 0 ≠ 4;
      let open_ := heard ∧ q.loop = false; let kind := f.kind.toNat % 16; let good := open_ ∧ frameCrcOk f = true ∧ q.partner = some f.epoch;
      let con := s.fget (.VBL_RX 0) VBL_RX.CONSUMED; let dist := (f.seq.toNat + 2 ^ 17 - con - 1) % 2 ^ 16; good ∧ kind = 1 ∧ 49152 ≤ dist)) (tx lk 1 0) (fr 1 50000 9 3 [1,0,0,4])
    && (fun (s : State) (f : Frame) => decide (s.alive = true ∧ (s.fresh.advance z3).isSome = true ∧ let q := s.port 0; let heard := s.portPresent 0 = true ∧ s.locked 0 = true ∧ s.lstate 0 ≠ 0 ∧ s.lstate 0 ≠ 4;
      let open_ := heard ∧ q.loop = false; let kind := f.kind.toNat % 16; let good := open_ ∧ frameCrcOk f = true ∧ q.partner = some f.epoch;
      let con := s.fget (.VBL_RX 0) VBL_RX.CONSUMED; let dist := (f.seq.toNat + 2 ^ 17 - con - 1) % 2 ^ 16; good ∧ kind = 1 ∧ dist < 49152 ∧ 16384 ≤ dist)) (tx lk 1 0) (fr 1 40000 9 3 [1,0,0,4])
    && (fun (s : State) (f : Frame) => decide (s.alive = true ∧ (s.fresh.advance z3).isSome = true ∧ let q := s.port 0; let heard := s.portPresent 0 = true ∧ s.locked 0 = true ∧ s.lstate 0 ≠ 0 ∧ s.lstate 0 ≠ 4;
      let open_ := heard ∧ q.loop = false; let kind := f.kind.toNat % 16; let good := open_ ∧ frameCrcOk f = true ∧ q.partner = some f.epoch;
      let con := s.fget (.VBL_RX 0) VBL_RX.CONSUMED; let dist := (f.seq.toNat + 2 ^ 17 - con - 1) % 2 ^ 16; good ∧ kind = 1 ∧ dist < 16384 ∧ q.recv.any (fun e => e.1 = f.seq.toNat) = false)) (tx lk 1 0) (fr 1 1 9 3 [1,0,0,4])
    && (fun (s : State) (f : Frame) => decide (s.alive = true ∧ (s.fresh.advance z3).isSome = true ∧ let q := s.port 0; let heard := s.portPresent 0 = true ∧ s.locked 0 = true ∧ s.lstate 0 ≠ 0 ∧ s.lstate 0 ≠ 4;
      let open_ := heard ∧ q.loop = false; let kind := f.kind.toNat % 16; let good := open_ ∧ frameCrcOk f = true ∧ q.partner = some f.epoch;
      let con := s.fget (.VBL_RX 0) VBL_RX.CONSUMED; let dist := (f.seq.toNat + 2 ^ 17 - con - 1) % 2 ^ 16; good ∧ kind = 2 ∧ leAt f.body 8 1 % 2 = 0 ∧ ∀ i ∈ List.range 128, leAt f.body (128 + i) 1 = 0)) (tx lk 1 0) (fr 2 1 9 3 [1,0,0,4])
    && (fun (s : State) (f : Frame) => decide (s.alive = true ∧ (s.fresh.advance z3).isSome = true ∧ let q := s.port 0; let heard := s.portPresent 0 = true ∧ s.locked 0 = true ∧ s.lstate 0 ≠ 0 ∧ s.lstate 0 ≠ 4;
      let open_ := heard ∧ q.loop = false; let kind := f.kind.toNat % 16; let good := open_ ∧ frameCrcOk f = true ∧ q.partner = some f.epoch;
      let con := s.fget (.VBL_RX 0) VBL_RX.CONSUMED; let dist := (f.seq.toNat + 2 ^ 17 - con - 1) % 2 ^ 16; good ∧ kind = 3)) (tx lk 1 0) (fr 3 1 9 3 [1,0,0,4])
    && (fun (s : State) (f : Frame) => decide (s.alive = true ∧ (s.fresh.advance z3).isSome = true ∧ let q := s.port 0; let heard := s.portPresent 0 = true ∧ s.locked 0 = true ∧ s.lstate 0 ≠ 0 ∧ s.lstate 0 ≠ 4;
      let open_ := heard ∧ q.loop = false; let kind := f.kind.toNat % 16; let good := open_ ∧ frameCrcOk f = true ∧ q.partner = some f.epoch;
      let con := s.fget (.VBL_RX 0) VBL_RX.CONSUMED; let dist := (f.seq.toNat + 2 ^ 17 - con - 1) % 2 ^ 16; good ∧ kind = 4)) (tx lk 1 0) (fr 4 1 9 3 [1,0,0,4])
    && (fun (s : State) (f : Frame) => decide (s.alive = true ∧ (s.fresh.advance z3).isSome = true ∧ let q := s.port 0; let heard := s.portPresent 0 = true ∧ s.locked 0 = true ∧ s.lstate 0 ≠ 0 ∧ s.lstate 0 ≠ 4;
      let open_ := heard ∧ q.loop = false; let kind := f.kind.toNat % 16; let good := open_ ∧ frameCrcOk f = true ∧ q.partner = some f.epoch;
      let con := s.fget (.VBL_RX 0) VBL_RX.CONSUMED; let dist := (f.seq.toNat + 2 ^ 17 - con - 1) % 2 ^ 16; good ∧ kind = 5)) (tx lk 1 0) (fr 5 1 9 3 [1,0,0,4])
    && (fun (s : State) (f : Frame) => decide (s.alive = true ∧ (s.fresh.advance z3).isSome = true ∧ let q := s.port 0; let heard := s.portPresent 0 = true ∧ s.locked 0 = true ∧ s.lstate 0 ≠ 0 ∧ s.lstate 0 ≠ 4;
      let open_ := heard ∧ q.loop = false; let kind := f.kind.toNat % 16; let good := open_ ∧ frameCrcOk f = true ∧ q.partner = some f.epoch;
      let con := s.fget (.VBL_RX 0) VBL_RX.CONSUMED; let dist := (f.seq.toNat + 2 ^ 17 - con - 1) % 2 ^ 16; good ∧ 5 < kind)) (tx lk 1 0) (fr 6 1 9 3 [1,0,0,4])
    && (fun (s : State) (f : Frame) => decide (s.alive = true ∧ (s.fresh.advance z3).isSome = true ∧ let q := s.port 0; let heard := s.portPresent 0 = true ∧ s.locked 0 = true ∧ s.lstate 0 ≠ 0 ∧ s.lstate 0 ≠ 4;
      let open_ := heard ∧ q.loop = false; let kind := f.kind.toNat % 16; let good := open_ ∧ frameCrcOk f = true ∧ q.partner = some f.epoch;
      let con := s.fget (.VBL_RX 0) VBL_RX.CONSUMED; let dist := (f.seq.toNat + 2 ^ 17 - con - 1) % 2 ^ 16; open_ ∧ frameCrcOk f = true ∧ kind = 5 ∧ q.partner ≠ some f.epoch ∧ s.lstate 0 ≠ 3 ∧ leAt f.body 0 2 = 1)) (init) (fr 5 1 5 3 [1,0,0,4])
    && (fun (s : State) (f : Frame) => decide (s.alive = true ∧ (s.fresh.advance z3).isSome = true ∧ let q := s.port 0; let heard := s.portPresent 0 = true ∧ s.locked 0 = true ∧ s.lstate 0 ≠ 0 ∧ s.lstate 0 ≠ 4;
      let open_ := heard ∧ q.loop = false; let kind := f.kind.toNat % 16; let good := open_ ∧ frameCrcOk f = true ∧ q.partner = some f.epoch;
      let con := s.fget (.VBL_RX 0) VBL_RX.CONSUMED; let dist := (f.seq.toNat + 2 ^ 17 - con - 1) % 2 ^ 16; open_ ∧ frameCrcOk f = true ∧ kind = 5 ∧ q.partner ≠ some f.epoch ∧ s.lstate 0 = 3)) (tx lk 1 0) (fr 5 1 5 3 [1,0,0,4])) = true := by decide +kernel

theorem witness_LinkEvents : (
      (fun (s : State) => decide (s.alive = true ∧ let q := s.port 0; let want := (s.fget (.VBL_RX 0) VBL_RX.CONSUMED + 1) % 2 ^ 16; q.recv = [(want, pc [1,2])] ∧ (pc [1,2]).first = true ∧ (pc [1,2]).last = true)) (lkp (fun t => { t with recv := [(0, pc [1,2])] }))
    && (fun (s : State) => decide (s.alive = true ∧ let q := s.port 0; let want := (s.fget (.VBL_RX 0) VBL_RX.CONSUMED + 1) % 2 ^ 16; ∀ e ∈ q.recv, e.1 ≠ want)) (State.reset)
    && (fun (s : State) => decide (s.alive = true ∧ let q := s.port 0; let want := (s.fget (.VBL_RX 0) VBL_RX.CONSUMED + 1) % 2 ^ 16; s.portPresent 0 = true ∧ s.lstate 0 = 3)) (tx lk 1 0)
    && (fun (s : State) => decide (s.alive = true ∧ let q := s.port 0; let want := (s.fget (.VBL_RX 0) VBL_RX.CONSUMED + 1) % 2 ^ 16; q.probeSent = some (4, 1000))) (lkp (fun t => { t with probeSent := some (4, 1000) }))
    && (fun (s : State) => decide (s.alive = true ∧ let q := s.port 0; let want := (s.fget (.VBL_RX 0) VBL_RX.CONSUMED + 1) % 2 ^ 16; s.lstate 0 ≠ 3)) (State.reset)
    && (fun (s : State) => decide (s.alive = true ∧ let q := s.port 0; let want := (s.fget (.VBL_RX 0) VBL_RX.CONSUMED + 1) % 2 ^ 16; q.replay = [rp 4 2 false] ∧ (rp 4 2 false).acked = false ∧ (rp 4 2 false).queued = false ∧ (rp 4 2 false).retx < 8)) (r0)
    && (fun (s : State) => decide (s.alive = true ∧ let q := s.port 0; let want := (s.fget (.VBL_RX 0) VBL_RX.CONSUMED + 1) % 2 ^ 16; q.replay = [rp 4 8 false] ∧ (rp 4 8 false).acked = false ∧ (rp 4 8 false).queued = false ∧ 8 ≤ (rp 4 8 false).retx)) (r8)
    && (fun (s : State) => decide (s.alive = true ∧ let q := s.port 0; let want := (s.fget (.VBL_RX 0) VBL_RX.CONSUMED + 1) % 2 ^ 16; ∀ r ∈ q.replay, r.seq ≠ 4)) (State.reset)
    && (fun (s : State) => decide (s.alive = true ∧ let q := s.port 0; let want := (s.fget (.VBL_RX 0) VBL_RX.CONSUMED + 1) % 2 ^ 16; s.lstate 0 = 3 ∧ 0 < s.outstanding 0)) (tx lk 5 3)
    && (fun (s : State) => decide (s.alive = true ∧ let q := s.port 0; let want := (s.fget (.VBL_RX 0) VBL_RX.CONSUMED + 1) % 2 ^ 16; s.lstate 0 = 3 ∧ s.outstanding 0 = 0)) (tx lk 1 0)
    && (fun (s : State) => decide (s.alive = true ∧ let q := s.port 0; let want := (s.fget (.VBL_RX 0) VBL_RX.CONSUMED + 1) % 2 ^ 16; s.portPresent 0 = true ∧ s.lstate 0 = 1)) (tr)
    && (fun (s : State) => decide (s.alive = true ∧ let q := s.port 0; let want := (s.fget (.VBL_RX 0) VBL_RX.CONSUMED + 1) % 2 ^ 16; (s.portPresent 0 = false ∨ s.lstate 0 ≠ 1))) (State.reset)
    && (fun (s : State) => decide (s.alive = true ∧ let q := s.port 0; let want := (s.fget (.VBL_RX 0) VBL_RX.CONSUMED + 1) % 2 ^ 16; s.portPresent 0 = true)) (State.reset)) = true := by decide +kernel

/-- Of `Obligations.OwnerWrites`. -/
theorem witness_LinkAndRouteWrites : (
      (fun (s : State) (p : Port) (a : Acc) => decide (s.alive = true ∧ s.mayWrite a.by_ = true ∧ let v := (Reg.VBL_CTRL p).info.write (s.reg (.VBL_CTRL p)) a; let here := s.portPresent p = true;
      let role := s.img.roles.getD p 0 ≠ 0 ∧ here; role ∧ VBL_CTRL.ENABLE.get v = 1)) (tx lk 1 0) 0 { by_ := Writer.host 0, size := .full, val := 1 }
    && (fun (s : State) (p : Port) (a : Acc) => decide (s.alive = true ∧ s.mayWrite a.by_ = true ∧ let v := (Reg.VBL_CTRL p).info.write (s.reg (.VBL_CTRL p)) a; let here := s.portPresent p = true;
      let role := s.img.roles.getD p 0 ≠ 0 ∧ here; role ∧ VBL_CTRL.ENABLE.get v = 0)) (tx lk 1 0) 0 { by_ := Writer.host 0, size := .full, val := 0 }
    && (fun (s : State) (p : Port) (a : Acc) => decide (s.alive = true ∧ s.mayWrite a.by_ = true ∧ let v := (Reg.VBL_CTRL p).info.write (s.reg (.VBL_CTRL p)) a; let here := s.portPresent p = true;
      let role := s.img.roles.getD p 0 ≠ 0 ∧ here; here ∧ ¬ role)) (State.reset) 15 { by_ := .steward, size := .full, val := 0xffffffffffffffff }
    && (fun (s : State) (p : Port) (a : Acc) => decide (s.alive = true ∧ s.mayWrite a.by_ = true ∧ let v := (Reg.VBL_CTRL p).info.write (s.reg (.VBL_CTRL p)) a; let here := s.portPresent p = true;
      let role := s.img.roles.getD p 0 ≠ 0 ∧ here; ¬ here)) ({ State.reset with fuses := { State.reset.fuses with ports := 0x7FFF } }) 15 { by_ := .steward, size := .full, val := 0xffffffffffffffff }) = true := by decide +kernel

end Links

namespace Launch
/-! Witnesses of the launch relay. -/

def rl (id : Nat) (root : Bool) (s : State := route6 base4) : State :=
((s.fset .RLY_CTRL RLY_CTRL.ENABLE 1).fset .RLY_CTRL RLY_CTRL.LAUNCH_ID id).fset .RLY_CTRL RLY_CTRL.ROOT (if root then 1 else 0)
    |>.fset .RLY_STATUS RLY_STATUS.STATE 1
def fam (p g : Option Nat) (d : Nat) (s : State) : State :=
  let s := match p with | none => s | some p => (s.fset .RLY_FAMILY RLY_FAMILY.HAS_PARENT 1).fset .RLY_FAMILY RLY_FAMILY.PARENT p
  let s := match g with | none => s | some p => (s.fset .RLY_FAMILY RLY_FAMILY.HAS_GP 1).fset .RLY_FAMILY RLY_FAMILY.GRANDPARENT p
  s.fset .RLY_FAMILY RLY_FAMILY.DEPTH d
def kid (c m : Nat) (s : State) : State := (s.fset (.RLY_CHILD c) RLY_CHILD.VALID 1).fset (.RLY_CHILD c) RLY_CHILD.MODULE m
def area (s : State) : State := (s.fset .RLY_AREA RLY_AREA.BASE 1).fset .RLY_AREA RLY_AREA.SIZE 4
def rs (r : RelaySt) (s : State) : State := { s with relay := r }
def n : State := area (rl 7 false)
def c : State := fam (some 6) none 2 n
def d : State := rs { spans := [(0, 3)], len := some 100 } (fam (some 6) (some 6) 2 n)
def g : State := (rs { spans := [(0, 3)], graft := true } (fam (some 5) (some 6) 2 n)).fset .RLY_STATUS RLY_STATUS.STATE 3
def gHeld : State := rs { spans := [(0, 3)], len := some 3, graft := true } (g.fset .RLY_PROGRESS RLY_PROGRESS.HELD 3)
def r : State := (area (rl 7 true)).fset .RLY_FEED RLY_FEED.LEN 100000 |>.fset .RLY_FEED RLY_FEED.AVAIL 1
def rk : State := kid 0 6 r
def dt : State := (rs { timerOn := true } r).setReg .RLY_EXPECT (RLY_EXPECT.DONE_MS.set (RLY_EXPECT.EXPECT.set 0 3) 5)

theorem witness_LaunchPackets : (
      (fun (s : State) (k : LaunchPkt) h n => decide ((s.alive = true) ∧ (s.flag .ROUTE_SELF ROUTE_SELF.SELF_VALID = true) ∧
      let mine := s.rlyOn = true ∧ k.launchId.toNat = s.fget .RLY_CTRL RLY_CTRL.LAUNCH_ID; let kind := k.kind.toNat;
      let src := k.src.toNat; let hasParent := s.flag .RLY_FAMILY RLY_FAMILY.HAS_PARENT; let off := k.streamOff.toNat;
      let base := s.fget .RLY_AREA RLY_AREA.BASE * 0x4000000; (mine) ∧ (kind = 0) ∧ (s.rlyRoot = false) ∧ (s.children = []) ∧
      (hasParent = true) ∧ (s.fget .RLY_FAMILY RLY_FAMILY.PARENT = src) ∧ (s.relay.spans = [(0, h)]) ∧ (off = h) ∧ (k.data ≠ []) ∧
      (h + k.data.length ≤ s.fget .RLY_AREA RLY_AREA.SIZE * 0x4000000) ∧ (base + h + k.data.length ≤ dramSize) ∧ (s.dramBad = []) ∧
      (s.relay.len = some n) ∧ (h + k.data.length < n)))
      (d) ({ src := 0x0006#16, launchId := 0x00000007#32, kind := 0x00#8, depth := 0x02#8, flags := 0x03#8, reason := 0x01#8, parent := 0x0005#16, grandparent := 0x0009#16, count := 0x00000004#32, streamOff := 0x0000000000000003#64, streamLen := 0x0000000000000064#64, data := [0x01#8, 0x02#8, 0x03#8] }) (3) (100)
    && (fun (s : State) (k : LaunchPkt) => decide ((s.alive = true) ∧ (s.flag .ROUTE_SELF ROUTE_SELF.SELF_VALID = true) ∧
      let mine := s.rlyOn = true ∧ k.launchId.toNat = s.fget .RLY_CTRL RLY_CTRL.LAUNCH_ID; let kind := k.kind.toNat;
      let src := k.src.toNat; let hasParent := s.flag .RLY_FAMILY RLY_FAMILY.HAS_PARENT; (mine) ∧ (kind = 1) ∧ (s.rlyRoot = false) ∧
      (hasParent = false) ∧ (s.relay.spans = []) ∧ (k.streamLen ≠ 0)))
      (n) ({ src := 0x0006#16, launchId := 0x00000007#32, kind := 0x01#8, depth := 0x02#8, flags := 0x03#8, reason := 0x01#8, parent := 0x0005#16, grandparent := 0x0009#16, count := 0x00000004#32, streamOff := 0x0000000000000000#64, streamLen := 0x0000000000000064#64, data := [] })
    && (fun (s : State) (k : LaunchPkt) => decide ((s.alive = true) ∧ (s.flag .ROUTE_SELF ROUTE_SELF.SELF_VALID = true) ∧
      let mine := s.rlyOn = true ∧ k.launchId.toNat = s.fget .RLY_CTRL RLY_CTRL.LAUNCH_ID; let kind := k.kind.toNat;
      let src := k.src.toNat; let hasParent := s.flag .RLY_FAMILY RLY_FAMILY.HAS_PARENT; (kind = 2) ∧
      let stranger := s.rlyRoot = true ∨ hasParent = false ∨ s.fget .RLY_FAMILY RLY_FAMILY.PARENT ≠ src;
      ((s.rlyOn = false ∨ (mine ∧ stranger ∧ 8 ≤ s.rlyDepth)))))
      (route6 base4) ({ src := 0x0006#16, launchId := 0x00000007#32, kind := 0x02#8, depth := 0x02#8, flags := 0x03#8, reason := 0x01#8, parent := 0x0005#16, grandparent := 0x0009#16, count := 0x00000004#32, streamOff := 0x0000000000000000#64, streamLen := 0x0000000000000064#64, data := [] })
    && (fun (s : State) (k : LaunchPkt) => decide ((s.alive = true) ∧ (s.flag .ROUTE_SELF ROUTE_SELF.SELF_VALID = true) ∧
      let mine := s.rlyOn = true ∧ k.launchId.toNat = s.fget .RLY_CTRL RLY_CTRL.LAUNCH_ID; let kind := k.kind.toNat;
      let src := k.src.toNat; let hasParent := s.flag .RLY_FAMILY RLY_FAMILY.HAS_PARENT; let off := k.streamOff.toNat; (kind = 2) ∧
      let stranger := s.rlyRoot = true ∨ hasParent = false ∨ s.fget .RLY_FAMILY RLY_FAMILY.PARENT ≠ src; (mine) ∧ (stranger) ∧
      (s.rlyDepth < 8) ∧ ((∀ c ∈ s.children, s.fget (.RLY_CHILD c) RLY_CHILD.MODULE ≠ src)) ∧ (off + 67108864 < s.relay.fwd)))
      (rs { spans := [(0, 200000000)], fwd := 200000000 } c) ({ src := 0x002c#16, launchId := 0x00000007#32, kind := 0x02#8, depth := 0x02#8, flags := 0x03#8, reason := 0x01#8, parent := 0x0005#16, grandparent := 0x0009#16, count := 0x00000004#32, streamOff := 0x0000000000000000#64, streamLen := 0x0000000000000064#64, data := [] })
    && (fun (s : State) (k : LaunchPkt) => decide ((s.alive = true) ∧ (s.flag .ROUTE_SELF ROUTE_SELF.SELF_VALID = true) ∧
      let mine := s.rlyOn = true ∧ k.launchId.toNat = s.fget .RLY_CTRL RLY_CTRL.LAUNCH_ID; let kind := k.kind.toNat;
      let src := k.src.toNat; let hasParent := s.flag .RLY_FAMILY RLY_FAMILY.HAS_PARENT; let off := k.streamOff.toNat; (kind = 2) ∧
      let stranger := s.rlyRoot = true ∨ hasParent = false ∨ s.fget .RLY_FAMILY RLY_FAMILY.PARENT ≠ src; (mine) ∧ (stranger) ∧
      (s.rlyDepth < 8) ∧ ((∀ c ∈ s.children, s.fget (.RLY_CHILD c) RLY_CHILD.MODULE ≠ src)) ∧ (s.relay.fwd ≤ off + 67108864) ∧
      ([4, 5, 6, 7].all (fun c => decide (c ∈ s.children)) = true)))
      ((List.range 4).foldl (fun s k => kid (k+4) (100+k) s) d) ({ src := 0x002c#16, launchId := 0x00000007#32, kind := 0x02#8, depth := 0x02#8, flags := 0x03#8, reason := 0x01#8, parent := 0x0005#16, grandparent := 0x0009#16, count := 0x00000004#32, streamOff := 0x0000000000000000#64, streamLen := 0x0000000000000064#64, data := [] })
    && (fun (s : State) (k : LaunchPkt) => decide ((s.alive = true) ∧ (s.flag .ROUTE_SELF ROUTE_SELF.SELF_VALID = true) ∧
      let mine := s.rlyOn = true ∧ k.launchId.toNat = s.fget .RLY_CTRL RLY_CTRL.LAUNCH_ID; let kind := k.kind.toNat;
      let src := k.src.toNat; let hasParent := s.flag .RLY_FAMILY RLY_FAMILY.HAS_PARENT; let off := k.streamOff.toNat; (kind = 2) ∧
      let stranger := s.rlyRoot = true ∨ hasParent = false ∨ s.fget .RLY_FAMILY RLY_FAMILY.PARENT ≠ src; (mine) ∧ (stranger) ∧
      (s.rlyDepth < 8) ∧ ((∀ c ∈ s.children, s.fget (.RLY_CHILD c) RLY_CHILD.MODULE ≠ src)) ∧ (s.relay.fwd ≤ off) ∧ (4 ∉ s.children)))
      (n) ({ src := 0x0006#16, launchId := 0x00000007#32, kind := 0x02#8, depth := 0x02#8, flags := 0x03#8, reason := 0x01#8, parent := 0x0005#16, grandparent := 0x0009#16, count := 0x00000004#32, streamOff := 0x0000000000000000#64, streamLen := 0x0000000000000064#64, data := [] })
    && (fun (s : State) (k : LaunchPkt) => decide ((s.alive = true) ∧ (s.flag .ROUTE_SELF ROUTE_SELF.SELF_VALID = true) ∧
      let mine := s.rlyOn = true ∧ k.launchId.toNat = s.fget .RLY_CTRL RLY_CTRL.LAUNCH_ID; let kind := k.kind.toNat;
      let src := k.src.toNat; let hasParent := s.flag .RLY_FAMILY RLY_FAMILY.HAS_PARENT; let state := s.fget .RLY_STATUS RLY_STATUS.STATE;
      let gp := s.fget .RLY_FAMILY RLY_FAMILY.GRANDPARENT; let asked := s.rlyRoot = false ∧ s.relay.graft = true ∧ gp = src ∧ hasParent = true ∧ s.fget .RLY_FAMILY RLY_FAMILY.PARENT ≠ src;
      let holds := s.relay.len = some s.rlyHeld; mine ∧ kind = 3 ∧ asked ∧ ¬ holds))
      (g) ({ src := 0x0006#16, launchId := 0x00000007#32, kind := 0x03#8, depth := 0x02#8, flags := 0x03#8, reason := 0x01#8, parent := 0x0005#16, grandparent := 0x0009#16, count := 0x00000004#32, streamOff := 0x0000000000000000#64, streamLen := 0x0000000000000064#64, data := [] })
    && (fun (s : State) (k : LaunchPkt) => decide ((s.alive = true) ∧ (s.flag .ROUTE_SELF ROUTE_SELF.SELF_VALID = true) ∧
      let mine := s.rlyOn = true ∧ k.launchId.toNat = s.fget .RLY_CTRL RLY_CTRL.LAUNCH_ID; let kind := k.kind.toNat;
      let src := k.src.toNat; let hasParent := s.flag .RLY_FAMILY RLY_FAMILY.HAS_PARENT; let state := s.fget .RLY_STATUS RLY_STATUS.STATE;
      let gp := s.fget .RLY_FAMILY RLY_FAMILY.GRANDPARENT; let asked := s.rlyRoot = false ∧ s.relay.graft = true ∧ gp = src ∧ hasParent = true ∧ s.fget .RLY_FAMILY RLY_FAMILY.PARENT ≠ src;
      let holds := s.relay.len = some s.rlyHeld; mine ∧ kind = 3 ∧ asked ∧ holds))
      (gHeld) ({ src := 0x0006#16, launchId := 0x00000007#32, kind := 0x03#8, depth := 0x02#8, flags := 0x03#8, reason := 0x01#8, parent := 0x0005#16, grandparent := 0x0009#16, count := 0x00000004#32, streamOff := 0x0000000000000000#64, streamLen := 0x0000000000000064#64, data := [] })
    && (fun (s : State) (k : LaunchPkt) => decide ((s.alive = true) ∧ (s.flag .ROUTE_SELF ROUTE_SELF.SELF_VALID = true) ∧
      let mine := s.rlyOn = true ∧ k.launchId.toNat = s.fget .RLY_CTRL RLY_CTRL.LAUNCH_ID; let kind := k.kind.toNat;
      let src := k.src.toNat; let hasParent := s.flag .RLY_FAMILY RLY_FAMILY.HAS_PARENT; let state := s.fget .RLY_STATUS RLY_STATUS.STATE;
      let gp := s.fget .RLY_FAMILY RLY_FAMILY.GRANDPARENT; let asked := s.rlyRoot = false ∧ s.relay.graft = true ∧ gp = src ∧ hasParent = true ∧ s.fget .RLY_FAMILY RLY_FAMILY.PARENT ≠ src;
      let holds := s.relay.len = some s.rlyHeld; mine ∧ kind = 4 ∧ asked))
      (g) ({ src := 0x0006#16, launchId := 0x00000007#32, kind := 0x04#8, depth := 0x02#8, flags := 0x03#8, reason := 0x01#8, parent := 0x0005#16, grandparent := 0x0009#16, count := 0x00000004#32, streamOff := 0x0000000000000000#64, streamLen := 0x0000000000000064#64, data := [] })
    && (fun (s : State) (k : LaunchPkt) c => decide ((s.alive = true) ∧ (s.flag .ROUTE_SELF ROUTE_SELF.SELF_VALID = true) ∧
      let mine := s.rlyOn = true ∧ k.launchId.toNat = s.fget .RLY_CTRL RLY_CTRL.LAUNCH_ID; let kind := k.kind.toNat;
      let src := k.src.toNat; (mine) ∧ (kind = 5) ∧ (s.rlyRoot = true) ∧ (s.children = [c]) ∧ (c < 8) ∧
      (s.fget (.RLY_CHILD c) RLY_CHILD.MODULE = src)))
      (rk) ({ src := 0x0006#16, launchId := 0x00000007#32, kind := 0x05#8, depth := 0x02#8, flags := 0x03#8, reason := 0x01#8, parent := 0x0005#16, grandparent := 0x0009#16, count := 0x00000004#32, streamOff := 0x0000000000000000#64, streamLen := 0x0000000000000064#64, data := [] }) (0)
    && (fun (s : State) (k : LaunchPkt) => decide ((s.alive = true) ∧ (s.flag .ROUTE_SELF ROUTE_SELF.SELF_VALID = true) ∧
      let mine := s.rlyOn = true ∧ k.launchId.toNat = s.fget .RLY_CTRL RLY_CTRL.LAUNCH_ID; let kind := k.kind.toNat;
      let src := k.src.toNat; (mine) ∧ (5 < kind)))
      (n) ({ src := 0x0006#16, launchId := 0x00000007#32, kind := 0x06#8, depth := 0x02#8, flags := 0x03#8, reason := 0x01#8, parent := 0x0005#16, grandparent := 0x0009#16, count := 0x00000004#32, streamOff := 0x0000000000000000#64, streamLen := 0x0000000000000064#64, data := [] })
    && (fun (s : State) (p : Port) (k : LaunchPkt) => (([(Instr.launchData p k, 0), (.launchHeartbeat p k, 1), (.graftReq p k, 2), (.graftAck p k, 3), (.graftNak p k, 4), (.launchDone p k, 5), (.launchReservedKind p k, 6)])[0]?).any (fun x => decide ((s.alive = true) ∧
      (s.flag .ROUTE_SELF ROUTE_SELF.SELF_VALID = true) ∧
      let mine := s.rlyOn = true ∧ k.launchId.toNat = s.fget .RLY_CTRL RLY_CTRL.LAUNCH_ID; let kind := k.kind.toNat;
      let src := k.src.toNat; (s.rlyOn = true) ∧ (¬ mine) ∧ (x.2 = min kind 6))))
      (n) (0) ({ src := 0x0006#16, launchId := 0x00000008#32, kind := 0x00#8, depth := 0x02#8, flags := 0x03#8, reason := 0x01#8, parent := 0x0005#16, grandparent := 0x0009#16, count := 0x00000004#32, streamOff := 0x0000000000000000#64, streamLen := 0x0000000000000064#64, data := [0x01#8, 0x02#8, 0x03#8] })) = true := by decide +kernel

theorem witness_RelayTimers : (
      (fun (s : State) => decide ((s.alive = true) ∧ let on := s.rlyOn = true; let root := s.rlyRoot = true;
      let state := s.fget .RLY_STATUS RLY_STATUS.STATE; let family (f : Fld) : Nat := s.fget .RLY_FAMILY f;
      ((¬ on ∨ root ∨ state ≠ 1 ∨ family RLY_FAMILY.HAS_PARENT = 0)))) (State.reset)
    && (fun (s : State) => decide ((s.alive = true) ∧ let on := s.rlyOn = true; let root := s.rlyRoot = true;
      let state := s.fget .RLY_STATUS RLY_STATUS.STATE; let family (f : Fld) : Nat := s.fget .RLY_FAMILY f; (on) ∧ (¬ root) ∧ (state = 1) ∧
      (family RLY_FAMILY.HAS_PARENT = 1) ∧ (family RLY_FAMILY.HAS_GP = 0))) (c)
    && (fun (s : State) => decide ((s.alive = true) ∧ let on := s.rlyOn = true; let root := s.rlyRoot = true;
      let state := s.fget .RLY_STATUS RLY_STATUS.STATE; let family (f : Fld) : Nat := s.fget .RLY_FAMILY f; (on) ∧ (¬ root) ∧ (state = 1) ∧
      (family RLY_FAMILY.HAS_PARENT = 1) ∧ (family RLY_FAMILY.HAS_GP = 1))) (d)
    && (fun (s : State) => decide ((s.alive = true) ∧ let on := s.rlyOn = true; let state := s.fget .RLY_STATUS RLY_STATUS.STATE; (on) ∧ (s.relay.graft = true))) (g)
    && (fun (s : State) => decide ((s.alive = true) ∧ let on := s.rlyOn = true; let state := s.fget .RLY_STATUS RLY_STATUS.STATE;
      ((¬ on ∨ s.relay.graft = false)))) (State.reset)
    && (fun (s : State) => decide ((s.alive = true) ∧ let on := s.rlyOn = true; let root := s.rlyRoot = true;
      let len := s.fget .RLY_FEED RLY_FEED.LEN; let placed := min (s.fget .RLY_FEED RLY_FEED.AVAIL * 65536) len; (on) ∧ (root) ∧
      (s.children = []) ∧ (s.dramBad = []) ∧ (s.relay.sent < placed))) (r)
    && (fun (s : State) => decide ((s.alive = true) ∧ let on := s.rlyOn = true; let root := s.rlyRoot = true;
      let len := s.fget .RLY_FEED RLY_FEED.LEN; let placed := min (s.fget .RLY_FEED RLY_FEED.AVAIL * 65536) len;
      ((¬ on ∨ ¬ root ∨ (placed ≤ s.relay.sent ∧ len ≠ 0))))) (State.reset)
    && (fun (s : State) => decide ((s.alive = true) ∧ let on := s.rlyOn = true; let root := s.rlyRoot = true; (on) ∧ (root) ∧
      (s.relay.timerOn = true) ∧ (s.fget .RLY_EXPECT RLY_EXPECT.DONE_MS ≠ 0))) (dt)
    && (fun (s : State) (a : Acc) => decide ((s.alive = true) ∧ let on := s.rlyOn = true; (s.mayWrite a.by_ = true) ∧
      let v := Reg.RLY_FEED.info.write (s.reg .RLY_FEED) a; (¬ on) ∧ (RLY_FEED.AVAIL.get (s.reg .RLY_FEED) ≤ RLY_FEED.AVAIL.get v)))
      (State.reset) ({ by_ := Writer.steward, size := Sz.full, val := 0xffffffffffffffff#64 })
    && (fun (s : State) (a : Acc) => decide ((s.alive = true) ∧ let on := s.rlyOn = true; (s.mayWrite a.by_ = true) ∧
      let w := Reg.RLY_CTRL.info.write (s.reg .RLY_CTRL) a; (¬ on) ∧ (RLY_CTRL.ENABLE.get w = 1) ∧ (RLY_CTRL.ROOT.get w = 0) ∧
      (100 ≤ RLY_CTRL.TIMEOUT_US.get w))) (route6 base4) ({ by_ := Writer.host 0, size := Sz.full, val := 0x0000000001f40001#64 })
    && (fun (s : State) (a : Acc) => decide ((s.alive = true) ∧ let on := s.rlyOn = true; (s.mayWrite a.by_ = true) ∧
      let w := Reg.RLY_CTRL.info.write (s.reg .RLY_CTRL) a; (on) ∧ (RLY_CTRL.ENABLE.get w = 0)))
      (n) ({ by_ := Writer.host 0, size := Sz.full, val := 0x0000000000000000#64 })) = true := by decide +kernel

end Launch

namespace Serving
/-! Witnesses of serving. -/

def rt0 : RoundT := { len := 4, lead := 1, result := 2, seats := [⟨false, 1, 1⟩, ⟨true, 1, 64⟩] }
def planV : Plan :=
    { planA with serving := true, round := some rt0, privBase := 100, frames := 200, posLimit := 1000, stretch := 1024, ptBase := 0x200000, selBase := 0x300000 }
def srv (pl : Plan := planV) : State :=
  let s := { base4 with img := imgA, parts := [(0, { plan := some pl })], time := { base4.time with epochSet := true, arrived := true } }
  let s := (s.setPstate 0 2).fset (.PART_STATE 0) PART_STATE.SERVING 1
  let s := ring 9 4 0 0 0 (ring 8 1 0 0 0 (ring 4 2 1 1 0 s))
  let s := { s with adu := { s.adu with cfgLive := [(2, ACCT_CFG.WEIGHT.set 0 3)] } }
((s.fset .ADU_CTRL ADU_CTRL.CMD0 4).fset .ADU_CTRL ADU_CTRL.CMD0_EN 1).setReg (.ACCT_CFG 2) (ACCT_CFG.WEIGHT.set 0 3) |>.fset
    .ADU_CTRL ADU_CTRL.EVENT 9
def b : State := srv
def rq (st : Nat) (f : ReqRec → ReqRec) : State := let s := b.putReq 5 (f { state := st, account := 2, ring := 8, promptLen := 600 });
    { s with adu := { s.adu with view := [] } }
def q1 : State := rq 1 (fun r => r)
def clr : State := b.modTile 0 (fun t => { t with clears := [[0]] })
def held : State := { b with adu := { b.adu with held := [List.replicate 32 1] } }
def mem : State := srv { planV with shard := some (2, 1, 0, [5, 6]) }
def memR : State :=
    { mem with adu := { mem.adu with rounds := [{ round := 0, bindings := [{ seat := 0, req := 1, prefill := false, active := true, start := 0, count := 1, seed := 0, charge := 0 }], done := true, issued := false }], privUsed := [(7, 4), (8, 5)], tables := [3] } }

/-- The state whose command ring holds this entry: its bytes stand in LPDDR5X at 0, the rest of the 64 are zeros. -/
def entry (l : Bytes) (s : State := b) : State := { s with dram := memWrite s.dram 0 l }
def sub0 : SubmitOps :=
  { flags := 0, account := 2, req := 7, ring := 8, promptLen := 10, prompt := 0x100, seed := 5, maxNew := 3, stopId := 9, adapter := 0x8000, lpset := 0x8000,
    prefixLen := 0, prefixList := 0, tail := 0 }
def subBytes : Bytes := [1, 0, 2, 0, 7, 0, 0, 0, 8, 0, 0, 0, 10, 0, 0, 0, 0, 1, 0, 0, 0, 0, 0, 0] ++ toLe 8 5 ++ toLe 4 3 ++ toLe 4 9 ++ [0, 0x80, 0, 0x80]
def mirrorK (kind : Byte) (records : Bytes) (ga : Word := 0x400000000002) : Packet :=
  { hdr := hdrP 8 ga 0 0 0, payload := toLe 8 0 ++ [kind, 0, 1, 0, 0, 0] ++ List.replicate 18 0 ++ records }
/-- A binding record of request 3 that generates at position 1029, of the second member's stretch. -/
def bindRec : Bytes := toLe 4 3 ++ [0, 1, 0, 0] ++ toLe 4 1029 ++ toLe 4 1 ++ List.replicate 8 0 ++ toLe 8 77 ++ List.replicate 32 0
def planDry : Plan := { planV with shard := some (2, 1, 0, [5, 6]), frames := 100 }
def memX : State := route6 memR

theorem witness_AduCommands : (
      (fun (s : State) (c : CmdRing) => decide (s.alive = true ∧ s.servePlan = some planV ∧ s.isMember = false ∧ s.flag .ADU_CTRL ADU_CTRL.EVENT_EN = false ∧ (∀ e ∈ s.adu.reqs, e.2.state ≠ 5) ∧
      s.dramBad = [] ∧ let ring := (s.cmdRing c).1; let at_ := ((s.reg (.RING_BASE ring)).toNat + s.fget (.RING_IDX ring) RING_IDX.CONS % s.ringSize ring * 64) % 2 ^ 40;
      let named (op : Nat) (k : CmdOps) : Prop := s.fget (.RING_CFG ring) RING_CFG.KIND ≠ 1 ∨ cmdMatches (memRead s.dram at_ 64) op k = true; s.takes c = false)) (b) .cmd1
    && (fun (s : State) (c : CmdRing) => decide (s.alive = true ∧ s.servePlan = some planV ∧ s.isMember = false ∧ s.flag .ADU_CTRL ADU_CTRL.EVENT_EN = false ∧ (∀ e ∈ s.adu.reqs, e.2.state ≠ 5) ∧
      s.dramBad = [] ∧ let ring := (s.cmdRing c).1; let at_ := ((s.reg (.RING_BASE ring)).toNat + s.fget (.RING_IDX ring) RING_IDX.CONS % s.ringSize ring * 64) % 2 ^ 40;
      let named (op : Nat) (k : CmdOps) : Prop := s.fget (.RING_CFG ring) RING_CFG.KIND ≠ 1 ∨ cmdMatches (memRead s.dram at_ 64) op k = true; ¬ named 5 .bare)) (b) .cmd0
    && (fun (s : State) (c : CmdRing) => decide (s.alive = true ∧ s.servePlan = some planV ∧ s.isMember = false ∧ s.flag .ADU_CTRL ADU_CTRL.EVENT_EN = false ∧ (∀ e ∈ s.adu.reqs, e.2.state ≠ 5) ∧
      s.dramBad = [] ∧ let ring := (s.cmdRing c).1; let at_ := ((s.reg (.RING_BASE ring)).toNat + s.fget (.RING_IDX ring) RING_IDX.CONS % s.ringSize ring * 64) % 2 ^ 40;
      let named (op : Nat) (k : CmdOps) : Prop := s.fget (.RING_CFG ring) RING_CFG.KIND ≠ 1 ∨ cmdMatches (memRead s.dram at_ 64) op k = true; s.takes c = true ∧ named 0 .bare)) (b) .cmd0
    && (fun (s : State) (c : CmdRing) => decide (s.alive = true ∧ s.servePlan = some planV ∧ s.isMember = false ∧ s.flag .ADU_CTRL ADU_CTRL.EVENT_EN = false ∧ (∀ e ∈ s.adu.reqs, e.2.state ≠ 5) ∧
      s.dramBad = [] ∧ let ring := (s.cmdRing c).1; let at_ := ((s.reg (.RING_BASE ring)).toNat + s.fget (.RING_IDX ring) RING_IDX.CONS % s.ringSize ring * 64) % 2 ^ 40;
      let named (op : Nat) (k : CmdOps) : Prop := s.fget (.RING_CFG ring) RING_CFG.KIND ≠ 1 ∨ cmdMatches (memRead s.dram at_ 64) op k = true; s.takes c = true ∧ opReserved (2 : Byte).toNat = true ∧ named 2 .bare)) (entry [2]) .cmd0
    && (fun (s : State) (c : CmdRing) => decide (s.alive = true ∧ s.servePlan = some planV ∧ s.isMember = false ∧ s.flag .ADU_CTRL ADU_CTRL.EVENT_EN = false ∧ (∀ e ∈ s.adu.reqs, e.2.state ≠ 5) ∧
      s.dramBad = [] ∧ let ring := (s.cmdRing c).1; let at_ := ((s.reg (.RING_BASE ring)).toNat + s.fget (.RING_IDX ring) RING_IDX.CONS % s.ringSize ring * 64) % 2 ^ 40;
      let named (op : Nat) (k : CmdOps) : Prop := s.fget (.RING_CFG ring) RING_CFG.KIND ≠ 1 ∨ cmdMatches (memRead s.dram at_ 64) op k = true; s.takes c = true ∧ (⟨1, 0, 0, 0, 0, 0, 0, 0⟩ : AduOps).b1 ≠ 0 ∧ named 0x10 (.adu ⟨1, 0, 0, 0, 0, 0, 0, 0⟩))) (entry [0x10, 1]) .cmd0
    && (fun (s : State) (c : CmdRing) => decide (s.alive = true ∧ s.servePlan = some planV ∧ s.isMember = false ∧ s.flag .ADU_CTRL ADU_CTRL.EVENT_EN = false ∧ (∀ e ∈ s.adu.reqs, e.2.state ≠ 5) ∧
      s.dramBad = [] ∧ let ring := (s.cmdRing c).1; let at_ := ((s.reg (.RING_BASE ring)).toNat + s.fget (.RING_IDX ring) RING_IDX.CONS % s.ringSize ring * 64) % 2 ^ 40;
      let named (op : Nat) (k : CmdOps) : Prop := s.fget (.RING_CFG ring) RING_CFG.KIND ≠ 1 ∨ cmdMatches (memRead s.dram at_ 64) op k = true; s.takes c = true ∧ named 0x10 (.adu ⟨0, 0, 0, 0, 0, 0, 0, 0⟩))) (entry [0x10]) .cmd0
    && (fun (s : State) (c : CmdRing) => decide (s.alive = true ∧ s.servePlan = some planV ∧ s.isMember = false ∧ s.flag .ADU_CTRL ADU_CTRL.EVENT_EN = false ∧ (∀ e ∈ s.adu.reqs, e.2.state ≠ 5) ∧
      s.dramBad = [] ∧ let ring := (s.cmdRing c).1; let at_ := ((s.reg (.RING_BASE ring)).toNat + s.fget (.RING_IDX ring) RING_IDX.CONS % s.ringSize ring * 64) % 2 ^ 40;
      let named (op : Nat) (k : CmdOps) : Prop := s.fget (.RING_CFG ring) RING_CFG.KIND ≠ 1 ∨ cmdMatches (memRead s.dram at_ 64) op k = true; s.takes c = true ∧ named 0x11 (.adu ⟨0, 0, 0, 0, 0, 0, 0, 0⟩))) (entry [0x11]) .cmd0
    && (fun (s : State) (c : CmdRing) => decide (s.alive = true ∧ s.servePlan = some planV ∧ s.isMember = false ∧ s.flag .ADU_CTRL ADU_CTRL.EVENT_EN = false ∧ (∀ e ∈ s.adu.reqs, e.2.state ≠ 5) ∧
      s.dramBad = [] ∧ let ring := (s.cmdRing c).1; let at_ := ((s.reg (.RING_BASE ring)).toNat + s.fget (.RING_IDX ring) RING_IDX.CONS % s.ringSize ring * 64) % 2 ^ 40;
      let named (op : Nat) (k : CmdOps) : Prop := s.fget (.RING_CFG ring) RING_CFG.KIND ≠ 1 ∨ cmdMatches (memRead s.dram at_ 64) op k = true; s.takes c = true ∧ named 0x12 (.adu ⟨0, 0, 0, 0, 0, 0, 0, 0⟩))) (entry [0x12]) .cmd0
    && (fun (s : State) (c : CmdRing) => decide (s.alive = true ∧ s.servePlan = some planV ∧ s.isMember = false ∧ s.flag .ADU_CTRL ADU_CTRL.EVENT_EN = false ∧ (∀ e ∈ s.adu.reqs, e.2.state ≠ 5) ∧
      s.dramBad = [] ∧ let ring := (s.cmdRing c).1; let at_ := ((s.reg (.RING_BASE ring)).toNat + s.fget (.RING_IDX ring) RING_IDX.CONS % s.ringSize ring * 64) % 2 ^ 40;
      let named (op : Nat) (k : CmdOps) : Prop := s.fget (.RING_CFG ring) RING_CFG.KIND ≠ 1 ∨ cmdMatches (memRead s.dram at_ 64) op k = true; s.takes c = true ∧ named 0x14 (.adu ⟨0, 0, 0, 0, 0, 0, 0, 0⟩))) (entry [0x14]) .cmd0
    && (fun (s : State) (c : CmdRing) => decide (s.alive = true ∧ s.servePlan = some planV ∧ s.isMember = false ∧ s.flag .ADU_CTRL ADU_CTRL.EVENT_EN = false ∧ (∀ e ∈ s.adu.reqs, e.2.state ≠ 5) ∧
      s.dramBad = [] ∧ let ring := (s.cmdRing c).1; let at_ := ((s.reg (.RING_BASE ring)).toNat + s.fget (.RING_IDX ring) RING_IDX.CONS % s.ringSize ring * 64) % 2 ^ 40;
      let named (op : Nat) (k : CmdOps) : Prop := s.fget (.RING_CFG ring) RING_CFG.KIND ≠ 1 ∨ cmdMatches (memRead s.dram at_ 64) op k = true; s.takes c = true ∧ named 0x17 (.adu ⟨0, 0, 0, 0, 0, 0, 0, 0⟩))) (entry [0x17]) .cmd0
    && (fun (s : State) (c : CmdRing) => decide (s.alive = true ∧ s.servePlan = some planV ∧ s.isMember = false ∧ s.flag .ADU_CTRL ADU_CTRL.EVENT_EN = false ∧ (∀ e ∈ s.adu.reqs, e.2.state ≠ 5) ∧
      s.dramBad = [] ∧ let ring := (s.cmdRing c).1; let at_ := ((s.reg (.RING_BASE ring)).toNat + s.fget (.RING_IDX ring) RING_IDX.CONS % s.ringSize ring * 64) % 2 ^ 40;
      let named (op : Nat) (k : CmdOps) : Prop := s.fget (.RING_CFG ring) RING_CFG.KIND ≠ 1 ∨ cmdMatches (memRead s.dram at_ 64) op k = true; s.takes c = true ∧ (3 : BitVec 32).toNat ≤ 256 ∧ (0 : Word).toNat + 4 ≤ dramSize ∧ named 0x13 (.adu ⟨0, 0, 3, 0, 0, 0, 0, 0⟩))) (entry [0x13, 0, 0, 0, 3]) .cmd0
    && (fun (s : State) (c : CmdRing) => decide (s.alive = true ∧ s.servePlan = some planV ∧ s.isMember = false ∧ s.flag .ADU_CTRL ADU_CTRL.EVENT_EN = false ∧ (∀ e ∈ s.adu.reqs, e.2.state ≠ 5) ∧
      s.dramBad = [] ∧ let ring := (s.cmdRing c).1; let at_ := ((s.reg (.RING_BASE ring)).toNat + s.fget (.RING_IDX ring) RING_IDX.CONS % s.ringSize ring * 64) % 2 ^ 40;
      let named (op : Nat) (k : CmdOps) : Prop := s.fget (.RING_CFG ring) RING_CFG.KIND ≠ 1 ∨ cmdMatches (memRead s.dram at_ 64) op k = true; s.takes c = true ∧ named 0x15 (.adu ⟨0, 0, 3, 0, 0, 0, 0, 0⟩))) (entry [0x15, 0, 0, 0, 3]) .cmd0
    && (fun (s : State) (c : CmdRing) => decide (s.alive = true ∧ s.servePlan = some planV ∧ s.isMember = false ∧ s.flag .ADU_CTRL ADU_CTRL.EVENT_EN = false ∧ (∀ e ∈ s.adu.reqs, e.2.state ≠ 5) ∧
      s.dramBad = [] ∧ let ring := (s.cmdRing c).1; let at_ := ((s.reg (.RING_BASE ring)).toNat + s.fget (.RING_IDX ring) RING_IDX.CONS % s.ringSize ring * 64) % 2 ^ 40;
      let named (op : Nat) (k : CmdOps) : Prop := s.fget (.RING_CFG ring) RING_CFG.KIND ≠ 1 ∨ cmdMatches (memRead s.dram at_ 64) op k = true; s.takes c = true ∧ let q : BitVec 32 := 5; let first : BitVec 32 := 0; let r := s.req q.toNat; q.toNat < 262144 ∧ (r.state = 1 ∨ r.state = 2) ∧ r.prefixLen = 0 ∧
      r.maxNew = 0 ∧ 2 ≤ r.promptLen.toNat ∧ planV.group.1 ≤ 1 ∧ (∀ e ∈ s.adu.captures, e.1 ≠ q.toNat) ∧ first.toNat + r.capPages ≤ 65536 ∧ 0 < r.capPages ∧
      s.handlesFree first.toNat r.capPages = true ∧ named 0x16 (.adu ⟨0, 0, q, first, 0, 0, 0, 0⟩))) (entry [0x16, 0, 0, 0, 5] q1) .cmd0
    && (fun (s : State) (c : CmdRing) => decide (s.alive = true ∧ s.servePlan = some planV ∧ s.isMember = false ∧ s.flag .ADU_CTRL ADU_CTRL.EVENT_EN = false ∧ (∀ e ∈ s.adu.reqs, e.2.state ≠ 5) ∧
      s.dramBad = [] ∧ let ring := (s.cmdRing c).1; let at_ := ((s.reg (.RING_BASE ring)).toNat + s.fget (.RING_IDX ring) RING_IDX.CONS % s.ringSize ring * 64) % 2 ^ 40;
      let named (op : Nat) (k : CmdOps) : Prop := s.fget (.RING_CFG ring) RING_CFG.KIND ≠ 1 ∨ cmdMatches (memRead s.dram at_ 64) op k = true; s.takes c = true ∧ sub0.flags = 0 ∧ sub0.tail = 0 ∧ sub0.lpset.getLsbD 15 = true ∧ sub0.prefixLen = 0 ∧ named 1 (.submit sub0))) (entry subBytes) .cmd0) = true := by decide +kernel

theorem witness_RingsAndAccounts : (
      (fun (s : State) (a : Acc) (n : RingIx) => decide ((s.alive = true) ∧ (s.mayWrite a.by_ = true) ∧ (a.size ≠ .lo) ∧
      (s.fget (.RING_CFG n) RING_CFG.TYPE ∈ [1, 3, 4]))) (b) ({ by_ := Writer.host 0, size := Sz.full, val := 0x0000000000000000#64 }) (8)
    && (fun (s : State) (a : Acc) (n : RingIx) => decide ((s.alive = true) ∧ (s.mayWrite a.by_ = true) ∧
      ((a.size = .lo ∨ s.fget (.RING_CFG n) RING_CFG.TYPE ∉ [1, 3, 4]))))
      (State.reset) ({ by_ := Writer.steward, size := Sz.full, val := 0x0000001000000005#64 }) (1)
    && (fun (s : State) (a : Acc) => decide ((s.alive = true) ∧ (s.mayWrite a.by_ = true) ∧ (a.size ≠ .hi) ∧ (s.boot_ ≠ 0)))
      (base4) ({ by_ := Writer.host 0, size := Sz.full, val := 0x0000000000000000#64 })
    && (fun (s : State) (a : Acc) (n : Account) => decide ((s.alive = true) ∧ (s.mayWrite a.by_ = true) ∧
      let v := (Reg.ACCT_CFG n).info.write (s.reg (.ACCT_CFG n)) a; (1 ≤ ACCT_CFG.PWEIGHT.get v) ∧ (ACCT_CFG.PWEIGHT.get v ≤ 16)))
      (State.reset) ({ by_ := Writer.steward, size := Sz.full, val := 0x0000001000000005#64 }) (0)
    && (fun (s : State) (a : Acc) (w : CancelWord) (j : Fin 64) => decide ((s.alive = true) ∧ (s.mayWrite a.by_ = true) ∧
      let q := w.val * 64 + j.val; let r := s.req q; (a.size = .full) ∧ (a.val = BitVec.ofNat 64 (2 ^ j.val))
      ∧ ((r.state = 0 ∨ r.state = 5)))) (base4) ({ by_ := Writer.host 0, size := Sz.full, val := 0x0000000000000001#64 }) (0) (0)
    && (fun (s : State) (a : Acc) (w : CancelWord) (j : Fin 64) => decide ((s.alive = true) ∧ (s.mayWrite a.by_ = true) ∧
      let q := w.val * 64 + j.val; let r := s.req q; (a.size = .full) ∧ (a.val = BitVec.ofNat 64 (2 ^ j.val)) ∧ (1 ≤ r.state) ∧
      (r.state < 5) ∧ (r.finalOut = false) ∧ (s.boundNow q = []) ∧ (s.adu.recs = []) ∧ (s.aduRoom r.ring.toNat 1 = false) ∧
      (s.dramBad = []) ∧ (s.flag .ADU_CTRL ADU_CTRL.EVENT_EN = false) ∧ ((∀ e ∈ s.adu.reqs, e.2.state ≠ 5))))
      (ring 8 1 0 4 0 q1) ({ by_ := Writer.host 0, size := Sz.full, val := 0x0000000000000020#64 }) (0) (5)
    && (fun (s : State) (a : Acc) (g : Gt) (i : Fin 8192) => decide ((s.alive = true) ∧ (s.mayWrite a.by_ = true) ∧
      ((s.tile g).clears = [[i]]))) (clr) ({ by_ := Writer.host 0, size := Sz.full, val := 0x0000000000000000#64 }) (0) (0)
    && (fun (s : State) (a : Acc) (g : Gt) (l : SeatList) => decide ((s.alive = true) ∧ (s.mayWrite a.by_ = true) ∧
      (l ∉ (s.tile g).clears))) (State.reset) ({ by_ := Writer.steward, size := Sz.full, val := 0x0000001000000005#64 }) (0) ([0])
    && (fun (s : State) (a : Acc) b => decide ((s.alive = true) ∧ (s.mayWrite a.by_ = true) ∧ (s.adu.held = [b])))
      (held) ({ by_ := Writer.host 0, size := Sz.full, val := 0x0000000000000000#64 }) ([0x01#8, 0x01#8, 0x01#8, 0x01#8, 0x01#8, 0x01#8, 0x01#8, 0x01#8, 0x01#8, 0x01#8, 0x01#8, 0x01#8, 0x01#8, 0x01#8, 0x01#8, 0x01#8, 0x01#8, 0x01#8, 0x01#8, 0x01#8, 0x01#8, 0x01#8, 0x01#8, 0x01#8, 0x01#8, 0x01#8, 0x01#8, 0x01#8, 0x01#8, 0x01#8, 0x01#8, 0x01#8])
    && (fun (s : State) (a : Acc) => decide ((s.alive = true) ∧ (s.mayWrite a.by_ = true) ∧ (s.adu.held = [])))
      (State.reset) ({ by_ := Writer.steward, size := Sz.full, val := 0x0000001000000005#64 })) = true := by decide +kernel

theorem witness_MirrorPackets : (
      (fun (s : State) (k : Packet) => decide (s.alive = true ∧ s.dramBad = [] ∧ let a := k.hdr.ga.toNat; k.hdr.opc = 8 ∧ gaSpace a = 1 ∧ gaDram a = 2 ∧ gaZeros a = true ∧ 32 ≤ k.payload.length ∧
      let m := mirrorOf k.payload; let kind := leAt k.payload 8 1; let valid := s.flag .ROUTE_SELF ROUTE_SELF.SELF_VALID = true; let mine := valid ∧ gaModule a = s.self;
      let r := m.round.toNat; let x := s.memberRound r; kind = 0 ∧ ¬ valid)) (b) (mirrorK 0 bindRec)
    && (fun (s : State) (k : Packet) => decide (s.alive = true ∧ s.dramBad = [] ∧ let a := k.hdr.ga.toNat; k.hdr.opc = 8 ∧ gaSpace a = 1 ∧ gaDram a = 2 ∧ gaZeros a = true ∧ 32 ≤ k.payload.length ∧
      let m := mirrorOf k.payload; let kind := leAt k.payload 8 1; let valid := s.flag .ROUTE_SELF ROUTE_SELF.SELF_VALID = true; let mine := valid ∧ gaModule a = s.self;
      let r := m.round.toNat; let x := s.memberRound r; kind = 0 ∧ valid ∧ gaModule a ≠ s.self ∧ s.isGroup (gaModule a) = false)) (route6 b) (mirrorK 0 bindRec 0x0009400000000002)
    && (fun (s : State) (k : Packet) => decide (s.alive = true ∧ s.dramBad = [] ∧ let a := k.hdr.ga.toNat; k.hdr.opc = 8 ∧ gaSpace a = 1 ∧ gaDram a = 2 ∧ gaZeros a = true ∧ 32 ≤ k.payload.length ∧
      let m := mirrorOf k.payload; let kind := leAt k.payload 8 1; let valid := s.flag .ROUTE_SELF ROUTE_SELF.SELF_VALID = true; let mine := valid ∧ gaModule a = s.self;
      let r := m.round.toNat; let x := s.memberRound r; kind = 0 ∧ mine ∧ s.isMember = false)) (route6 b) (mirrorK 0 bindRec)
    && (fun (s : State) (k : Packet) => decide (s.alive = true ∧ s.dramBad = [] ∧ let a := k.hdr.ga.toNat; k.hdr.opc = 8 ∧ gaSpace a = 1 ∧ gaDram a = 2 ∧ gaZeros a = true ∧ 32 ≤ k.payload.length ∧
      let m := mirrorOf k.payload; let kind := leAt k.payload 8 1; let valid := s.flag .ROUTE_SELF ROUTE_SELF.SELF_VALID = true; let mine := valid ∧ gaModule a = s.self;
      let r := m.round.toNat; let x := s.memberRound r; let pl : Plan := { planV with shard := some (2, 1, 0, [5, 6]) }; mine ∧ s.serving = some (0, pl, rt0) ∧ s.isMember = true ∧ kind = 0 ∧ m.records.length = 64 ∧ let b : Binding := { seat := m.first.toNat, req := leAt m.records 0 4, prefill := decide (leAt m.records 4 1 = 1), active := decide (leAt m.records 5 1 = 1), start := leAt m.records 8 4, count := leAt m.records 12 4, seed := BitVec.ofNat 64 (leAt m.records 24 8), charge := 0 }; let at_ := if b.prefill then b.start else b.start - 1; let pages := pl.pages at_ (at_ + b.count - 1); pl.privBase + s.adu.privUsed.length + pages.length ≤ pl.frames)) (memX) (mirrorK 0 bindRec)
    && (fun (s : State) (k : Packet) => decide (s.alive = true ∧ s.dramBad = [] ∧ let a := k.hdr.ga.toNat; k.hdr.opc = 8 ∧ gaSpace a = 1 ∧ gaDram a = 2 ∧ gaZeros a = true ∧ 32 ≤ k.payload.length ∧
      let m := mirrorOf k.payload; let kind := leAt k.payload 8 1; let valid := s.flag .ROUTE_SELF ROUTE_SELF.SELF_VALID = true; let mine := valid ∧ gaModule a = s.self;
      let r := m.round.toNat; let x := s.memberRound r; let pl : Plan := planDry; mine ∧ s.serving = some (0, pl, rt0) ∧ s.isMember = true ∧ kind = 0 ∧ m.records.length = 64 ∧ let b : Binding := { seat := m.first.toNat, req := leAt m.records 0 4, prefill := decide (leAt m.records 4 1 = 1), active := decide (leAt m.records 5 1 = 1), start := leAt m.records 8 4, count := leAt m.records 12 4, seed := BitVec.ofNat 64 (leAt m.records 24 8), charge := 0 }; let at_ := if b.prefill then b.start else b.start - 1; let pages := pl.pages at_ (at_ + b.count - 1); pl.frames ≤ pl.privBase ∧ pages = [0] ∧ 0 < pl.stretch / 256 ∧ b.req ∉ s.adu.tables)) (route6 (srv planDry)) (mirrorK 0 bindRec)
    && (fun (s : State) (k : Packet) => decide (s.alive = true ∧ s.dramBad = [] ∧ let a := k.hdr.ga.toNat; k.hdr.opc = 8 ∧ gaSpace a = 1 ∧ gaDram a = 2 ∧ gaZeros a = true ∧ 32 ≤ k.payload.length ∧
      let m := mirrorOf k.payload; let kind := leAt k.payload 8 1; let valid := s.flag .ROUTE_SELF ROUTE_SELF.SELF_VALID = true; let mine := valid ∧ gaModule a = s.self;
      let r := m.round.toNat; let x := s.memberRound r; let pl : Plan := { planV with shard := some (2, 1, 0, [5, 6]) }; mine ∧ s.serving = some (0, pl, rt0) ∧ s.isMember = true ∧ kind = 1 ∧ x.bindings ≠ [] ∧ x.issued = false)) (memX) (mirrorK 1 [])
    && (fun (s : State) (k : Packet) => decide (s.alive = true ∧ s.dramBad = [] ∧ let a := k.hdr.ga.toNat; k.hdr.opc = 8 ∧ gaSpace a = 1 ∧ gaDram a = 2 ∧ gaZeros a = true ∧ 32 ≤ k.payload.length ∧
      let m := mirrorOf k.payload; let kind := leAt k.payload 8 1; let valid := s.flag .ROUTE_SELF ROUTE_SELF.SELF_VALID = true; let mine := valid ∧ gaModule a = s.self;
      let r := m.round.toNat; let x := s.memberRound r; let pl : Plan := { planV with shard := some (2, 1, 0, [5, 6]) }; mine ∧ s.serving = some (0, pl, rt0) ∧ s.isMember = true ∧ kind = 2 ∧ m.count = 1)) (memX) (mirrorK 2 [3, 0, 0, 0])
    && (fun (s : State) (k : Packet) => decide (s.alive = true ∧ s.dramBad = [] ∧ let a := k.hdr.ga.toNat; k.hdr.opc = 8 ∧ gaSpace a = 1 ∧ gaDram a = 2 ∧ gaZeros a = true ∧ 32 ≤ k.payload.length ∧
      let m := mirrorOf k.payload; let kind := leAt k.payload 8 1; let valid := s.flag .ROUTE_SELF ROUTE_SELF.SELF_VALID = true; let mine := valid ∧ gaModule a = s.self;
      let r := m.round.toNat; let x := s.memberRound r; let pl : Plan := { planV with shard := some (2, 1, 0, [5, 6]) }; mine ∧ s.serving = some (0, pl, rt0) ∧ s.isMember = true ∧ kind = 3)) (memX) (mirrorK 3 [3, 0])) = true := by decide +kernel

theorem witness_WorkOfAStage_mirror : (
      (fun (s : State) (n : Rgn) => decide (s.alive = true ∧ s.rgnRuns n = true ∧ (s.rgn n).finished = true ∧ (s.rgn n).next ≤ s.stage ∧ (s.rgn n).mirrorHeld = false ∧ s.mirrorWaits n (s.rgn n).next = true))
      mem 0) = true := by decide +kernel

end Serving

namespace Start
/-! Witnesses of start-up, loads, the Steward and recovery. -/

def fOrder : Bytes := toLe 4 0x4E465754 ++ [0, 0, 1, 1] ++ toLe 8 8 ++ List.replicate 16 0 ++ [0, 0, 0, 0] ++ toBe 66
    0xeb9c84bee106dc7bb82af982146e2de84a3e86422991ca1cf1761b9dc95123f4b449c39960e7f950971b5eae442a6b7d749c550f8c97a11cc4007fa1f294b2e4 ++
    toBe 66
    0xeb9c84bee106dc7bb82af982146e2de84a3e86422991ca1cf1761b9dc95123f4b449c39960e7f950971b5eae442a6b7d749c550f8c97a11cc4007fa1f294b2e4
def fKey : Bytes := 4 :: (toBe 66
    0x1a3b95ad9b4915df7fb989c435605ec593e6466a1ad1037163ef11727abfd2dec18b948ace87f119a0cce21f52c774c52945f6150212ff406af8142cb2b1ac9da92 ++
    toBe 66
    0x148125910859e727063e6e4e6f1654955e3cd0b82c82e7be61eee11cd8cb0f369d5b96e6981f7a349a8f56c64b099e5545682148b609dfcc067e753ee2d099c9d10)
def irq (l : List (Nat × IrqSrc)) (s : State) : State := { s with irq := l }
def b0 : State := own0 (upBoot 0)
def b1 : State := own0 (upBoot 1)
def b2 : State := own0 (upBoot 2)
def b3 : State := (own0 (upBoot 3)).fset .STW_STATUS STW_STATUS.RUNNING 0xF
def b4 : State := route6 base4
def ld (o : LoadOutcome) (s : State) : State :=
    ({ s with boot := { s.boot with load := some { kind := match o with | .unload => 5 | _ => 3, part := 1, outcome := o } } }).fset
    .BOOT_CTRL BOOT_CTRL.GO 1
def q (p : Bool) (pr : BitVec 4) (t : BitVec 6) : IrqSrc := { prio := pr, target := t, pend := p }
def i1 : State := irq [(3, q true 5 0), (700, q true 9 0), (701, q true 2 32)] b4
def cl : State := { (irq [(3, { q false 5 0 with active := true })] b4) with cores := [(0, [(3, 5)])] }
def fwd : State := (i1.setReg (.FWD 0) (FWD.ENABLE.set 0 1)).fset (.FWD 0) FWD.THRESH 1
def mb : State := b4.fset .MB_CTRL MB_CTRL.BUSY 1
def tel : State := ((b4.fset .TEL_CFG TEL_CFG.TEL_LOG2 10)).modRgn 0 (fun r => { r with budget := 9 })
def tel2 : State := { tel with tel := { tel.tel with latched := [List.replicate 64 7] } }
def ue : State := b4.fset .FLT_STATUS FLT_STATUS.STEWARD_UE 1
def m8 : Bytes := sha512 [1,2,3]
def res (v : Nat) : State :=
    { planS v (route6 base4) with dram := [(0, 1), (1, 2), (2, 3)], parts := [(0, { plan := some planA, meas := m8 })], resume := some { part := 0, addr := 0, len := 3, c := 0, q := 6, early := false } }
def rb : State := (res 3).fset .RESUME_CTRL RESUME_CTRL.GO 1
def lk0 : State := ((b4.fset .LS_CTRL LS_CTRL.ENABLE 1).fset (.VBL_STATUS 15) VBL_STATUS.STATE 3)
def lk : State := { lk0 with img := { imgA with roles := List.replicate 15 1 ++ [2] } }
def lk1 : State := { lk with lock := { own := [(0, 0)], sigs := [] } }
def lkf : State := { lk with lock := { own := [], failed := some 0, sigs := [(0, [(3, 7), (17, 9)])] } }
def lkt : State := (lk1).setReg .STG_COUNT 90
def fe : State := { b4 with fence := [(false, [1,2])], img := imgA }
def fo : State := { b4 with fence := [(false, fOrder)], img := { imgA with keys := [fKey], quorum := 1 } }
def sp (x : SpdmSt) (s : State) : State := { s with spdm := [(0, x), (1, x), (2, x)] }
def v : State := sp { version := true } b4
def c : State := sp { version := true, caps := true } b4
def a : State := { sp { version := true, caps := true, algs := true } b4 with boot := { b4.boot with chain := some [1,2,3], measFw := [9] } }

/-- A plan whose epoch is a millisecond of fabric time. -/
def planSoon : Plan := { planA with epochNs := 1000000 }
/-- A management packet for the module's OFFSET `off`. -/
def mgmtK (off : Nat) (payload : Bytes) (m : Nat := 0) : Packet := { hdr := hdrP 8 (BitVec.ofNat 64 (m * 2 ^ 48 + 0x400000000000 + off)) 0 0 0, payload := payload }
/-- A register read request for a GA of the module's register space. -/
def readK (ga : Word) (len : Nat) : Packet := { hdr := hdrP 8 ga 8 0 0, payload := toLe 4 len ++ [1, 2, 3, 4] }

theorem witness_BootEvents : (
      (fun (s : State) (c : CalResult) => decide ((s.alive = true) ∧ (s.boot_ = 0) ∧ (c.failed = none)))
      (State.reset) ({ failed := none, calMs := 0x00000037#32, trims := [(0, 0x0005#16)], lats := [(0, 0x0003#16)], badSpares := [(0, 1)] })
    && (fun (s : State) (c : CalResult) (k : Fin 5) => decide ((s.alive = true) ∧ (s.boot_ = 0) ∧ (c.failed = some k)))
      (State.reset) ({ failed := some 0, calMs := 0x00000005#32, trims := [], lats := [], badSpares := [] }) (0)
    && (fun (s : State) => decide ((s.alive = true) ∧ (s.boot_ ≠ 0))) (b1)
    && (fun (s : State) (n : SrcIx) (target : BitVec 6) => decide ((s.alive = true) ∧ (s.boot_ = 2) ∧ (n.val ≤ 605) ∧ (target.toNat < 4)))
      (b2) (0) (0x00#6)
    && (fun (s : State) => decide ((s.alive = true) ∧ (s.boot_ ≠ 2))) (State.reset)) = true := by decide +kernel

theorem witness_Loads : (
      (fun (s : State) (a : Acc) => (([Instr.loadFirmware a, .loadStructure a, .loadPlan a, .loadCert a, .unload a, .loadRefusedKind a])[0]?).any (fun c => decide ((s.alive = true) ∧
      (s.mayWrite a.by_ = true) ∧ (BOOT_CTRL.GO.get (accOver a 0) = 1) ∧ let busy := s.flag .BOOT_CTRL BOOT_CTRL.GO = true;
      ((s.boot_ = 0 ∨ busy))))) (b0) ({ by_ := Writer.host 0, size := Sz.full, val := 0x0000000000000080#64 })
    && (fun (s : State) (a : Acc) => (([Instr.loadFirmware a, .loadStructure a, .loadPlan a, .loadCert a, .unload a, .loadRefusedKind a])[0]?).any (fun c => decide ((s.alive = true) ∧
      (s.mayWrite a.by_ = true) ∧ (BOOT_CTRL.GO.get (accOver a 0) = 1) ∧ let v := Reg.BOOT_CTRL.info.write (s.reg .BOOT_CTRL) a;
      let kind := BOOT_CTRL.KIND.get v; let busy := s.flag .BOOT_CTRL BOOT_CTRL.GO = true; (s.boot_ ≠ 0) ∧ (¬ busy) ∧
      (s.kindOk kind = false)))) (b1) ({ by_ := Writer.host 0, size := Sz.full, val := 0x0000000000000080#64 })
    && (fun (s : State) (a : Acc) => (([Instr.loadFirmware a, .loadStructure a, .loadPlan a, .loadCert a, .unload a, .loadRefusedKind a])[0]?).any (fun c => decide ((s.alive = true) ∧
      (s.mayWrite a.by_ = true) ∧ (BOOT_CTRL.GO.get (accOver a 0) = 1) ∧ let v := Reg.BOOT_CTRL.info.write (s.reg .BOOT_CTRL) a;
      let kind := BOOT_CTRL.KIND.get v; let len := BOOT_CTRL.LENGTH.get v; let off := (s.reg .BOOT_ADDR).toNat;
      let busy := s.flag .BOOT_CTRL BOOT_CTRL.GO = true; let ranged := off % 8 = 0 ∧ len ≠ 0 ∧ off + len ≤ dramSize ∧ len ≤ loadMax kind;
      (s.boot_ ≠ 0) ∧ (¬ busy) ∧ (s.kindOk kind = true) ∧ (kind ≠ 5) ∧ (¬ ranged))))
      (b1) ({ by_ := Writer.host 0, size := Sz.full, val := 0x0000000000000081#64 })
    && (fun (s : State) (a : Acc) => (([Instr.loadFirmware a, .loadStructure a, .loadPlan a, .loadCert a, .unload a, .loadRefusedKind a])[0]?).any (fun c => decide ((s.alive = true) ∧
      (s.mayWrite a.by_ = true) ∧ (BOOT_CTRL.GO.get (accOver a 0) = 1) ∧ let v := Reg.BOOT_CTRL.info.write (s.reg .BOOT_CTRL) a;
      let kind := BOOT_CTRL.KIND.get v; let len := BOOT_CTRL.LENGTH.get v; let off := (s.reg .BOOT_ADDR).toNat;
      let busy := s.flag .BOOT_CTRL BOOT_CTRL.GO = true; let ranged := off % 8 = 0 ∧ len ≠ 0 ∧ off + len ≤ dramSize ∧ len ≤ loadMax kind;
      (s.boot_ ≠ 0) ∧ (¬ busy) ∧ (s.kindOk kind = true) ∧ (kind ≠ 5) ∧ (ranged) ∧ (s.dramBad = []))))
      (b1) ({ by_ := Writer.host 0, size := Sz.full, val := 0x0000000800000081#64 })
    && (fun (s : State) (a : Acc) => (([Instr.loadFirmware a, .loadStructure a, .loadPlan a, .loadCert a, .unload a, .loadRefusedKind a])[0]?).any (fun c => decide ((s.alive = true) ∧
      (s.mayWrite a.by_ = true) ∧ (BOOT_CTRL.GO.get (accOver a 0) = 1) ∧ let v := Reg.BOOT_CTRL.info.write (s.reg .BOOT_CTRL) a;
      let kind := BOOT_CTRL.KIND.get v; let part := BOOT_CTRL.PARTITION.get v; let busy := s.flag .BOOT_CTRL BOOT_CTRL.GO = true;
      (s.boot_ ≠ 0) ∧ (¬ busy) ∧ (s.kindOk kind = true) ∧ (kind = 5) ∧ (s.pstate part = 0))))
      (b4) ({ by_ := Writer.host 0, size := Sz.full, val := 0x0000000000000085#64 })
    && (fun (s : State) (a : Acc) => (([Instr.loadFirmware a, .loadStructure a, .loadPlan a, .loadCert a, .unload a, .loadRefusedKind a])[0]?).any (fun c => decide ((s.alive = true) ∧
      (s.mayWrite a.by_ = true) ∧ (BOOT_CTRL.GO.get (accOver a 0) = 1) ∧ let v := Reg.BOOT_CTRL.info.write (s.reg .BOOT_CTRL) a;
      let kind := BOOT_CTRL.KIND.get v; let part := BOOT_CTRL.PARTITION.get v; let busy := s.flag .BOOT_CTRL BOOT_CTRL.GO = true;
      (s.boot_ ≠ 0) ∧ (¬ busy) ∧ (s.kindOk kind = true) ∧ (kind = 5) ∧ (s.pstate part = 2))))
      (planS 2 b4) ({ by_ := Writer.host 0, size := Sz.full, val := 0x0000000000000085#64 })
    && (fun (s : State) (a : Acc) => (([Instr.loadFirmware a, .loadStructure a, .loadPlan a, .loadCert a, .unload a, .loadRefusedKind a])[0]?).any (fun c => decide ((s.alive = true) ∧
      (s.mayWrite a.by_ = true) ∧ (BOOT_CTRL.GO.get (accOver a 0) = 1) ∧ let v := Reg.BOOT_CTRL.info.write (s.reg .BOOT_CTRL) a;
      let kind := BOOT_CTRL.KIND.get v; let part := BOOT_CTRL.PARTITION.get v; let busy := s.flag .BOOT_CTRL BOOT_CTRL.GO = true;
      (s.boot_ ≠ 0) ∧ (¬ busy) ∧ (s.kindOk kind = true) ∧ (kind = 5) ∧ (s.pstate part ≠ 0) ∧ (s.pstate part ≠ 2))))
      (planS 1 b4) ({ by_ := Writer.host 0, size := Sz.full, val := 0x0000000000000085#64 })
    && (fun (s : State) => decide ((s.alive = true) ∧ (s.boot.load = none))) (State.reset)
    && (fun (s : State) l => decide ((s.alive = true) ∧ (s.boot.load = some l) ∧ (l.kind < 6) ∧ (l.part < 8) ∧ (s.stopped = true) ∧
      (l.outcome ≠ .unload))) (ld (.cert [5]) (b4.fset .FLT_STATUS FLT_STATUS.STOPPED 1))
      ({ kind := 3, part := 1, outcome := LoadOutcome.cert [0x05#8] })
    && (fun (s : State) l status x => decide ((s.alive = true) ∧ (s.boot.load = some l) ∧ (l.kind < 6) ∧ (l.part < 8) ∧
      (s.stopped = false) ∧ (l.outcome = .refused status x) ∧ (status ≠ 0) ∧ (status < 256)))
      (ld (.refused 7 none) b4) ({ kind := 3, part := 1, outcome := LoadOutcome.refused 7 none }) (7) (none)
    && (fun (s : State) (l : Load) => decide (s.alive = true ∧ s.boot.load = some l ∧ l.kind < 6 ∧ l.part < 8 ∧ s.stopped = false ∧
      l.outcome = .firmware 3 16 [1] [2])) (ld (.firmware 3 16 [1] [2]) b1) { kind := 3, part := 1, outcome := .firmware 3 16 [1] [2] }
    && (fun (s : State) l i meas => decide ((s.alive = true) ∧ (s.boot.load = some l) ∧ (l.kind < 6) ∧ (l.part < 8) ∧ (s.stopped = false) ∧
      (l.outcome = .structure_ i meas)))
      (ld (.structure_ imgA [1]) b3) ({ kind := 3, part := 1, outcome := LoadOutcome.structure_ imgA [0x01#8] }) imgA ([0x01#8])
    && (fun (s : State) (l : Load) (pl : Plan) => decide (s.alive = true ∧ s.boot.load = some l ∧ l.kind < 6 ∧ l.part < 8 ∧ s.stopped = false ∧ l.outcome = .plan pl [7] ∧ s.flag .FT_STATUS FT_STATUS.TIME_SET = true ∧ s.nextBoundary ≤ pl.epochNs ∧ s.time.ns.toNat < pl.epochNs)) (ld (.plan planSoon [7]) ((b4.fset .FT_STATUS FT_STATUS.TIME_SET 1))) { kind := 3, part := 1, outcome := .plan planSoon [7] } planSoon
    && (fun (s : State) (l : Load) (pl : Plan) => decide (s.alive = true ∧ s.boot.load = some l ∧ l.kind < 6 ∧ l.part < 8 ∧ s.stopped = false ∧ l.outcome = .plan pl [7] ∧ s.flag .FT_STATUS FT_STATUS.TIME_SET = false)) (ld (.plan planA [7]) (b4)) { kind := 3, part := 1, outcome := .plan planA [7] } planA
    && (fun (s : State) (l : Load) (pl : Plan) => decide (s.alive = true ∧ s.boot.load = some l ∧ l.kind < 6 ∧ l.part < 8 ∧ s.stopped = false ∧ l.outcome = .plan pl [7] ∧ pl.epochNs ≤ s.time.ns.toNat ∧ s.nextBoundary ≤ 2 ^ 64)) (ld (.plan planA [7]) ((b4.fset .FT_STATUS FT_STATUS.TIME_SET 1))) { kind := 3, part := 1, outcome := .plan planA [7] } planA
    && (fun (s : State) l ch => decide ((s.alive = true) ∧ (s.boot.load = some l) ∧ (l.kind < 6) ∧ (l.part < 8) ∧ (s.stopped = false) ∧
      (l.outcome = .cert ch))) (ld (.cert [5]) b4) ({ kind := 3, part := 1, outcome := LoadOutcome.cert [0x05#8] }) ([0x05#8])) = true := by decide +kernel

theorem witness_StewardCommands : (
      (fun (s : State) (c : Core) (n : Nat) (q : IrqSrc) => decide ((s.alive = true) ∧
      let runs := s.flag .FLT_STATUS FLT_STATUS.STEWARD_UE = false; (runs) ∧ (s.coreBest c = some (n, q))))
      (i1) (0) (700) ({ prio := 0x9#4, target := 0x00#6, pend := true, active := false, line := false, reentered := false, edges := 0x00000000#32 })
    && (fun (s : State) (c : Core) => decide ((s.alive = true) ∧ let runs := s.flag .FLT_STATUS FLT_STATUS.STEWARD_UE = false; (runs) ∧
      (s.coreBest c = none))) (State.reset) (0)
    && (fun (s : State) (c : Core) (n : SrcIx) l r => decide ((s.alive = true) ∧
      let runs := s.flag .FLT_STATUS FLT_STATUS.STEWARD_UE = false; (runs) ∧ (s.claims c = (n.val, l) :: r))) (cl) (0) (3) (0x5#4) ([])
    && (fun (s : State) (c : Core) => decide ((s.alive = true) ∧ let runs := s.flag .FLT_STATUS FLT_STATUS.STEWARD_UE = false; (runs) ∧
      ((s.claims c = [])))) (State.reset) (0)
    && (fun (s : State) => decide ((s.alive = true) ∧ let runs := s.flag .FLT_STATUS FLT_STATUS.STEWARD_UE = false; (¬ runs))) (ue)
    && (fun (s : State) (a : Acc) => decide ((s.alive = true) ∧ (s.mayWrite a.by_ = true) ∧ let n := INT_SET.SOURCE.get (accWide a);
      (a.size ≠ .hi) ∧ (768 ≤ n))) (State.reset) ({ by_ := Writer.steward, size := Sz.full, val := 0x0000000000000300#64 })
    && (fun (s : State) (a : Acc) => decide ((s.alive = true) ∧ (s.mayWrite a.by_ = true) ∧ let n := INT_SET.SOURCE.get (accWide a);
      ((a.size = .hi ∨ n < 768)))) (State.reset) ({ by_ := Writer.steward, size := Sz.full, val := 0x0000000000000000#64 })
    && (fun (s : State) (a : Acc) => decide ((s.alive = true) ∧ (s.mayWrite a.by_ = true) ∧ (a.size = .full)))
      (State.reset) ({ by_ := Writer.steward, size := Sz.full, val := 0x0000000000000000#64 })
    && (fun (s : State) (a : Acc) => decide ((s.alive = true) ∧ (s.mayWrite a.by_ = true) ∧
      let v := Reg.MB_CTRL.info.write (s.reg .MB_CTRL) a; let len := MB_CTRL.LEN.get v; (MB_CTRL.GO.get (accOver a 0) = 1) ∧
      ((s.flag .MB_CTRL MB_CTRL.BUSY = true ∨ len = 0 ∨ 256 < len))))
      (State.reset) ({ by_ := Writer.steward, size := Sz.full, val := 0xffffffffffffffff#64 })
    && (fun (s : State) (a : Acc) => decide ((s.alive = true) ∧ (s.mayWrite a.by_ = true) ∧
      let v := Reg.MB_CTRL.info.write (s.reg .MB_CTRL) a; let len := MB_CTRL.LEN.get v; (MB_CTRL.GO.get (accOver a 0) = 1) ∧
      (s.flag .MB_CTRL MB_CTRL.BUSY = false) ∧ (1 ≤ len) ∧ (len ≤ 256)))
      (State.reset) ({ by_ := Writer.steward, size := Sz.full, val := 0x0000000001000009#64 })
    && (fun (s : State) (f : FwdIx) => decide ((s.alive = true) ∧ let r := Reg.FWD f; (s.flag r FWD.ENABLE = false))) (State.reset) (0)
    && (fun (s : State) (f : FwdIx) => decide ((s.alive = true) ∧ let r := Reg.FWD f; (s.flag r FWD.ENABLE = true) ∧
      (s.candidate (32 + f) (s.fget r FWD.THRESH) = none))) (fwd.fset (.FWD 0) FWD.THRESH 5) (0)
    && (fun (s : State) (f : FwdIx) n q => decide ((s.alive = true) ∧ let r := Reg.FWD f; (s.flag r FWD.ENABLE = true) ∧
      (s.candidate (32 + f) (s.fget r FWD.THRESH) = some (n, q))))
      (fwd) (0) (701) ({ prio := 0x2#4, target := 0x20#6, pend := true, active := false, line := false, reentered := false, edges := 0x00000000#32 })
    && (fun (s : State) (b : Bytes) => decide ((s.alive = true) ∧ (s.stewardUp = true) ∧ (s.flag .MB_CTRL MB_CTRL.BUSY = true) ∧ (b ≠ []) ∧
      (b.length ≤ 256))) (mb) ([0x01#8, 0x02#8])
    && (fun (s : State) => decide ((s.alive = true) ∧ ((s.stewardUp = false ∨ s.flag .MB_CTRL MB_CTRL.BUSY = false)))) (State.reset)
    && (fun (s : State) => decide ((s.alive = true) ∧ (s.telOn = true) ∧ (s.stage % 2 ^ s.fget .TEL_CFG TEL_CFG.TLOG2 = 0) ∧
      (s.tel.last ≠ some s.stage))) (tel)
    && (fun (s : State) => decide ((s.alive = true) ∧ ((s.telOn = false ∨ s.tel.last = some s.stage)))) (State.reset)
    && (fun (s : State) b => decide ((s.alive = true) ∧ (s.stewardUp = true) ∧ (s.tel.latched = [b]) ∧ (s.dramBad = [])))
      (tel2) ([0x07#8, 0x07#8, 0x07#8, 0x07#8, 0x07#8, 0x07#8, 0x07#8, 0x07#8, 0x07#8, 0x07#8, 0x07#8, 0x07#8, 0x07#8, 0x07#8, 0x07#8, 0x07#8, 0x07#8, 0x07#8, 0x07#8, 0x07#8, 0x07#8, 0x07#8, 0x07#8, 0x07#8, 0x07#8, 0x07#8, 0x07#8, 0x07#8, 0x07#8, 0x07#8, 0x07#8, 0x07#8, 0x07#8, 0x07#8, 0x07#8, 0x07#8, 0x07#8, 0x07#8, 0x07#8, 0x07#8, 0x07#8, 0x07#8, 0x07#8, 0x07#8, 0x07#8, 0x07#8, 0x07#8, 0x07#8, 0x07#8, 0x07#8, 0x07#8, 0x07#8, 0x07#8, 0x07#8, 0x07#8, 0x07#8, 0x07#8, 0x07#8, 0x07#8, 0x07#8, 0x07#8, 0x07#8, 0x07#8, 0x07#8])
    && (fun (s : State) => decide ((s.alive = true) ∧ ((s.stewardUp = false ∨ s.tel.latched = [])))) (State.reset)
    && (fun (s : State) (u : Upset) => decide (s.alive = true ∧ u.ue = false)) b4 ⟨5, false, 0⟩
    && (fun (s : State) (u : Upset) => decide (s.alive = true ∧ u.ue = true)) b4 ⟨5, true, 9⟩) = true := by decide +kernel

theorem witness_Recovery : (
      (fun (s : State) (a : Acc) => decide ((s.alive = true) ∧ (s.mayWrite a.by_ = true) ∧ (s.flag .RESUME_CTRL RESUME_CTRL.GO = true)))
      (rb) ({ by_ := Writer.host 0, size := Sz.full, val := 0x0000000000000000#64 })
    && (fun (s : State) (a : Acc) => decide ((s.alive = true) ∧ (s.mayWrite a.by_ = true) ∧
      let w := Reg.RESUME_CTRL.info.write (s.reg .RESUME_CTRL) a; (s.flag .RESUME_CTRL RESUME_CTRL.GO = false) ∧
      (RESUME_CTRL.GO.get w = 1))) (b0) ({ by_ := Writer.host 0, size := Sz.full, val := 0x0000000900000080#64 })
    && (fun (s : State) (a : Acc) => decide ((s.alive = true) ∧ (s.mayWrite a.by_ = true) ∧
      let v := Reg.FENCE_SUBMIT.info.write (s.reg .FENCE_SUBMIT) a; let off := FENCE_SUBMIT.OFFSET.get v;
      let len := FENCE_SUBMIT.LENGTH.get v; (s.flag .FENCE_SUBMIT FENCE_SUBMIT.GO = false) ∧ (FENCE_SUBMIT.GO.get (accOver a 0) = 1) ∧
      (off + len ≤ dramSize) ∧ (s.dramBad = []))) (State.reset) ({ by_ := Writer.steward, size := Sz.full, val := 0x8000090000000000#64 })
    && (fun (s : State) => decide ((s.alive = true) ∧ (s.resume = none))) (State.reset)
    && (fun (s : State) u pl => decide ((s.alive = true) ∧ (s.resume = some u) ∧ (u.part < 8) ∧ ((s.part u.part).plan = some pl) ∧
      (s.dramBad = []))) (rb) ({ part := 0, addr := 0, len := 3, c := 0, q := 6, early := false }) planA
    && (fun (s : State) (p : Port) (k : Packet) => decide (s.alive = true ∧ k.hdr.opc = 8 ∧ gaSpace k.hdr.ga.toNat = 1 ∧ gaZeros k.hdr.ga.toNat = true ∧ let valid := s.flag .ROUTE_SELF ROUTE_SELF.SELF_VALID = true;
      let mine := valid ∧ gaModule k.hdr.ga.toNat = s.self; let b := k.payload; let stage := leAt b 0 8; ([(Instr.lockstepSummary p k, decide (b.length = 16), 4), (.lockstepSignatures p k, decide (16 < b.length), 4), (.fenceOrder p k, true, 3)][0]?).any (fun x => decide (x.2.1 = true ∧ gaDram k.hdr.ga.toNat = x.2.2 ∧ ¬ valid)) = true)) (base4) 15 (mgmtK 4 (toLe 8 0 ++ toLe 8 0))
    && (fun (s : State) (p : Port) (k : Packet) => decide (s.alive = true ∧ k.hdr.opc = 8 ∧ gaSpace k.hdr.ga.toNat = 1 ∧ gaZeros k.hdr.ga.toNat = true ∧ let valid := s.flag .ROUTE_SELF ROUTE_SELF.SELF_VALID = true;
      let mine := valid ∧ gaModule k.hdr.ga.toNat = s.self; let b := k.payload; let stage := leAt b 0 8; ([(Instr.lockstepSummary p k, decide (b.length = 16), 4), (.lockstepSignatures p k, decide (16 < b.length), 4), (.fenceOrder p k, true, 3)][0]?).any (fun x => decide (x.2.1 = true ∧ gaDram k.hdr.ga.toNat = x.2.2 ∧ valid ∧ gaModule k.hdr.ga.toNat ≠ s.self ∧ s.isGroup (gaModule k.hdr.ga.toNat) = false)) = true)) (b4) 15 (mgmtK 4 (toLe 8 0 ++ toLe 8 0) 9)
    && (fun (s : State) (p : Port) (k : Packet) => decide (s.alive = true ∧ k.hdr.opc = 8 ∧ gaSpace k.hdr.ga.toNat = 1 ∧ gaZeros k.hdr.ga.toNat = true ∧ let valid := s.flag .ROUTE_SELF ROUTE_SELF.SELF_VALID = true;
      let mine := valid ∧ gaModule k.hdr.ga.toNat = s.self; let b := k.payload; let stage := leAt b 0 8; ([(Instr.lockstepSummary p k, decide (b.length = 16), 4), (.lockstepSignatures p k, decide (16 < b.length), 4), (.fenceOrder p k, true, 3)][0]?).any (fun x => decide (x.2.1 = true ∧ gaDram k.hdr.ga.toNat = x.2.2 ∧ mine ∧ p ≠ 15 ∧ x.2.2 = 4)) = true)) (b4) 0 (mgmtK 4 (toLe 8 0 ++ toLe 8 0))
    && (fun (s : State) (p : Port) (k : Packet) => decide (s.alive = true ∧ k.hdr.opc = 8 ∧ gaSpace k.hdr.ga.toNat = 1 ∧ gaZeros k.hdr.ga.toNat = true ∧ let valid := s.flag .ROUTE_SELF ROUTE_SELF.SELF_VALID = true;
      let mine := valid ∧ gaModule k.hdr.ga.toNat = s.self; let b := k.payload; let stage := leAt b 0 8; mine ∧ p = 15 ∧ gaDram k.hdr.ga.toNat = 4 ∧ b.length = 16 ∧ s.lockOn = true ∧ s.lock.partner = [] ∧ s.lock.failed = none ∧ s.lock.matched = [] ∧ s.lock.own = [(stage, 0)] ∧ (0 : Word).toNat = leAt b 8 8)) (lk1) 15 (mgmtK 4 (toLe 8 0 ++ toLe 8 0))
    && (fun (s : State) (p : Port) (k : Packet) => decide (s.alive = true ∧ k.hdr.opc = 8 ∧ gaSpace k.hdr.ga.toNat = 1 ∧ gaZeros k.hdr.ga.toNat = true ∧ let valid := s.flag .ROUTE_SELF ROUTE_SELF.SELF_VALID = true;
      let mine := valid ∧ gaModule k.hdr.ga.toNat = s.self; let b := k.payload; let stage := leAt b 0 8; mine ∧ p = 15 ∧ gaDram k.hdr.ga.toNat = 4 ∧ b.length = 16 ∧ s.lockOn = true ∧ s.lock.partner = [] ∧ s.lock.failed = none ∧ s.lock.matched = [] ∧ s.lock.own = [(stage, 0)] ∧ (0 : Word).toNat ≠ leAt b 8 8)) (lk1) 15 (mgmtK 4 (toLe 8 0 ++ toLe 8 3))
    && (fun (s : State) (p : Port) (k : Packet) => decide (s.alive = true ∧ k.hdr.opc = 8 ∧ gaSpace k.hdr.ga.toNat = 1 ∧ gaZeros k.hdr.ga.toNat = true ∧ let valid := s.flag .ROUTE_SELF ROUTE_SELF.SELF_VALID = true;
      let mine := valid ∧ gaModule k.hdr.ga.toNat = s.self; let b := k.payload; let stage := leAt b 0 8; mine ∧ p = 15 ∧ gaDram k.hdr.ga.toNat = 4 ∧ 16 < b.length ∧ s.lock.failed = some stage ∧ s.lock.first = none ∧
      let at_ := leAt b 8 8; let n := (b.length - 16) / 8; let differs (j : Nat) : Bool := decide (at_ + j < (s.sigList stage).length) && ((s.sigList stage).getD (at_ + j) 0).toNat != leAt b (16 + 8 * j) 8;
      (List.range n).find? differs = some 1)) (lkf) 15 (mgmtK 4 (toLe 8 0 ++ toLe 8 0 ++ toLe 8 0 ++ toLe 8 5 ++ toLe 8 0 ++ toLe 8 0))
    && (fun (s : State) (p : Port) (k : Packet) => decide (s.alive = true ∧ k.hdr.opc = 8 ∧ gaSpace k.hdr.ga.toNat = 1 ∧ gaZeros k.hdr.ga.toNat = true ∧ let valid := s.flag .ROUTE_SELF ROUTE_SELF.SELF_VALID = true;
      let mine := valid ∧ gaModule k.hdr.ga.toNat = s.self; let b := k.payload; let stage := leAt b 0 8; mine ∧ p = 15 ∧ gaDram k.hdr.ga.toNat = 4 ∧ 16 < b.length ∧ s.lock.failed = some stage ∧ s.lock.first = none ∧
      let at_ := leAt b 8 8; let n := (b.length - 16) / 8; let differs (j : Nat) : Bool := decide (at_ + j < (s.sigList stage).length) && ((s.sigList stage).getD (at_ + j) 0).toNat != leAt b (16 + 8 * j) 8;
      ∀ j ∈ List.range n, differs j = false)) (lkf) 15 (mgmtK 4 (toLe 8 0 ++ toLe 8 3 ++ toLe 8 7))
    && (fun (s : State) (p : Port) (k : Packet) => decide (s.alive = true ∧ k.hdr.opc = 8 ∧ gaSpace k.hdr.ga.toNat = 1 ∧ gaZeros k.hdr.ga.toNat = true ∧ let valid := s.flag .ROUTE_SELF ROUTE_SELF.SELF_VALID = true;
      let mine := valid ∧ gaModule k.hdr.ga.toNat = s.self; let b := k.payload; let stage := leAt b 0 8; mine ∧ gaDram k.hdr.ga.toNat = 3)) (b4) 0 (mgmtK 3 [1, 2])
    && (fun (s : State) (stage own : Word) => decide (s.alive = true ∧ s.lockOn = true ∧ s.lock.partner = [] ∧ s.lock.failed = none ∧ s.lock.own = [(stage.toNat, own)] ∧
      stage.toNat + s.fget .LS_CTRL LS_CTRL.WINDOW + 1 ≤ s.stage)) lkt 0 0
    && (fun (s : State) (stage own : Word) => decide (s.alive = true ∧ s.lockOn = true ∧ s.lock.partner = [] ∧ s.lock.failed = none ∧ s.lock.own = [(stage.toNat, own)] ∧
      s.stage < stage.toNat + s.fget .LS_CTRL LS_CTRL.WINDOW + 1)) lk1 0 0
    && (fun (s : State) => decide ((s.alive = true) ∧ ((s.fence = [] ∨ s.flag .FLT_STATUS FLT_STATUS.STEWARD_UE = true)))) (State.reset)
    && (fun (s : State) b r => decide ((s.alive = true) ∧ (s.fence = (false, b) :: r) ∧ (s.flag .FLT_STATUS FLT_STATUS.STEWARD_UE = false) ∧
      (s.fenceReason b ≠ 0))) (fe) ([0x01#8, 0x02#8]) ([])
    && (fun (s : State) b r => decide ((s.alive = true) ∧ (s.fence = (false, b) :: r) ∧ (s.flag .FLT_STATUS FLT_STATUS.STEWARD_UE = false) ∧
      (s.fenceReason b = 0)))
      (fo) fOrder []) = true := by decide +kernel

theorem witness_Attestation : (
      (fun (s : State) => decide ((s.alive = true) ∧ (s.boot_ ≠ 3) ∧ (s.boot_ ≠ 4))) (State.reset)
    && (fun (s : State) (b : SpdmBinding) => decide ((s.alive = true) ∧ let x := s.spdmOf b; (s.stewardUp = true) ∧ (x.version = true)))
      (v) (SpdmBinding.h0)
    && (fun (s : State) (b : SpdmBinding) => decide ((s.alive = true) ∧ let x := s.spdmOf b; (s.stewardUp = true) ∧ (x.version = false)))
      (b3) (SpdmBinding.h0)
    && (fun (s : State) (b : SpdmBinding) => decide ((s.alive = true) ∧ let x := s.spdmOf b; (s.stewardUp = true) ∧ (x.caps = true)))
      (c) (SpdmBinding.h0)
    && (fun (s : State) (b : SpdmBinding) => decide ((s.alive = true) ∧ let x := s.spdmOf b; (s.stewardUp = true) ∧ (x.caps = false)))
      (b3) (SpdmBinding.h0)
    && (fun (s : State) (b : SpdmBinding) => decide ((s.alive = true) ∧ let x := s.spdmOf b; (s.stewardUp = true) ∧ (x.algs = false)))
      (b3) (SpdmBinding.h0)
    && (fun (s : State) (b : SpdmBinding) (slot : BitVec 4) => decide ((s.alive = true) ∧ let x := s.spdmOf b; (s.stewardUp = true) ∧
      (x.algs = true) ∧ ((s.boot.chain = none ∨ slot ≠ 0)))) (a) (SpdmBinding.h0) (0x7#4)
    && (fun (s : State) (b : SpdmBinding) (c : Bytes) => decide ((s.alive = true) ∧ let x := s.spdmOf b; (s.stewardUp = true) ∧
      (x.algs = true) ∧ (s.boot.chain = some c))) (a) (SpdmBinding.h0) ([0x01#8, 0x02#8, 0x03#8])) = true := by decide +kernel

theorem witness_RegisterAccess : (
      (fun (s : State) (w : RegWrite) => decide (s.alive = true ∧ let a := accOf w; let r := Reg.ofOff (w.off.toNat / 8 * 8); s.fresh.advance w.at_ = none)) (State.reset) { by_ := .steward, off := 0x200010, bytes := 8, val := 5, at_ := ⟨1000000000, 0⟩ }
    && (fun (s : State) (w : RegWrite) => decide (s.alive = true ∧ let a := accOf w; let r := Reg.ofOff (w.off.toNat / 8 * 8); (s.fresh.advance w.at_).isSome = true ∧ s.mayWrite w.by_ = true ∧ (a = none ∨ r = none ∨ ∃ q, r = some q ∧ s.regAbsent q = true))) (State.reset) { by_ := .steward, off := 0x200010, bytes := 2, val := 5 }
    && (fun (s : State) (w : RegWrite) => decide (s.alive = true ∧ let a := accOf w; let r := Reg.ofOff (w.off.toNat / 8 * 8); (s.fresh.advance w.at_).isSome = true ∧ s.mayWrite w.by_ = true ∧ (a = none ∨ r = none ∨ ∃ q, r = some q ∧ s.regAbsent q = true))) (State.reset) { by_ := .steward, off := 0x3FFFFF8, bytes := 8, val := 5 }
    && (fun (s : State) (w : RegWrite) => decide (s.alive = true ∧ let a := accOf w; let r := Reg.ofOff (w.off.toNat / 8 * 8); (s.fresh.advance w.at_).isSome = true ∧ w.by_ = .host 0 ∧ s.owner ≠ some (0 : HostPort).val ∧ (a = none ∨ r = none ∨ ∃ q, r = some q ∧ s.regAbsent q = true))) (State.reset) { by_ := .host 0, off := 0x200010, bytes := 2, val := 5 }
    && (fun (s : State) (w : RegWrite) => decide (s.alive = true ∧ let a := accOf w; let r := Reg.ofOff (w.off.toNat / 8 * 8); (s.fresh.advance w.at_).isSome = true ∧ let q := Reg.STG_STATUS; a = some ⟨.steward, .full, 5⟩ ∧ r = some q ∧ s.mayWrite w.by_ = true ∧ s.regAbsent q = false ∧ q ∈ [.STG_STATUS, .BOOT_ADDR, .RLY_EXPECT, .ADU_REQ_SEL, .FWD 3, .TALLY_LIMIT 9])) (State.reset) { by_ := .steward, off := 0x200010, bytes := 8, val := 5 }
    && decide (State.reset.alive = true ∧ let z : Option Sz := if 2 = 8 ∧ (0x200010 : BitVec 26).toNat % 8 = 0 then some .full else if 2 = 4 ∧ (0x200010 : BitVec 26).toNat % 8 = 0 then some .lo else if 2 = 4 ∧ (0x200010 : BitVec 26).toNat % 8 = 4 then some .hi else none; (z = none ∨ Reg.ofOff 0x200010 = none))
    && decide (State.reset.alive = true ∧ let z : Option Sz := if 8 = 8 ∧ (0x3FFFFF8 : BitVec 26).toNat % 8 = 0 then some .full else if 8 = 4 ∧ (0x3FFFFF8 : BitVec 26).toNat % 8 = 0 then some .lo else if 8 = 4 ∧ (0x3FFFFF8 : BitVec 26).toNat % 8 = 4 then some .hi else none; (z = none ∨ Reg.ofOff 0x3FFFFF8 = none))
    && decide (State.reset.alive = true ∧ let z : Option Sz := if 4 = 8 ∧ (0x200014 : BitVec 26).toNat % 8 = 0 then some .full else if 4 = 4 ∧ (0x200014 : BitVec 26).toNat % 8 = 0 then some .lo else if 4 = 4 ∧ (0x200014 : BitVec 26).toNat % 8 = 4 then some .hi else none; z = some .hi ∧ let q := Reg.STG_STATUS; Reg.ofOff ((0x200014 : BitVec 26).toNat / 8 * 8) = some q ∧ q ∈ [.STG_STATUS, .BOOT_ADDR, .RLY_EXPECT, .ADU_REQ_SEL, .FWD 3])
    && decide (b1.alive = true ∧ b1.boot_ ≠ 0)
    && (fun (s : State) (k : Packet) => decide (s.alive = true ∧ k.hdr.opc.toNat = 8 ∧ s.flag .ROUTE_SELF ROUTE_SELF.SELF_VALID = true ∧ let ga := k.hdr.ga.toNat; let len := leAt k.payload 0 4; let bar0 := bits ga 45 26 = 0; gaModule ga = s.self ∧ gaSpace ga = 2 ∧ (k.payload.length ≠ 8 ∨ len < 8 ∨ 4064 < len ∨ len % 8 ≠ 0 ∨ ga % 8 ≠ 0 ∨ ¬ bar0))) b4 (readK 0x800000000000 4)
    && (fun (s : State) (k : Packet) => decide (s.alive = true ∧ k.hdr.opc.toNat = 8 ∧ s.flag .ROUTE_SELF ROUTE_SELF.SELF_VALID = true ∧ let ga := k.hdr.ga.toNat; let len := leAt k.payload 0 4; let bar0 := bits ga 45 26 = 0; gaModule ga = s.self ∧ gaSpace ga = 2 ∧ (k.payload.length ≠ 8 ∨ len < 8 ∨ 4064 < len ∨ len % 8 ≠ 0 ∨ ga % 8 ≠ 0 ∨ ¬ bar0))) b4 (readK 0x800004000000 8)
    && (fun (s : State) (k : Packet) => decide (s.alive = true ∧ k.hdr.opc.toNat = 8 ∧ s.flag .ROUTE_SELF ROUTE_SELF.SELF_VALID = true ∧ let ga := k.hdr.ga.toNat; let len := leAt k.payload 0 4; let bar0 := bits ga 45 26 = 0; gaModule ga = s.self ∧ gaSpace ga = 2 ∧ k.payload.length = 8 ∧ len = 8 ∧ ga % 2 ^ 46 = 0)) b4 (readK 0x800000000000 8)
    && (fun (s : State) (k : Packet) => decide (s.alive = true ∧ k.hdr.opc.toNat = 8 ∧ s.flag .ROUTE_SELF ROUTE_SELF.SELF_VALID = true ∧ let ga := k.hdr.ga.toNat; let len := leAt k.payload 0 4; let bar0 := bits ga 45 26 = 0; gaModule ga = s.self ∧ mgmtKnown ga = false)) b4 (readK 0x400000000008 8)
    && (fun (s : State) (k : Packet) => decide (s.alive = true ∧ k.hdr.opc.toNat = 8 ∧ s.flag .ROUTE_SELF ROUTE_SELF.SELF_VALID = true ∧ let ga := k.hdr.ga.toNat; let len := leAt k.payload 0 4; let bar0 := bits ga 45 26 = 0; gaModule ga = s.self ∧ mgmtKnown ga = true)) b4 (readK 0x800000000000 8)
    && (fun (s : State) (k : Packet) => decide (s.alive = true ∧ k.hdr.opc.toNat = 8 ∧ s.flag .ROUTE_SELF ROUTE_SELF.SELF_VALID = true ∧ let ga := k.hdr.ga.toNat; let len := leAt k.payload 0 4; let bar0 := bits ga 45 26 = 0; gaModule ga ≠ s.self ∧ s.isGroup (gaModule ga) = false ∧ gaSpace ga = 2)) b4 (readK 0x0009800000000000 8)) = true := by decide +kernel

end Start

/-! The limits of a command: an ill-formed command for each check of WellFormed, which the check refuses, beside a well-formed one. -/
namespace Limits

def acc (z : Sz) (v : Word) : Acc := ⟨.host 0, z, v⟩
def pkt (n : Nat) : Packet := { hdr := hdrP 4 0 0 0 0, payload := List.replicate n 0 }
def frame (n : Nat) : Frame :=
  { seq := 0, kind := 0, flags := 0, valid := 0, epoch := 0, stage := 0, slot := 0, body := List.replicate n 0, crc := 0 }
def launch (n : Nat) : LaunchPkt :=
  { src := 0, launchId := 0, kind := 0, depth := 0, flags := 0, reason := 0, parent := 0, grandparent := 0, count := 0, streamOff := 0,
    streamLen := 0, data := List.replicate n 0 }
def dram (op : MemOp) (u : List Upset) : DramReq := { by_ := .packet 0, off := 0, op := op, upsets := u }
def meas (n : Rgn) : RegionMeas := ⟨n, 0, 0, none, none, ⟨0, 0, 0, 0, 0, 0, 0⟩⟩

theorem wf_access : (Instr.resetTime (acc .lo 0xFFFFFFFF)).wf = true ∧ (Instr.resetTime (acc .lo 0x100000000)).wf = false := by decide +kernel
theorem wf_register_write : (Instr.registerWrite ⟨.host 0, 0, 8, 5, ⟨0, 0⟩⟩).wf = true ∧ (Instr.registerWrite ⟨.host 0, 0, 0, 0, ⟨0, 0⟩⟩).wf = false
    ∧ (Instr.registerWrite ⟨.host 0, 0, 9, 0, ⟨0, 0⟩⟩).wf = false ∧ (Instr.registerWrite ⟨.host 0, 0, 1, 256, ⟨0, 0⟩⟩).wf = false := by decide +kernel
theorem wf_calibration : (Instr.calibrationComplete ⟨none, 0, [(0, 1)], [(0, 1)], []⟩).wf = true
    ∧ (Instr.calibrationComplete ⟨none, 0, [(0, 1), (0, 2)], [], []⟩).wf = false
    ∧ (Instr.calibrationComplete ⟨none, 0, [], [(0, 1), (0, 2)], []⟩).wf = false
    ∧ (Instr.calibrationComplete ⟨none, 0, [], [], [(0, 1), (0, 1)]⟩).wf = false := by decide +kernel
theorem wf_boundary : (Instr.stageBoundary ⟨[meas 0, meas 1], [0], [⟨0, 1, 1⟩]⟩).wf = true
    ∧ (Instr.stageBoundary ⟨[meas 0, meas 0], [], []⟩).wf = false ∧ (Instr.stageBoundary ⟨[], [0, 0], []⟩).wf = false
    ∧ (Instr.stageBoundary ⟨[], [], [⟨0, 1, 1⟩, ⟨0, 2, 2⟩]⟩).wf = false := by decide +kernel
theorem wf_memory_access : (Instr.lpddrRequest (dram (.read 1) [⟨0, true, 5⟩])).wf = true ∧ (Instr.lpddrRequest (dram (.read 0) [])).wf = false
    ∧ (Instr.lpddrRequest (dram (.write []) [])).wf = false ∧ (Instr.lpddrRequest (dram (.read 1) [⟨0, false, 5⟩])).wf = false
    ∧ (Instr.lpddrRequest (dram (.read 1) [⟨0, true, 5⟩, ⟨0, false, 0⟩])).wf = false := by decide +kernel
theorem wf_bank_access : (Instr.bankAccess 0 { agent := 0, addr := 0, op := .read 1, upsets := [] }).wf = true
    ∧ (Instr.bankAccess 0 { agent := 0, addr := 0, op := .read 0, upsets := [] }).wf = false := by decide +kernel
theorem wf_mr4 : (Instr.mr4Read 0 ⟨List.replicate 9 0, 0⟩).wf = true ∧ (Instr.mr4Read 0 ⟨List.replicate 8 0, 0⟩).wf = false := by decide +kernel
theorem wf_sequencer_store : (Instr.seqBankLoadStore 0 ⟨true, .byte, false, 0, 255, 0⟩).wf = true
    ∧ (Instr.seqBankLoadStore 0 ⟨true, .byte, false, 0, 256, 0⟩).wf = false ∧ (Instr.seqBankLoadStore 0 ⟨true, .half, false, 0, 65536, 0⟩).wf = false := by
  decide +kernel
theorem wf_packet : (Instr.putPacket 0 (pkt 4096)).wf = true ∧ (Instr.putPacket 0 (pkt 4097)).wf = false := by decide +kernel
theorem wf_launch_packet : (Instr.launchData 0 (launch 4096)).wf = true ∧ (Instr.launchData 0 (launch 4097)).wf = false := by decide +kernel
theorem wf_slot : (Instr.slotSend 0 ⟨2843, false⟩).wf = true ∧ (Instr.slotSend 0 ⟨2844, false⟩).wf = false := by decide +kernel
theorem wf_frame : (Instr.idleFrame 0 (frame 256)).wf = true ∧ (Instr.idleFrame 0 (frame 255)).wf = false := by decide +kernel
theorem wf_clear : (Instr.immediateClearLand 0 [0, 1]).wf = true ∧ (Instr.immediateClearLand 0 [1, 1]).wf = false := by decide +kernel
theorem wf_mirror : (Instr.mirrorBinding 0 (pkt 4096)).wf = true ∧ (Instr.mirrorBinding 0 (pkt 4097)).wf = false := by decide +kernel
theorem wf_aperture : (Instr.apertureRead 0 0 1).wf = true ∧ (Instr.apertureRead 0 0 0).wf = false
    ∧ (Instr.apertureWrite 0 0 [1]).wf = true ∧ (Instr.apertureWrite 0 0 []).wf = false := by decide +kernel
theorem wf_firmware : (Instr.firmwareReady [(3, 1, 0)]).wf = true ∧ (Instr.firmwareReady [(3, 1, 0), (3, 2, 0)]).wf = false := by decide +kernel
theorem wf_nonce : (Instr.challenge .smbus 0 (List.replicate 32 1)).wf = true ∧ (Instr.challenge .smbus 0 [1]).wf = false
    ∧ (Instr.getMeasurements .smbus 0 false []).wf = true ∧ (Instr.getMeasurements .smbus 0 true []).wf = false := by decide +kernel
theorem wf_mailbox : (Instr.mbReply 0 [1]).wf = true ∧ (Instr.mbReply 0 []).wf = false ∧ (Instr.mbReply 0 (List.replicate 257 0)).wf = false := by
  decide +kernel
theorem wf_signatures : (Instr.lockstepSignatures 15 (pkt 4096)).wf = true ∧ (Instr.lockstepSignatures 15 (pkt 4097)).wf = false := by decide +kernel
theorem wf_fence : (Instr.fenceOrder 0 (pkt 4096)).wf = true ∧ (Instr.fenceOrder 0 (pkt 4097)).wf = false := by decide +kernel
theorem wf_sequencer_upsets : (Instr.seqInstruction 0 (.rv [⟨true, ⟨0, true, 5⟩⟩])).wf = true
    ∧ (Instr.seqInstruction 0 (.rv [⟨true, ⟨0, true, 5⟩⟩, ⟨true, ⟨0, false, 0⟩⟩])).wf = false ∧ (Instr.seqInstruction 0 (.rv [⟨false, ⟨0, false, 5⟩⟩])).wf = false := by
  decide +kernel
theorem wf_steward_upset : (Instr.stewardMemoryUe ⟨262143, true, 5⟩).wf = true ∧ (Instr.stewardMemoryUe ⟨262144, true, 5⟩).wf = false
    ∧ (Instr.stewardMemoryUe ⟨0, false, 5⟩).wf = false := by decide +kernel
theorem wf_time_packet : (Instr.announceMessage 0 (pkt 4096)).wf = true ∧ (Instr.announceMessage 0 (pkt 4097)).wf = false := by decide +kernel

end Limits

/-! The worked examples of the spec. -/
namespace Examples

/-- spec/00_scope.md, naming one tile: tile 37 of CD5 is GT 357, of region 5.4, with its window from 0x0259_4000. -/
theorem test_tile_window : 5 * 64 + 37 = 357 ∧ 357 / 8 = 5 * 8 + 4 ∧ (Reg.SEQ_PC 357).off = (Reg.SEQ_PC 0).off + 0x165 * 0x4000
    ∧ 0x02594000 ≤ (Reg.SEQ_PC 357).off ∧ (Reg.SEQ_PC 357).off ≤ 0x02597FFF := by decide
/-- spec/03_memory.md, decoding one offset. -/
theorem test_dram_offset : dramIod 0x56789ABC00 = 1 ∧ dramRow 0x56789ABC00 = 46020 ∧ dramBank 0x56789ABC00 = 10
    ∧ dramCheckCtl 0x56789ABC00 = 3 := by decide
/-- spec/04_formats.md, the encodings of 0.1, of 300, of 500 and of 3.3 (the FP32 values nearest 0.1 and 3.3). -/
theorem test_encode_fp8 : Fmt.e4m3.encode .rne false (fp32.decode 0x3DCCCCCD) = 0x1D ∧ Fmt.e5m2.encode .rne false (fp32.decode 0x3DCCCCCD) = 0x2E
    ∧ Fmt.e4m3.encode .rne false (.ofInt 300) = 0x79 := by decide
theorem test_encode_saturates : Fmt.e4m3.encode .rne true (.ofInt 500) = 0x7E ∧ Fmt.e4m3.encode .rne false (.ofInt 500) = 0x7F := by decide
theorem test_encode_micro : Fmt.e3m2.encode .rne false (fp32.decode 0x40533333) = 0x13 ∧ Fmt.e2m3.encode .rne false (fp32.decode 0x40533333) = 0x15 := by
  decide
/-- spec/04_formats.md, stochastic rounding of one element. -/
theorem test_stochastic_rounding : Fmt.e4m3.encode (.sr 0x7000) false (fp32.decode 0x3F99999A) = 0x3A
    ∧ Fmt.e4m3.encode (.sr 0x1000) false (fp32.decode 0x3F99999A) = 0x39 ∧ Fmt.e4m3.encode .rtz false (fp32.decode 0x3F99999A) = 0x39
    ∧ Fmt.e4m3.encode .rne false (fp32.decode 0x3F99999A) = 0x3A := by decide
theorem test_draw_counter : drawCounter 0 40000 17 900 = 0x0027100011000384#64 := by decide
/-- spec/04_formats.md, one FP4 block: 5.25, 0.35 and −1.45 round to 6, 0.5 and −1.5. -/
theorem test_encode_fp4 : Fmt.e2m1.encode .rne false (.num false 21 (-2)) = 0x7 ∧ Fmt.e2m1.encode .rne false ((fp32.decode 0x3F333333).scale (-1)) = 0x1
    ∧ Fmt.e2m1.encode .rne false ((fp32.decode 0xC039999A).scale (-1)) = 0xB := by decide
/-- spec/06_vector_engine.md, one sampled token: the counter of the draw, and the merged record. -/
theorem test_sample_counter : drawCounter 1 40001 0 70001 = 0x4027104000011171#64 := by decide
theorem test_merge : (mergeRow [⟨val32 0x4163DD3D#32, 70001, val32 0x415E0000#32, .ofInt 14, .ofInt 3, 0⟩,
    ⟨val32 0x41620000#32, 91500, val32 0x41680000#32, .ofInt 15, .ofInt 2, 0⟩]).logprob = 0xC010 := by decide +kernel
theorem test_merge_token : (mergeRow [⟨val32 0x4163DD3D#32, 70001, val32 0x415E0000#32, .ofInt 14, .ofInt 3, 0⟩,
    ⟨val32 0x41620000#32, 91500, val32 0x41680000#32, .ofInt 15, .ofInt 2, 0⟩]).id = 70001 := by decide +kernel
/-- spec/08_dma.md, one byte position of a three-shard group. -/
theorem test_parity : parityP 1 [[0x35], [0x9A], [0xC1]] = [0x6E] ∧ parityQ 1 [[0x35], [0x9A], [0xC1]] = [0x3F] := by decide
/-- spec/08_dma.md, R262: word 2 of a ring entry is LEN 64, OP 1, SRC_KIND and DST_KIND 1, CREC, TAG 0x1234; OP 6 is reserved. -/
def entryOf (w2 : Nat) : Bytes := toLe 8 0x0006400000001000 ++ toLe 8 0x400000002000 ++ toLe 8 w2 ++ List.replicate 40 0
theorem test_descriptor_of_ring_entry : (let r := descOfBytes (entryOf 0x1234015100000040)
    r.1 = DescOp.get ∧ r.2.src = 0x0006400000001000 ∧ r.2.dst = 0x400000002000 ∧ r.2.len = 64 ∧ r.2.srcKind = 1 ∧ r.2.dstKind = 1 ∧ r.2.crec = true
      ∧ r.2.paged = false ∧ r.2.tag = 0x1234 ∧ r.2.rsvOp = none) := by decide +kernel
theorem test_descriptor_reserved_op : (descOfBytes (entryOf 0x0000005600000040)).2.rsvOp = some 0 := by decide +kernel
/-- spec/01_module.md, R24: the fuses that the model names are those of their grade; one tile less is no A512. -/
theorem test_grade_of_fuses : Fuses.named.gradeOk = true ∧ { Fuses.named with tiles := Fuses.named.tiles.set 0 0xFFFFFFFFFFFFFFFE }.gradeOk = false := by
  decide +kernel
/-- spec/15_host_ports.md, a claim race: H0's claim arrives first, and H1's fails and is not counted. -/
theorem test_claim_race : (match exec (.ownClaim ⟨.host 0, .full, 0xA0A00001⟩) (upBoot 4) with
    | .next s => (match exec (.ownClaim ⟨.host 1, .full, 0xB0B00002⟩) s with
      | .next t => t.owner == some 0 && t.reg .OWN_CLAIM == 0xA0A00001#64 && t.fget (.HP_COUNT 1) HP_COUNT.DISCARDS == 0
      | _ => false)
    | _ => false) = true := by decide +kernel

end Examples

end Sys2Proof.Tests
end

section
/-! PROOFS. Registers reached by an offset of BAR0: what a write makes of each bit, who may make it, what a read gives, and the packets that
read registers from another module. -/

namespace Sys2Proof.Machine

/-! The bits that a write changes (R6, R7). -/

/-- Whether an access of a size addresses a bit of the register. -/
def bitAddressed (z : Sz) (b : Nat) : Bool := match z with | .full => true | .lo => decide (b < 32) | .hi => decide (32 ≤ b)
/-- The bit of the written value that stands at a bit of the register. -/
def bitWritten (a : Acc) (b : Nat) : Bool := match a.size with | .hi => a.val.getLsbD (b - 32) | _ => a.val.getLsbD b

theorem getLsbD_low_half (b : Nat) (hb : b < 64) : (0xFFFFFFFF : Word).getLsbD b = decide (b < 32) := by
  revert b; decide
theorem getLsbD_high_half (b : Nat) (hb : b < 64) : (0xFFFFFFFF00000000 : Word).getLsbD b = decide (32 ≤ b) := by
  revert b; decide

theorem accMask_getLsbD (a : Acc) (b : Nat) (hb : b < 64) : (accMask a).getLsbD b = bitAddressed a.size b := by
  unfold accMask bitAddressed
  cases a.size with
  | full => revert b; decide
  | lo => exact getLsbD_low_half b hb
  | hi => exact getLsbD_high_half b hb

theorem accWide_and_accMask_getLsbD (a : Acc) (b : Nat) (hb : b < 64) :
    (accWide a &&& accMask a).getLsbD b = (bitAddressed a.size b && bitWritten a b) := by
  rw [BitVec.getLsbD_and, accMask_getLsbD a b hb, Bool.and_comm]
  unfold accWide bitAddressed bitWritten
  cases a.size with
  | full => rfl
  | lo =>
    show (decide (b < 32) && (a.val &&& 0xFFFFFFFF).getLsbD b) = _
    rw [BitVec.getLsbD_and, getLsbD_low_half b hb]
    cases decide (b < 32) <;> simp
  | hi =>
    by_cases h : 32 ≤ b
    · rw [BitVec.getLsbD_shiftLeft]; simp [hb, h, Nat.not_lt.mpr h]
    · simp [h]

/-- One bit of a written register, before the field kinds are told apart. -/
theorem RegInfo.write_getLsbD (i : RegInfo) (old : Word) (a : Acc) (b : Nat) (hb : b < 64) :
    (i.write old a).getLsbD b =
      ((old.getLsbD b && !(i.rw.getLsbD b && bitAddressed a.size b) || bitAddressed a.size b && bitWritten a b && i.rw.getLsbD b)
          && !(bitAddressed a.size b && bitWritten a b && i.w1c.getLsbD b)
        || bitAddressed a.size b && bitWritten a b && i.w1s.getLsbD b) := by
  unfold RegInfo.write
  have hv := accWide_and_accMask_getLsbD a b hb
  generalize accWide a &&& accMask a = v at hv
  simp only [BitVec.getLsbD_or, BitVec.getLsbD_and, BitVec.getLsbD_not, accMask_getLsbD a b hb, hv, hb, decide_true, Bool.true_and]

/-- No bit has two kinds in a register whose field kinds are disjoint. -/
theorem getLsbD_of_and_eq_zero {x y : Word} (h : x &&& y = 0) (b : Nat) (hx : x.getLsbD b = true) : y.getLsbD b = false := by
  have hxy : (x &&& y).getLsbD b = false := by rw [h]; simp
  simpa [hx] using hxy

/-- What a write makes of a bit, by the kind of its field (R6, R7). -/
theorem RegInfo.write_getLsbD_by_kind (i : RegInfo) (old : Word) (a : Acc) (b : Nat) (hb : b < 64)
    (hrw : i.rw &&& (i.w1c ||| i.w1s) = 0) (hw1 : i.w1c &&& i.w1s = 0) :
    (i.write old a).getLsbD b =
      if bitAddressed a.size b then
        if i.rw.getLsbD b then bitWritten a b
        else if i.w1c.getLsbD b then old.getLsbD b && !bitWritten a b
        else if i.w1s.getLsbD b then old.getLsbD b || bitWritten a b
        else old.getLsbD b
      else old.getLsbD b := by
  rw [RegInfo.write_getLsbD i old a b hb]
  by_cases had : bitAddressed a.size b = true
  · by_cases h1 : i.rw.getLsbD b = true
    · have h2 := getLsbD_of_and_eq_zero hrw b h1
      rw [BitVec.getLsbD_or, Bool.or_eq_false_iff] at h2
      simp [had, h1, h2]
    · by_cases h2 : i.w1c.getLsbD b = true
      · simp [had, h1, h2, getLsbD_of_and_eq_zero hw1 b h2]
      · by_cases h3 : i.w1s.getLsbD b = true <;> simp [had, h1, h2, h3]
  · simp [had]

/-! What the passage of time leaves: the owner and the fuses (R367, R465, R472). -/

theorem State.setFabric_owner (s : State) (t : Nat) : (s.setFabric t).owner = s.owner := rfl
theorem State.setFabric_fuses (s : State) (t : Nat) : (s.setFabric t).fuses = s.fuses := rfl
theorem State.owner_out (s : State) (o : List Out) : ({ s with out := o } : State).owner = s.owner := rfl
theorem State.owner_time (s : State) (t : TimeSt) : ({ s with time := t } : State).owner = s.owner := rfl
theorem State.fuses_time (s : State) (t : TimeSt) : ({ s with time := t } : State).fuses = s.fuses := rfl

theorem State.owner_congr {s t : State} (h : t.reg .OWN_STATUS = s.reg .OWN_STATUS) : t.owner = s.owner := by
  unfold State.owner State.flag State.fget
  rw [h]

theorem State.holdUs_owner (s : State) : s.holdUs.owner = s.owner := by
  apply State.owner_congr
  unfold State.holdUs
  cases s.time.holdFrom with
  | none => rfl
  | some b =>
    by_cases h : s.time.refLost = true
    · simp [h]
    · simp only [h, Bool.false_eq_true, if_false]
      exact State.reg_fset_ne _ _ _ _ _ (by decide)
theorem State.holdUs_fuses (s : State) : s.holdUs.fuses = s.fuses := by
  unfold State.holdUs
  cases s.time.holdFrom with
  | none => rfl
  | some b => by_cases h : s.time.refLost = true <;> simp [h]

/-- LAPSE_LEFT_MS stands beside the fields that name the owner. -/
theorem State.lapseLeft_owner (s : State) : s.lapseLeft.owner = s.owner := by
  unfold State.lapseLeft
  cases s.lapseFrom with
  | none => rfl
  | some b =>
    unfold State.owner State.flag
    rw [State.fget_fset_beside _ .OWN_STATUS OWN_STATUS.LAPSE_LEFT_MS OWN_STATUS.OWNED _ (by decide),
      State.fget_fset_beside _ .OWN_STATUS OWN_STATUS.LAPSE_LEFT_MS OWN_STATUS.OWNER _ (by decide)]
theorem State.lapseLeft_fuses (s : State) : s.lapseLeft.fuses = s.fuses := by
  unfold State.lapseLeft
  cases s.lapseFrom with
  | none => rfl
  | some b => simp

theorem State.pass_owner (s : State) (d : Nat) : (s.pass d).owner = s.owner := by
  unfold State.pass
  rw [State.lapseLeft_owner, State.holdUs_owner, State.owner_time, State.setFabric_owner]
theorem State.pass_fuses (s : State) (d : Nat) : (s.pass d).fuses = s.fuses := by
  unfold State.pass
  rw [State.lapseLeft_fuses, State.holdUs_fuses, State.fuses_time, State.setFabric_fuses]

/-- A moment of the stage in progress is reached by the passage of time alone. -/
theorem State.eq_pass_of_advance {s r : State} {t : TimeIn} (h : s.advance t = some r) : r = s.pass (timeUnits t) := by
  unfold State.advance at h
  split at h
  · cases h
  · exact (Option.some.inj h).symm
theorem State.owner_of_advance {s r : State} {t : TimeIn} (h : s.advance t = some r) : r.owner = s.owner := by
  rw [State.eq_pass_of_advance h, State.pass_owner]
theorem State.fuses_of_advance {s r : State} {t : TimeIn} (h : s.advance t = some r) : r.fuses = s.fuses := by
  rw [State.eq_pass_of_advance h, State.pass_fuses]

theorem State.mayWrite_congr {s t : State} (h : t.owner = s.owner) (w : Writer) : t.mayWrite w = s.mayWrite w := by
  cases w with
  | steward => rfl
  | host p => simp only [State.mayWrite, h]
theorem State.regAbsent_congr {s t : State} (h : t.fuses = s.fuses) (r : Reg) : t.regAbsent r = s.regAbsent r := by
  simp only [State.regAbsent, State.tilePresent, State.portPresent, h]
/-- A port that does not own the module is no writer of owner-only registers. -/
theorem State.mayWrite_host_of_ne {s : State} {p : HostPort} (h : s.owner ≠ some p.val) : s.mayWrite (.host p) = false := by
  simpa [State.mayWrite] using h

/-! The access that a write or a read of BAR0 makes (R7, R9). -/

/-- Two accesses address a whole register and one of its halves; every other size or alignment addresses none. -/
theorem readSz_eq (off bytes : Nat) : readSz off bytes =
    if bytes = 8 ∧ off % 8 = 0 then some .full else if bytes = 4 ∧ off % 8 = 0 then some .lo
    else if bytes = 4 ∧ off % 8 = 4 then some .hi else none := by
  unfold readSz
  by_cases h8 : bytes = 8
  · by_cases h0 : off % 8 = 0 <;> simp [h8, h0]
  · by_cases h4 : bytes = 4
    · by_cases h0 : off % 8 = 0
      · have : off % 4 = 0 := by omega
        simp [h4, h0, this]
      · by_cases hh : off % 8 = 4
        · have : off % 4 = 0 := by omega
          simp [h4, hh, this]
        · have : off % 4 ≠ 0 := by omega
          simp [h4, h0, hh, this]
    · simp [h8, h4]

/-- A write's access to the part of the register that it addresses: a half carries 32 bits. -/
def accAt (w : RegWrite) (z : Sz) : Acc := ⟨w.by_, z, if z = .full then w.val else w.val &&& 0xFFFFFFFF⟩

theorem accOf_eq (w : RegWrite) : accOf w = (readSz w.off.toNat w.bytes).map (accAt w) := by
  unfold accOf readSz
  by_cases h8 : w.bytes = 8 ∧ w.off.toNat % 8 = 0
  · simp [h8, accAt]
  · by_cases h4 : w.bytes = 4 ∧ w.off.toNat % 4 = 0
    · by_cases h0 : w.off.toNat % 8 = 0 <;> simp [h4, h0, accAt]
    · simp [h8, h4]

theorem accOf_by {w : RegWrite} {a : Acc} (h : accOf w = some a) : a.by_ = w.by_ := by
  rw [accOf_eq, Option.map_eq_some_iff] at h
  obtain ⟨z, -, rfl⟩ := h
  rfl

/-! Writes to an offset of BAR0 (R2, R7, R9, R465). -/

/-- The register has no rule of its own: an owner-only write applies by the kinds of its fields. -/
def Reg.PlainRule (q : Reg) : Prop := ∀ (s : State) (a : Acc), s.writeReg q a = s.owned a.by_ (·.plainWrite q a)
/-- The write addresses no register: another size or alignment, an unassigned offset, or a fused tile's or absent port's window. -/
def State.NoRegister (s : State) (w : RegWrite) : Prop :=
  accOf w = none ∨ Reg.ofOff (w.off.toNat / 8 * 8) = none ∨ ∃ q, Reg.ofOff (w.off.toNat / 8 * 8) = some q ∧ s.regAbsent q = true

theorem State.NoRegister.congr {s t : State} {w : RegWrite} (h : t.fuses = s.fuses) (hw : s.NoRegister w) : t.NoRegister w := by
  simpa only [State.NoRegister, State.regAbsent_congr h] using hw

theorem State.regWrite_of_noRegister {s : State} {w : RegWrite} (h : s.NoRegister w) : s.regWrite w = s.owned w.by_ id := by
  unfold State.regWrite
  rcases h with h | h | ⟨q, hq, habs⟩
  · rw [h]
  · rw [h]; cases accOf w <;> rfl
  · rw [hq]; cases accOf w with
    | none => rfl
    | some a => simp [habs]

theorem State.regWrite_of_plain {s : State} {w : RegWrite} {a : Acc} {q : Reg} (ha : accOf w = some a)
    (hq : Reg.ofOff (w.off.toNat / 8 * 8) = some q) (habs : s.regAbsent q = false) (hp : q.PlainRule) :
    s.regWrite w = s.owned w.by_ (·.plainWrite q a) := by
  unfold State.regWrite
  rw [ha, hq, ← accOf_by ha]
  simp only [habs, Bool.false_eq_true, if_false]
  exact hp s a

/-- A write by no owner is counted, whether or not it addresses a register. -/
theorem State.regWrite_of_not_mayWrite {s : State} {w : RegWrite} {q : Reg} (hw : s.mayWrite w.by_ = false)
    (hq : Reg.ofOff (w.off.toNat / 8 * 8) = some q) (hp : q.PlainRule) : s.regWrite w = s.discard w.by_ := by
  cases ha : accOf w with
  | none => rw [State.regWrite_of_noRegister (.inl ha), State.owned_of_not _ _ _ hw]
  | some a =>
    cases habs : s.regAbsent q with
    | true => rw [State.regWrite_of_noRegister (.inr (.inr ⟨q, hq, habs⟩)), State.owned_of_not _ _ _ hw]
    | false => rw [State.regWrite_of_plain ha hq habs hp, State.owned_of_not _ _ _ hw]

section
variable {s r : State} {w : RegWrite}

/-- The definition as one equation of functions: the equation at given arguments makes the kernel evaluate `advance`. -/
theorem State.atTime_def : State.atTime = fun s t f => match s.advance t with | none => s | some r => f r := rfl
theorem State.atTime_of_some {t : TimeIn} {f : State → State} (h : s.advance t = some r) : s.atTime t f = f r := by
  rw [State.atTime_def]; dsimp only; rw [h]
theorem State.atTime_of_none {t : TimeIn} {f : State → State} (h : s.advance t = none) : s.atTime t f = s := by
  rw [State.atTime_def]; dsimp only; rw [h]

theorem exec_registerWrite (hs : s.alive = true) :
    exec (.registerWrite w) s = .next (s.keepOuter (s.fresh.atTime w.at_ (·.regWrite w))) :=
  live_of_alive s (·.atTime w.at_ (·.regWrite w)) hs
/-- A write at a moment of the stage in progress. -/
theorem exec_registerWrite_of_advance (hs : s.alive = true) (hr : s.fresh.advance w.at_ = some r) :
    exec (.registerWrite w) s = .next (s.keepOuter (r.regWrite w)) := by
  rw [exec_registerWrite hs, State.atTime_of_some (s := s.fresh) hr]
/-- A write that names a moment outside the stage in progress is none. -/
theorem exec_registerWrite_of_no_moment (hs : s.alive = true) (hr : s.fresh.advance w.at_ = none) :
    exec (.registerWrite w) s = .next s.fresh := by
  rw [exec_registerWrite hs, State.atTime_of_none (s := s.fresh) hr]
  rfl

/-- The owner is the same at the moment of the write. -/
theorem State.mayWrite_of_advance (hr : s.fresh.advance w.at_ = some r) (v : Writer) : r.mayWrite v = s.mayWrite v :=
  State.mayWrite_congr ((State.owner_of_advance hr).trans (s.owner_out [])) v
/-- A window is absent at the moment of the write where it was absent before. -/
theorem State.regAbsent_of_advance (hr : s.fresh.advance w.at_ = some r) (q : Reg) : r.regAbsent q = s.regAbsent q :=
  State.regAbsent_congr (State.fuses_of_advance (s := s.fresh) hr) q

theorem exec_registerWrite_plain {a : Acc} {q : Reg} (hs : s.alive = true) (hr : s.fresh.advance w.at_ = some r)
    (hw : s.mayWrite w.by_ = true) (ha : accOf w = some a) (hq : Reg.ofOff (w.off.toNat / 8 * 8) = some q)
    (habs : s.regAbsent q = false) (hp : q.PlainRule) :
    exec (.registerWrite w) s = .next (s.keepOuter (r.setReg q (q.info.write (r.reg q) a))) := by
  rw [exec_registerWrite_of_advance hs hr, State.regWrite_of_plain ha hq ((State.regAbsent_of_advance hr q).trans habs) hp,
    State.owned_of_mayWrite _ _ _ ((State.mayWrite_of_advance hr _).trans hw)]
  rfl

theorem exec_registerWrite_no_register (hs : s.alive = true) (hr : s.fresh.advance w.at_ = some r) (hw : s.mayWrite w.by_ = true)
    (hn : s.NoRegister w) : exec (.registerWrite w) s = .next (s.keepOuter r) := by
  rw [exec_registerWrite_of_advance hs hr, State.regWrite_of_noRegister (hn.congr (State.fuses_of_advance hr)),
    State.owned_of_mayWrite _ _ _ ((State.mayWrite_of_advance hr _).trans hw)]
  rfl

/-- A port that is not the owner has its write counted where there is no register, or one without a rule of its own. -/
theorem exec_registerWrite_not_owner {p : HostPort} (hs : s.alive = true) (hr : s.fresh.advance w.at_ = some r)
    (ho : s.owner ≠ some p.val) (hb : w.by_ = .host p)
    (h : s.NoRegister w ∨ ∃ q, Reg.ofOff (w.off.toNat / 8 * 8) = some q ∧ q.PlainRule) :
    exec (.registerWrite w) s = .next (s.keepOuter ((r.fadd (.HP_COUNT p) HP_COUNT.DISCARDS 1).fset (.HP_STATUS p) HP_STATUS.DISCARD 1)) := by
  have hw : r.mayWrite w.by_ = false := by
    rw [State.mayWrite_of_advance hr, hb]; exact State.mayWrite_host_of_ne ho
  have hd : r.regWrite w = r.discard w.by_ := by
    rcases h with hn | ⟨q, hq, hp⟩
    · rw [State.regWrite_of_noRegister (hn.congr (State.fuses_of_advance hr)), State.owned_of_not _ _ _ hw]
    · exact State.regWrite_of_not_mayWrite hw hq hp
  rw [exec_registerWrite_of_advance hs hr, hd, hb]
  rfl

end

/-! Reads of BAR0 (R7, R9). -/

theorem State.bar0Read_of_none (s : State) (p : HostPort) (off : BitVec 26) (bytes : Nat)
    (h : readSz off.toNat bytes = none ∨ Reg.ofOff (off.toNat / 8 * 8) = none) : s.bar0Read p off bytes = s.emit (.read p 0) := by
  unfold State.bar0Read
  rcases h with h | h
  · rw [h]
  · rw [h]; cases readSz off.toNat bytes <;> rfl

/-- The register reads as it is stored, and the read has no effect. -/
def Reg.StoredRead (q : Reg) : Prop :=
  ∀ (s : State) (p : HostPort) (off : BitVec 26) (bytes : Nat) (z : Sz), readSz off.toNat bytes = some z →
    Reg.ofOff (off.toNat / 8 * 8) = some q → s.bar0Read p off bytes = s.emit (.read p (readPart z (s.reg q)))

/-- Once calibration has ended, a doorbell reads as its ring's PROD. -/
theorem State.doorbellRead_full (s : State) (p : HostPort) (n : RingIx) (h : s.boot_ ≠ 0) :
    s.doorbellRead p n .full = s.emit (.read p (BitVec.ofNat 64 (s.fget (.RING_IDX n) RING_IDX.PROD))) := by
  rw [State.doorbellRead, if_neg h]
  rfl

/-! Packets of register space (R284, R341, R542, R543). -/

/-- In register space the bits above BAR0's 64 MiB are those that the space table marks zero and those that no offset has. -/
theorem bar0Ga_of_space {ga : Nat} (h : gaSpace ga = 2) : bar0Ga ga = decide (bits ga 45 26 = 0) := by
  have hz : gaZeros ga = decide (bits ga 45 32 = 0) := by simp [gaZeros, h]
  have hsplit : (bits ga 45 32 = 0 ∧ bits ga 31 26 = 0) ↔ bits ga 45 26 = 0 := by
    simp only [bits, Nat.shiftRight_eq_div_pow]; omega
  rw [bar0Ga, hz, ← Bool.decide_and]
  exact decide_eq_decide.mpr hsplit

section
variable {s : State} {p : Port} {k : Packet} {own : State → State} {grp : Nat → State → State}

theorem State.acceptIn_of_self (hv : s.flag .ROUTE_SELF ROUTE_SELF.SELF_VALID = true) (hm : gaModule k.hdr.ga.toNat = s.self) :
    s.acceptIn p k own grp = own (s.takeInbound p (pktBytes k)) := by
  have hv' : (s.takeInbound p (pktBytes k)).flag .ROUTE_SELF ROUTE_SELF.SELF_VALID = true := hv
  have hm' : gaModule k.hdr.ga.toNat = (s.takeInbound p (pktBytes k)).self := hm
  unfold State.acceptIn
  simp [hv', hm']

theorem State.acceptIn_of_foreign (hv : s.flag .ROUTE_SELF ROUTE_SELF.SELF_VALID = true) (hm : gaModule k.hdr.ga.toNat ≠ s.self)
    (hg : s.isGroup (gaModule k.hdr.ga.toNat) = false) : s.acceptIn p k own grp = (s.takeInbound p (pktBytes k)).foreign := by
  have hv' : (s.takeInbound p (pktBytes k)).flag .ROUTE_SELF ROUTE_SELF.SELF_VALID = true := hv
  have hm' : gaModule k.hdr.ga.toNat ≠ (s.takeInbound p (pktBytes k)).self := hm
  have hg' : (s.takeInbound p (pktBytes k)).isGroup (gaModule k.hdr.ga.toNat) = false := hg
  unfold State.acceptIn
  simp [hv', hm', hg']

/-- A delivered packet that only counts in a register leaves what is outside the dies. -/
theorem State.keepOuter_fadd_takeInbound (s : State) (p : Port) (b : Bytes) (r : Reg) (f : Fld) (n : Nat) :
    s.keepOuter ((s.fresh.takeInbound p b).fadd r f n) = (s.fresh.takeInbound p b).fadd r f n :=
  State.keepOuter_eq _ _ (State.fadd_pending _ _ _ _) (State.fadd_fuses _ _ _ _) (State.fadd_pwr _ _ _ _)

theorem exec_registerReadRequest (hs : s.alive = true) :
    exec (.registerReadRequest p k) s = .next (s.keepOuter (s.fresh.regReadReq p k)) :=
  live_of_alive s (·.regReadReq p k) hs
theorem exec_managementDiscard (hs : s.alive = true) :
    exec (.managementDiscard p k) s = .next (s.keepOuter (s.fresh.mgmtDiscard p k)) :=
  live_of_alive s (·.mgmtDiscard p k) hs

theorem State.mgmtDiscard_of_known (hk : mgmtKnown k.hdr.ga.toNat = true) (hm : gaModule k.hdr.ga.toNat = s.self) :
    s.mgmtDiscard p k = s := by
  simp [State.mgmtDiscard, hk, hm]

section
variable (hopc : k.hdr.opc.toNat = oMGMT) (hv : s.flag .ROUTE_SELF ROUTE_SELF.SELF_VALID = true)
include hopc hv

theorem State.mgmtDiscard_of_unknown (hk : mgmtKnown k.hdr.ga.toNat = false) (hm : gaModule k.hdr.ga.toNat = s.self) :
    s.mgmtDiscard p k = (s.takeInbound p (pktBytes k)).mgmtBad := by
  simp only [State.mgmtDiscard, hopc, hk, bne_self_eq_false, Bool.false_and, Bool.or_self, Bool.false_eq_true, if_false]
  exact State.acceptIn_of_self hv hm

theorem State.mgmtDiscard_of_foreign (hm : gaModule k.hdr.ga.toNat ≠ s.self) (hg : s.isGroup (gaModule k.hdr.ga.toNat) = false) :
    s.mgmtDiscard p k = (s.takeInbound p (pktBytes k)).foreign := by
  simp only [State.mgmtDiscard, hopc, hm, hg, bne_self_eq_false, decide_false, Bool.or_self, Bool.and_false, Bool.false_eq_true, if_false]
  exact State.acceptIn_of_foreign hv hm hg

variable (hsp : gaSpace k.hdr.ga.toNat = 2)
include hsp

theorem State.regReadReq_of_foreign (hm : gaModule k.hdr.ga.toNat ≠ s.self) (hg : s.isGroup (gaModule k.hdr.ga.toNat) = false) :
    s.regReadReq p k = (s.takeInbound p (pktBytes k)).foreign := by
  simp only [State.regReadReq, hopc, hsp, bne_self_eq_false, Bool.or_self, Bool.false_eq_true, if_false]
  exact State.acceptIn_of_foreign hv hm hg

/-- A request with a bad length, or whose address is no aligned BAR0 offset, is counted. -/
theorem State.regReadReq_of_bad (hm : gaModule k.hdr.ga.toNat = s.self)
    (hbad : k.payload.length ≠ 8 ∨ leAt k.payload 0 4 < 8 ∨ 4064 < leAt k.payload 0 4 ∨ leAt k.payload 0 4 % 8 ≠ 0
      ∨ k.hdr.ga.toNat % 8 ≠ 0 ∨ ¬ bits k.hdr.ga.toNat 45 26 = 0) :
    s.regReadReq p k = (s.takeInbound p (pktBytes k)).mgmtBad := by
  have halign : bits k.hdr.ga.toNat 31 0 % 8 = k.hdr.ga.toNat % 8 := by simp only [bits, Nat.shiftRight_zero]; omega
  have hcond : (k.payload.length != 8 || leAt k.payload 0 4 < 8 || 4064 < leAt k.payload 0 4 || leAt k.payload 0 4 % 8 != 0
      || !bar0Ga k.hdr.ga.toNat || bits k.hdr.ga.toNat 31 0 % 8 != 0) = true := by
    simp only [halign, bar0Ga_of_space hsp, Bool.or_eq_true, bne_iff_ne, decide_eq_true_eq, Bool.not_eq_true', decide_eq_false_iff_not]
    omega
  simp only [State.regReadReq, hopc, hsp, bne_self_eq_false, Bool.or_self, Bool.false_eq_true, if_false]
  rw [State.acceptIn_of_self hv hm]
  exact if_pos hcond

/-- A request for some words from a BAR0 offset on is answered with the words' bytes. -/
theorem State.regReadReq_of_good (hm : gaModule k.hdr.ga.toNat = s.self) (hlen : k.payload.length = 8) (hl8 : 8 ≤ leAt k.payload 0 4)
    (hlmax : leAt k.payload 0 4 ≤ 4064) (hlmod : leAt k.payload 0 4 % 8 = 0) (halign : bits k.hdr.ga.toNat 31 0 % 8 = 0)
    (hbar : bits k.hdr.ga.toNat 45 26 = 0) :
    s.regReadReq p k =
      let u := s.takeInbound p (pktBytes k)
      let b := u.readRegs (bits k.hdr.ga.toNat 31 0) (leAt k.payload 0 4 / 8)
      let payload := slice k.payload 4 4 ++ toLe 4 0 ++ b.1
      b.2.sendOff .service { hdr := u.hdr oMGMT (k.hdr.src.toNat * 2 ^ 48 + k.hdr.ga.toNat % 2 ^ 48) payload.length, payload := payload } := by
  have hcond : (k.payload.length != 8 || leAt k.payload 0 4 < 8 || 4064 < leAt k.payload 0 4 || leAt k.payload 0 4 % 8 != 0
      || !bar0Ga k.hdr.ga.toNat || bits k.hdr.ga.toNat 31 0 % 8 != 0) = false := by
    simp [bar0Ga_of_space hsp, hlen, hlmod, halign, hbar, hl8, hlmax]
  simp only [State.regReadReq, hopc, hsp, bne_self_eq_false, Bool.or_self, Bool.false_eq_true, if_false]
  rw [State.acceptIn_of_self hv hm]
  exact if_neg (by rw [hcond]; exact Bool.false_ne_true)

end

end

@[simp] theorem toLe_length (n v : Nat) : (toLe n v).length = n := by
  induction n generalizing v with
  | zero => rfl
  | succ n ih => simp [toLe, ih]

theorem ofOff_zero : Reg.ofOff 0 = some .ID_PART := by rfl

/-- ID_PART, by management packet: its value, without an effect on the state. -/
theorem State.regRead_idPart_state (s : State) (by_ : Reader) : (s.regRead by_ .ID_PART).2 = s := by
  unfold State.regRead
  split <;> rfl

theorem State.readRegs_idPart (s : State) : s.readRegs 0 1 = (toLe 8 (s.regRead none .ID_PART).1.toNat, s) := by
  simp [State.readRegs, ofOff_zero, State.regRead_idPart_state]

/-! The registers that the two statements name. -/

/-- The registers of `Obligations.WriteByFieldKind` have no rule of their own. -/
theorem Reg.plainRule_of_block {q : Reg} (h : (∃ g, q = .BANK_EVENT g ∨ q = .TALLY_LIMIT g) ∨ (∃ i, q = .IDMA_EVENT i ∨ q = .DR_ECC i)
    ∨ (∃ n, q = .RGN_STATUS n)
    ∨ q ∈ [Reg.XING_ALARM, .WT_EVENT, .ROUTE_STATUS, .BOOT_ADDR, .FT_MASTER, .FT_SERVO, .STG_STATUS]) : q.PlainRule := by
  simp only [List.mem_cons, List.not_mem_nil, or_false] at h
  rcases h with ⟨g, rfl | rfl⟩ | ⟨i, rfl | rfl⟩ | ⟨n, rfl⟩ | rfl | rfl | rfl | rfl | rfl | rfl | rfl <;> exact fun _ _ => rfl

/-- A register that reads as it is stored, outside the windows of tiles and ports. -/
theorem Reg.storedRead_of_mem {q : Reg} (h : q ∈ [Reg.STG_STATUS, .BOOT_ADDR, .RLY_EXPECT, .ADU_REQ_SEL, .FWD 3]) : q.StoredRead := by
  intro s p off bytes z hz hq
  unfold State.bar0Read
  rw [hz, hq]
  simp only [List.mem_cons, List.not_mem_nil, or_false] at h
  rcases h with rfl | rfl | rfl | rfl | rfl <;> rfl
/-- The registers whose writes `Obligations.RegisterAccess` names have no rule of their own. -/
theorem Reg.plainRule_of_mem {q : Reg} (h : q ∈ [Reg.STG_STATUS, .BOOT_ADDR, .RLY_EXPECT, .ADU_REQ_SEL, .FWD 3, .TALLY_LIMIT 9]) :
    q.PlainRule := by
  simp only [List.mem_cons, List.not_mem_nil, or_false] at h
  rcases h with rfl | rfl | rfl | rfl | rfl | rfl <;> exact fun _ _ => rfl

/-- Settles O9: the bits of a write by their kinds, and the effect of a write of the owner, of one that addresses no register, and of one of
a port that is not the owner. -/
theorem writeByFieldKind : Obligations.WriteByFieldKind := by
  unfold Obligations.WriteByFieldKind
  refine ⟨fun i old a b hb hrw hw1 => RegInfo.write_getLsbD_by_kind i old a b hb hrw hw1, fun s r w hs hr => ?_⟩
  have hacc : accOf w = _ := (accOf_eq w).trans (congrArg (Option.map (accAt w)) (readSz_eq _ _))
  refine ⟨fun q z hw hp hoff hq habs hz => ?_, fun hw hn => ?_, fun p q ho hb hp hoff hq => ?_⟩
  · exact exec_registerWrite_plain hs hr hw (hacc.trans (congrArg (Option.map (accAt w)) hz)) (hoff ▸ hq) habs (Reg.plainRule_of_block hp)
  · exact exec_registerWrite_no_register hs hr hw (hn.imp_left fun h => hacc.trans (congrArg (Option.map (accAt w)) h))
  · exact exec_registerWrite_not_owner hs hr ho hb (.inr ⟨q, hoff ▸ hq, Reg.plainRule_of_block hp⟩)

/-- A request of another module for the first word of BAR0 is answered with ID_PART. -/
theorem exec_registerReadRequest_first {s : State} {p : Port} {k : Packet} (hs : s.alive = true) (hopc : k.hdr.opc.toNat = oMGMT)
    (hv : s.flag .ROUTE_SELF ROUTE_SELF.SELF_VALID = true) (hm : gaModule k.hdr.ga.toNat = s.self) (hsp : gaSpace k.hdr.ga.toNat = 2)
    (hlen : k.payload.length = 8) (hl : leAt k.payload 0 4 = 8) (hoff : k.hdr.ga.toNat % 2 ^ 46 = 0) :
    exec (.registerReadRequest p k) s = .next (s.keepOuter ((s.fresh.takeInbound p (pktBytes k)).sendOff .service
      { hdr := s.hdr 8 (k.hdr.src.toNat * 2 ^ 48 + k.hdr.ga.toNat % 2 ^ 48) 16,
        payload := k.payload.drop 4 ++ [0, 0, 0, 0] ++ toLe 8 ((s.fresh.takeInbound p (pktBytes k)).regRead none .ID_PART).1.toNat })) := by
  have hbits : bits k.hdr.ga.toNat 31 0 = 0 := by simp only [bits, Nat.shiftRight_zero]; omega
  have hbar : bits k.hdr.ga.toNat 45 26 = 0 := by simp only [bits, Nat.shiftRight_eq_div_pow]; omega
  have htag : slice k.payload 4 4 = k.payload.drop 4 := List.take_of_length_le (by simp [hlen])
  rw [exec_registerReadRequest hs, State.regReadReq_of_good (s := s.fresh) hopc hv hsp hm hlen (by omega) (by omega) (by omega) (by omega) hbar]
  have hwords : leAt k.payload 0 4 / 8 = 1 := by omega
  simp only [hbits, hwords, State.readRegs_idPart, htag, List.length_append, List.length_drop, toLe_length, hlen]
  rfl

/-- Settles O60: writes and reads by an offset, and the packets of register space. -/
theorem registerAccess : Obligations.RegisterAccess := by
  unfold Obligations.RegisterAccess
  refine fun s hs => ⟨fun w v => ⟨exec_registerWrite_of_no_moment hs, fun hr => ⟨fun hw hn => ?_, fun p hb ho hn => ?_, ?_⟩⟩,
    fun p off bytes => ⟨fun h => ?_, fun q y hz hq hmem => ?_⟩, fun p n hboot => ?_, fun p k hopc hv => ⟨fun hm => ?_, fun hm hg => ?_⟩⟩
  · exact exec_registerWrite_no_register hs hr hw hn
  · exact exec_registerWrite_not_owner hs hr ho hb (.inl hn)
  · exact fun a q ha hq hw habs hmem => exec_registerWrite_plain hs hr hw ha hq habs (Reg.plainRule_of_mem hmem)
  · exact s.bar0Read_of_none p off bytes (h.imp_left (readSz_eq _ _).trans)
  · exact Reg.storedRead_of_mem hmem s p off bytes y ((readSz_eq _ _).trans hz) hq
  · exact s.doorbellRead_full p n hboot
  · refine ⟨fun hsp hbad => ?_, fun hsp hlen hl hoff => ?_, fun hk => ?_, fun hk => ?_⟩
    · rw [exec_registerReadRequest hs, State.regReadReq_of_bad (s := s.fresh) hopc hv hsp hm hbad, State.mgmtBad, State.keepOuter_fadd_takeInbound]
    · exact ⟨_, exec_registerReadRequest_first hs hopc hv hm hsp hlen hl hoff, by rw [ofOff_zero]⟩
    · rw [exec_managementDiscard hs, State.mgmtDiscard_of_unknown (s := s.fresh) hopc hv hk hm, State.mgmtBad, State.keepOuter_fadd_takeInbound]
    · rw [exec_managementDiscard hs, State.mgmtDiscard_of_known (s := s.fresh) hk hm]
      rfl
  · refine ⟨?_, fun hsp => ?_⟩
    · rw [exec_managementDiscard hs, State.mgmtDiscard_of_foreign (s := s.fresh) hopc hv hm hg, State.foreign, State.keepOuter_fadd_takeInbound]
    · rw [exec_registerReadRequest hs, State.regReadReq_of_foreign (s := s.fresh) hopc hv hsp hm hg, State.foreign, State.keepOuter_fadd_takeInbound]

end Sys2Proof.Machine
end

section
/-! PROOFS. The rules of state that an engine's command uses: a tile after its change, the begin of a command at a free engine, and the
accesses that it makes where no word is in error. -/

namespace Sys2Proof.Machine

/-! A tile and its queues (R227). -/

@[simp] theorem State.tile_modTile_same (s : State) (g : Nat) (f : Tile → Tile) : (s.modTile g f).tile g = f (s.tile g) :=
  tget_tput_same _ _ _ _
theorem State.tile_congr {s t : State} (h : t.tiles = s.tiles) (g : Nat) : t.tile g = s.tile g := by
  unfold State.tile; rw [h]

section
variable (s : State) (g q : Nat) (l : List QItem)

theorem State.tile_putQueue_same : (s.putQueue g q l).tile g = { s.tile g with queues := tput [] (s.tile g).queues q l } :=
  State.tile_modTile_same _ _ _
@[simp] theorem State.putQueue_acc : ((s.putQueue g q l).tile g).acc = (s.tile g).acc := by rw [State.tile_putQueue_same]
@[simp] theorem State.putQueue_accBad : ((s.putQueue g q l).tile g).accBad = (s.tile g).accBad := by rw [State.tile_putQueue_same]
@[simp] theorem State.queue_putQueue_same : (s.putQueue g q l).queue g q = l := by
  rw [State.queue, State.tile_putQueue_same]; exact tget_tput_same _ _ _ _

end

/-! The status of the matrix engine (R172). -/

/-- Following the queue, the status registers leave tiles and memories as they were. -/
theorem State.refreshEngine_leaves (s : State) (g q : Nat) :
    (s.refreshEngine g q).tiles = s.tiles ∧ (s.refreshEngine g q).sram = s.sram ∧ (s.refreshEngine g q).dram = s.dram := by
  unfold State.refreshEngine
  split
  · simp
  · split <;> simp
@[simp] theorem State.refreshEngine_tiles (s : State) (g q : Nat) : (s.refreshEngine g q).tiles = s.tiles :=
  (s.refreshEngine_leaves g q).1
@[simp] theorem State.refreshEngine_sram (s : State) (g q : Nat) : (s.refreshEngine g q).sram = s.sram :=
  (s.refreshEngine_leaves g q).2.1
@[simp] theorem State.refreshEngine_dram (s : State) (g q : Nat) : (s.refreshEngine g q).dram = s.dram :=
  (s.refreshEngine_leaves g q).2.2

/-- While a command is in progress at its queue's head, the matrix engine is busy. -/
theorem State.refreshEngine_busy {s : State} {g : Nat} {i : QItem} {r : List QItem} {h : CmdHdr} {c : EngCmd}
    (hq : s.queue g aMXE = i :: r) (hrun : i.phase = .running) (hbody : i.body = .eng h c) :
    (s.refreshEngine g aMXE).flag (.MXE_STATUS g) MXE_STATUS.BUSY = true := by
  unfold State.refreshEngine
  rw [hq, if_pos rfl, State.flag, State.fget_fset_beside _ _ _ _ _ (by decide), State.fget_fset_beside _ _ _ _ _ (by decide),
    State.fget_fset_same _ _ _ _ (by decide), List.filter_cons_of_pos (by simp [hrun, hbody])]
  rfl

/-! The begin of a command at a free engine (R46, R225, R231). -/

section
variable {s u : State} {g : Gt} {h : CmdHdr} {c : EngCmd} {run : QItem → State → Began × State}

/-- The state in which the checks and accesses of a command at a free engine are made: the command alone in its queue. -/
def State.issued (s : State) (g : Gt) (h : CmdHdr) (c : EngCmd) : State := s.fresh.putQueue g (engQueue c) [s.engItem g h c]
/-- A command whose accesses are made, with what they left, stands in progress in its queue. -/
def State.engineBegan (s u : State) (g : Gt) (h : CmdHdr) (c : EngCmd) : State :=
  s.keepOuter ((u.putQueue g (engQueue c) [{ s.engItem g h c with phase := .running, begun := true }]).refreshEngine g (engQueue c))

@[simp] theorem State.queue_issued : (s.issued g h c).queue g (engQueue c) = [s.engItem g h c] := State.queue_putQueue_same _ _ _ _

/-- At a free engine a command passes its gate, its wait and its predicate at once. -/
theorem State.engineRow_of_free (hfree : s.engineFree g (engQueue c) h) :
    s.fresh.engineRow g h c run = (s.issued g h c).runEntry g (engQueue c) 0 (s.engItem g h c) run := by
  obtain ⟨hpresent, hquiet, hqueue, hgate, hwait, hpred⟩ := hfree
  have hpresent' : s.fresh.tilePresent g = true := hpresent
  have hquiet' : (s.fresh.rgn (g / 8)).quiesce = false := hquiet
  have hqueue' : s.fresh.queue g (engQueue c) = [] := hqueue
  have hroom : s.fresh.queueRoom g (engQueue c) = true := by
    simp only [State.queueRoom, hqueue', queueCap]; split <;> simp
  have hquiet1 : ((s.issued g h c).rgn (g / 8)).quiesce = false := hquiet
  have hgate1 : (s.issued g h c).gateOpen g (s.engItem g h c).stage = true := hgate
  have hbegin : mayBegin [] c = true := by cases c <;> rfl
  have hrun : (s.issued g h c).predicate g h (s.engItem g h c).pred = .run := by simp [State.predicate, hpred]
  have hnew : s.fresh.engineRow g h c run = (s.issued g h c).beginAt g (engQueue c) 0 h c run := by
    simp only [State.engineRow, hpresent', hroom, hquiet', hqueue', List.findIdx?_nil, Bool.not_true, Bool.or_false, Bool.false_eq_true,
      if_false, List.nil_append, List.length_nil]
    rfl
  have hitem : (s.engItem g h c).begun = false := rfl
  rw [hnew]
  simp only [State.beginAt, State.queue_issued, List.getElem?_cons_zero, List.take_zero, hquiet1, hitem, hbegin, hgate1, hwait, hrun,
    Bool.not_true, Bool.or_false, Bool.false_and, Bool.false_eq_true, if_false]

/-- A command whose accesses are all made is in progress. -/
theorem State.runEntry_of_ran (hran : run (s.engItem g h c) (s.issued g h c) = (.ran 0, u))
    (hq : u.queue g (engQueue c) = [s.engItem g h c]) :
    s.keepOuter ((s.issued g h c).runEntry g (engQueue c) 0 (s.engItem g h c) run) = s.engineBegan u g h c := by
  simp only [State.runEntry, hran, State.putEntry, hq]
  rfl

/-- A command of a free engine whose accesses are all made. -/
theorem live_engineRow_of_ran (hs : s.alive = true) (hfree : s.engineFree g (engQueue c) h)
    (hran : run (s.engItem g h c) (s.issued g h c) = (.ran 0, u)) (hq : u.queue g (engQueue c) = [s.engItem g h c]) :
    live s (fun s => s.engineRow g h c run) = .next (s.engineBegan u g h c) := by
  rw [live_of_alive s _ hs]
  exact congrArg Host.Outcome.next ((congrArg s.keepOuter (State.engineRow_of_free hfree)).trans (State.runEntry_of_ran hran hq))

@[simp] theorem State.engineBegan_sram : (s.engineBegan u g h c).sram = u.sram := by simp [State.engineBegan, State.putQueue]
@[simp] theorem State.engineBegan_dram : (s.engineBegan u g h c).dram = u.dram := by simp [State.engineBegan, State.putQueue]
theorem State.engineBegan_tile :
    (s.engineBegan u g h c).tile g = (u.putQueue g (engQueue c) [{ s.engItem g h c with phase := .running, begun := true }]).tile g :=
  State.tile_congr (by simp [State.engineBegan]) g
@[simp] theorem State.engineBegan_acc : ((s.engineBegan u g h c).tile g).acc = (u.tile g).acc := by
  rw [State.engineBegan_tile, State.putQueue_acc]
theorem State.engineBegan_queue :
    (s.engineBegan u g h c).queue g (engQueue c) = [{ s.engItem g h c with phase := .running, begun := true }] := by
  rw [State.queue, State.engineBegan_tile]; exact State.queue_putQueue_same _ _ _ _
theorem State.engineBegan_busy (hc : engQueue c = aMXE) : (s.engineBegan u g h c).flag (.MXE_STATUS g) MXE_STATUS.BUSY = true := by
  rw [State.engineBegan, State.flag_keepOuter, hc]
  exact State.refreshEngine_busy (State.queue_putQueue_same _ _ _ _) rfl rfl

end

/-! Local addresses (R74, R76 to R79, R84). -/

/-- Within a bank, a local address further on names the same bank. -/
theorem laBank_add {a i : Nat} (h : laOff a + i < 2 ^ 20) : laBank (a + i) = laBank a := by
  simp only [laBank, laOff, bits, Nat.shiftRight_eq_div_pow] at *; omega
theorem laOff_add {a i : Nat} (h : laOff a + i < 2 ^ 20) : laOff (a + i) = laOff a + i := by
  simp only [laOff, bits, Nat.shiftRight_eq_div_pow] at *; omega
theorem sramKey_add (g k off i : Nat) : sramKey g k (off + i) = sramKey g k off + i := by unfold sramKey; omega

theorem State.ownCheck_eq_ok_iff {s : State} {g k agent : Nat} :
    s.ownCheck g k agent = .ok ↔ s.fget (.BANK_OWN g k) BANK_OWN.OWNER = agent := by
  by_cases hown : s.fget (.BANK_OWN g k) BANK_OWN.OWNER = agent
  · simp [State.ownCheck, hown]
  · refine ⟨fun hok => ?_, fun h => absurd h hown⟩
    simp only [State.ownCheck, if_neg hown] at hok
    repeat' split at hok
    all_goals cases hok

/-- An extent that passes its bounds lies within one bank. -/
theorem State.laCheck_fits {s : State} {g a n : Nat} (hn : 0 < n) (h : s.laCheck g a n = .ok) : laOff a + n ≤ 2 ^ 20 := by
  have hsize : bankSize (laBank a) ≤ 2 ^ 20 := by unfold bankSize; split <;> omega
  have hbounds : ¬ bankSize (laBank a) < laOff a + n := fun hout => by
    have hrefused : s.bankBounds g (laBank a) (laOff a) n = .refused fBOUNDS := by simp [State.bankBounds, hout]
    rw [State.laCheck, if_neg (Nat.ne_of_gt hn), hrefused] at h
    repeat' split at h
    all_goals cases h
  omega

/-- An access that passes all checks: its view and bounds, its bank's owner, and where it lies. -/
theorem State.accCheck_ok {s : State} {g agent a n : Nat} (hn : 0 < n) (h : s.accCheck g agent a n = .ok) :
    s.laCheck g a n = .ok ∧ s.fget (.BANK_OWN g (laBank a)) BANK_OWN.OWNER = agent ∧ laOff a + n ≤ 2 ^ 20 := by
  unfold State.accCheck at h
  rw [if_neg (Nat.ne_of_gt hn)] at h
  cases hla : s.laCheck g a n with
  | ok =>
    rw [hla] at h
    exact ⟨rfl, State.ownCheck_eq_ok_iff.mp h, State.laCheck_fits hn hla⟩
  | refused c => rw [hla] at h; cases h
  | wait => rw [hla] at h; cases h

theorem firstBad_of_forall_ok {l : List Chk} (h : ∀ c ∈ l, c = .ok) : firstBad l = .ok := by
  induction l with
  | nil => rfl
  | cons c l ih =>
    obtain rfl : c = .ok := h c (by simp)
    exact ih fun d hd => h d (by simp [hd])

/-- The operands of a command pass their checks of ownership when the agent owns the bank of each that has bytes. -/
theorem State.owners_ok {s : State} {g agent : Nat} {l : List (Nat × Nat)}
    (h : ∀ e ∈ l, e.2 ≠ 0 → s.fget (.BANK_OWN g (laBank e.1)) BANK_OWN.OWNER = agent) : s.owners g agent l = .ok := by
  refine firstBad_of_forall_ok fun c hc => ?_
  obtain ⟨e, he, rfl⟩ := List.mem_map.mp hc
  split
  · rfl
  · exact State.ownCheck_eq_ok_iff.mpr (h e he ‹_›)

theorem State.extents_ok {s : State} {g : Nat} {l : List (Nat × Nat)} (h : ∀ e ∈ l, s.laCheck g e.1 e.2 = .ok) : s.extents g l = .ok := by
  refine firstBad_of_forall_ok fun c hc => ?_
  obtain ⟨e, he, rfl⟩ := List.mem_map.mp hc
  exact h e he

/-! Accesses while no word of the banks is in error (R93, R97). -/

theorem badIn_nil (key n : Nat) : badIn [] key n = [] := by simp [badIn]

theorem State.bankRead_of_sramBad_nil {s : State} (hbad : s.sramBad = []) (g k off n : Nat) (who : Who) :
    s.bankRead g k off n who = (s.sramRead g k off n, s) := by
  simp [State.bankRead, State.eccRead, hbad, badIn_nil]

theorem State.operandRead_of_sramBad_nil {s : State} (hbad : s.sramBad = []) (g : Nat) (who : Who) (e : Nat × Nat) :
    s.operandRead g who e = (s.sramRead g (laBank e.1) (laOff e.1) e.2, s) := by
  unfold State.operandRead
  split
  · rename_i h; simp [State.sramRead, memRead, h]
  · exact State.bankRead_of_sramBad_nil hbad _ _ _ _ _

/-- A signature changes the lock-step state and nothing else (R535). -/
theorem State.sign_eq (s : State) (g agent : Nat) (stage : Option Nat) (addr : Nat) (b : Bytes) :
    s.sign g agent stage addr b = { s with lock := (s.sign g agent stage addr b).lock } := by
  unfold State.sign
  split <;> rfl

theorem zipWith_viewByte_plain {old new : Bytes} (h : old.length = new.length) : List.zipWith (viewByte 0) old new = new := by
  induction old generalizing new with
  | nil => simpa using h.symm
  | cons b old ih => cases new with
    | nil => simp at h
    | cons c new => simpa [viewByte] using ih (by simpa using h)

/-- A plain write puts its bytes in the bank; beside the banks, only signatures may follow. -/
theorem State.bankWrite_plain_of_sramBad_nil {s : State} (hbad : s.sramBad = []) (g k off : Nat) (data : Bytes) (who : Who) :
    ∃ l, s.bankWrite g k off 0 data who = { s with sram := memWrite s.sram (sramKey g k off) data, lock := l } := by
  rw [State.bankWrite, hbad]
  simp only [badIn_nil, List.filter_nil, List.foldl_nil, zipWith_viewByte_plain (memRead_length _ _ _)]
  rw [← hbad]
  split
  · exact ⟨_, State.sign_eq _ _ _ _ _ _⟩
  · exact ⟨s.lock, rfl⟩

/-! Bytes of a bank by number (R5). -/

/-- A run of bytes of a memory, cut out of a longer one. -/
theorem slice_memRead (m : Mem) {a n off len : Nat} (h : off + len ≤ n) : slice (memRead m a n) off len = memRead m (a + off) len := by
  apply List.ext_getElem
  · simp [slice]; omega
  · intro i h1 h2
    simp [slice, memRead_eq, Nat.add_assoc]

/-- A field of bytes that were read from a bank. -/
theorem State.leAt_sramRead (s : State) (g k : Nat) {off n i len : Nat} (h : i + len ≤ n) :
    leAt (s.sramRead g k off n) i len = memNat s.sram (sramKey g k off + i) len := by
  rw [leAt, State.sramRead, slice_memRead _ h, memNat]

/-- Bytes read from within what was written. -/
theorem memRead_memWrite_slice (m : Mem) {a i n : Nat} {b : Bytes} (h : i + n ≤ b.length) :
    memRead (memWrite m a b) (a + i) n = slice b i n := by
  rw [← slice_memRead (memWrite m a b) h, memRead_memWrite]

theorem leNat_toLe (n v : Nat) : leNat (toLe n v) = v % 256 ^ n := by
  induction n generalizing v with
  | zero => simp [leNat, toLe, Nat.mod_one]
  | succ n ih =>
    rw [toLe, leNat, ih, BitVec.toNat_ofNat, Nat.pow_succ' (m := 256), Nat.mod_mul]

/-- The field of one number among many written one after another. -/
theorem slice_flatMap_toLe {α : Type} (w : Nat) (f : α → Nat) (l : List α) (j : Nat) (h : j < l.length) :
    slice (l.flatMap (fun x => toLe w (f x))) (w * j) w = toLe w (f l[j]) := by
  induction l generalizing j with
  | nil => simp at h
  | cons x l ih => cases j with
    | zero => simp [slice]
    | succ j =>
      have hskip : (toLe w (f x) ++ l.flatMap (fun x => toLe w (f x))).drop (w * (j + 1)) = (l.flatMap (fun x => toLe w (f x))).drop (w * j) := by
        rw [Nat.mul_succ, Nat.add_comm, ← List.drop_drop, List.drop_left' (toLe_length _ _)]
      rw [List.flatMap_cons, slice, hskip]
      exact ih j (by simpa using h)

end Sys2Proof.Machine
end

section
/-! PROOFS. Accumulation in the matrix engine: rows of an accumulator buffer, and exact sums of integer products. -/

namespace Sys2Proof.Machine

/-! Rows of an accumulator buffer (R170 to R174). -/

/-- Entries of different rows, or of different columns of a row, are held in different places. -/
theorem accKey_beside {b b' row row' n c : Nat} (hrow : row < 512) (hrow' : row' < 512) (hn : n ≤ 128) (hc : c < 128)
    (h : b' ≠ b ∨ row' ≠ row ∨ n ≤ c) : accKey b' row' c < accKey b row 0 ∨ accKey b row 0 + n ≤ accKey b' row' c := by
  unfold accKey; omega
theorem accKey_add (b row c : Nat) : accKey b row c = accKey b row 0 + c := by unfold accKey; omega

/-- The cells of a run of entries from a place on, those that are 0 left out. -/
def accCells (k : Nat) (l : List (BitVec 32)) : List (Nat × BitVec 32) :=
  (l.zipIdx.map (fun e => (k + e.2, e.1))).filter (fun e => e.2 != 0)
/-- The table of accumulator entries with a run of them replaced, as a row's write does. -/
def accPut (t : List (Nat × BitVec 32)) (k : Nat) (l : List (BitVec 32)) : List (Nat × BitVec 32) :=
  t.filter (·.1 < k) ++ accCells k l ++ t.filter (k + l.length ≤ ·.1)

theorem accCells_range (k : Nat) (l : List (BitVec 32)) : ∀ e ∈ accCells k l, k ≤ e.1 ∧ e.1 < k + l.length := by
  intro e he
  obtain ⟨x, hx, rfl⟩ := List.mem_map.mp (List.mem_filter.mp he).1
  have := List.snd_lt_of_mem_zipIdx hx
  exact ⟨Nat.le_add_right _ _, by simpa using this⟩

theorem accCells_cons (k : Nat) (x : BitVec 32) (l : List (BitVec 32)) :
    accCells k (x :: l) = if x = 0 then accCells (k + 1) l else (k, x) :: accCells (k + 1) l := by
  have hshift : (l.zipIdx 1).map (fun e => (k + e.2, e.1)) = l.zipIdx.map (fun e => (k + 1 + e.2, e.1)) := by
    rw [List.zipIdx_succ, List.map_map]
    exact List.map_congr_left fun e _ => by simp [Nat.add_assoc, Nat.add_comm 1]
  rw [accCells, List.zipIdx_cons, List.map_cons, hshift, List.filter_cons]
  by_cases h : x = 0 <;> simp [accCells, h]

theorem tget_accCells (k : Nat) (l : List (BitVec 32)) (i : Nat) : tget 0 (accCells k l) (k + i) = l.getD i 0 := by
  induction l generalizing k i with
  | nil => simp [accCells, tget]
  | cons x l ih =>
    rw [accCells_cons]
    cases i with
    | zero =>
      split
      · rename_i h
        rw [List.getD_cons_zero, h]
        exact tget_eq_default _ _ _ fun e he => by have := accCells_range _ _ e he; omega
      · simp [tget]
    | succ i =>
      have hi := ih (k + 1) i
      rw [Nat.add_right_comm] at hi
      split
      · exact hi
      · rw [tget, if_neg (by omega)]; exact hi

theorem tget_accPut_in (t : List (Nat × BitVec 32)) (k : Nat) (l : List (BitVec 32)) (i : Nat) (h : i < l.length) :
    tget 0 (accPut t k l) (k + i) = l.getD i 0 := by
  rw [accPut, tget_append_left, tget_append, tget_accCells]
  · intro e he; simp at he; omega
  · intro e he; simp at he; omega

theorem tget_accPut_out (t : List (Nat × BitVec 32)) (k : Nat) (l : List (BitVec 32)) (j : Nat) (h : j < k ∨ k + l.length ≤ j) :
    tget 0 (accPut t k l) j = tget 0 t j := by
  have hcells : ∀ e ∈ accCells k l, e.1 ≠ j := fun e he => by have := accCells_range k l e he; omega
  rcases h with h | h
  · rw [accPut, tget_append_left, tget_append_left _ _ _ _ hcells, tget_filter 0 (fun x => decide (x < k)) t j (by simpa using h)]
    intro e he; simp at he; omega
  · rw [accPut, List.append_assoc, tget_append, tget_append _ _ _ _ hcells,
      tget_filter 0 (fun x => decide (k + l.length ≤ x)) t j (by simpa using h)]
    intro e he; simp at he; omega

/-- `t` is `s` with the first `n` entries of an accumulator row holding `v`. -/
structure AccRowWritten (s t : State) (g b row n : Nat) (v : Nat → BitVec 32) : Prop where
  state : t = { s with tiles := t.tiles }
  tile : t.tile g = { s.tile g with acc := (t.tile g).acc }
  entry : ∀ c < n, tget 0 (t.tile g).acc (accKey b row c) = v c
  other : ∀ k, k < accKey b row 0 ∨ accKey b row 0 + n ≤ k → tget 0 (t.tile g).acc k = tget 0 (s.tile g).acc k

section
variable {s t u : State} {g b row n : Nat} {v w : Nat → BitVec 32}

theorem AccRowWritten.refl (h : ∀ c < n, tget 0 (s.tile g).acc (accKey b row c) = v c) : AccRowWritten s s g b row n v :=
  ⟨rfl, rfl, h, fun _ _ => rfl⟩
theorem AccRowWritten.trans (h : AccRowWritten s t g b row n v) (h' : AccRowWritten t u g b row n w) : AccRowWritten s u g b row n w where
  state := by rw [h'.state, h.state]
  tile := by rw [h'.tile, h.tile]
  entry := h'.entry
  other k hk := (h'.other k hk).trans (h.other k hk)
theorem AccRowWritten.congr (h : AccRowWritten s t g b row n v) (hw : ∀ c < n, v c = w c) : AccRowWritten s t g b row n w :=
  { h with entry := fun c hc => (h.entry c hc).trans (hw c hc) }

variable (h : AccRowWritten s t g b row n v)
include h

theorem AccRowWritten.sram : t.sram = s.sram := by rw [h.state]
theorem AccRowWritten.dram : t.dram = s.dram := by rw [h.state]
theorem AccRowWritten.sramBad : t.sramBad = s.sramBad := by rw [h.state]
theorem AccRowWritten.fget (r : Reg) (f : Fld) : t.fget r f = s.fget r f := State.fget_congr (by rw [h.state]) r f
theorem AccRowWritten.accBad : (t.tile g).accBad = (s.tile g).accBad := by rw [h.tile]
theorem AccRowWritten.queue (q : Nat) : t.queue g q = s.queue g q := by rw [State.queue, h.tile, State.queue]

end

theorem State.accRow_eq (s : State) (g b row n : Nat) :
    s.accRow g b row n = (List.range n).map (fun c => tget 0 (s.tile g).acc (accKey b row c)) := by
  refine List.map_congr_left fun c hc => ?_
  rw [List.mem_range] at hc
  exact tget_filter 0 (fun k => decide (accKey b row 0 ≤ k) && decide (k < accKey b row n)) _ _ (by simp [accKey]; omega)

section
variable {s : State} {g : Nat} (hbad : (s.tile g).accBad = [])
include hbad

theorem State.accMarks_of_accBad_nil (b row n : Nat) : s.accMarks g b row n = [] := by simp [State.accMarks, hbad]

theorem State.accRead_of_accBad_nil (b row n stage : Nat) : s.accRead g b row n stage = (s.accRow g b row n, s) := by
  simp [State.accRead, State.accMarks_of_accBad_nil hbad]

/-- A row's write with no word in error: its entries take the values, and nothing else of the tile changes. -/
theorem State.accWrite_of_accBad_nil (b row stage : Nat) (l : List (BitVec 32)) :
    AccRowWritten s (s.accWrite g b row stage l) g b row l.length (fun c => l.getD c 0) := by
  have hwrite : s.accWrite g b row stage l = s.modTile g (fun t => { t with
      acc := accPut t.acc (accKey b row 0) l, accBad := t.accBad.filter (fun e => !([] : List Nat).contains e.1) }) := by
    simp only [State.accWrite, State.accMarks_of_accBad_nil hbad]
    rfl
  have htile : (s.accWrite g b row stage l).tile g = { s.tile g with acc := accPut (s.tile g).acc (accKey b row 0) l } := by
    rw [hwrite, State.tile_modTile_same]
    simp [hbad]
  have hacc := congrArg Tile.acc htile
  refine ⟨by rw [hwrite]; rfl, by rw [htile], fun c hc => ?_, fun k hk => ?_⟩
  · rw [hacc, accKey_add]
    exact tget_accPut_in _ _ _ _ hc
  · rw [hacc]
    exact tget_accPut_out _ _ _ _ hk

end

/-! Exact sums of integers (R175). -/

/-- A value is an integer, at exponent 0. -/
def Val.Holds (v : Val) (i : Int) : Prop := ∃ a m, v = .num a m 0 ∧ i = if a then -(m : Int) else m

theorem Val.holds_ofInt (i : Int) : (Val.ofInt i).Holds i := by
  refine ⟨_, _, rfl, ?_⟩
  by_cases h : i < 0
  · rw [if_pos (decide_eq_true h)]; omega
  · rw [if_neg (by simpa using h)]; omega
theorem Val.holds_zero : Val.zero.Holds 0 := ⟨false, 0, rfl, rfl⟩

theorem Val.Holds.mul {v w : Val} {i j : Int} (hv : v.Holds i) (hw : w.Holds j) : (v.mul w).Holds (i * j) := by
  obtain ⟨a, m, rfl, rfl⟩ := hv
  obtain ⟨b, n, rfl, rfl⟩ := hw
  refine ⟨_, _, rfl, ?_⟩
  cases a <;> cases b <;> simp [Int.neg_mul, Int.mul_neg]

theorem Val.Holds.add {v w : Val} {i j : Int} (hv : v.Holds i) (hw : w.Holds j) : (v.add w).Holds (i + j) := by
  obtain ⟨a, m, rfl, rfl⟩ := hv
  obtain ⟨b, n, rfl, rfl⟩ := hw
  by_cases h : m = 0 ∧ n = 0
  · obtain ⟨rfl, rfl⟩ := h
    exact ⟨a && b, 0, by simp [Val.add], by simp⟩
  · have hsum : (Val.num a m 0).add (.num b n 0) = Val.ofInt ((if a then -(m : Int) else m) + if b then -(n : Int) else n) := by
      simp [Val.add, Val.ofInt, shiftTo, h]
    rw [hsum]
    exact Val.holds_ofInt _

theorem Val.Holds.at_zero {v : Val} {i : Int} (h : v.Holds i) : v.at_ 0 = i := by
  obtain ⟨a, m, rfl, rfl⟩ := h
  simp [Val.at_, shiftTo]

/-- The exact sum of values that are integers is the integers' sum. -/
theorem exactSum_holds {α : Type} {l : List α} {f : α → Val} {F : α → Int} (h : ∀ x ∈ l, (f x).Holds (F x)) :
    (exactSum (l.map f)).Holds (l.map F).sum := by
  have hfold : ∀ (l : List α) (v : Val) (i : Int), (∀ x ∈ l, (f x).Holds (F x)) → v.Holds i →
      ((l.map f).foldl Val.add v).Holds (i + (l.map F).sum) := by
    intro l
    induction l with
    | nil => intro v i _ hv; simpa using hv
    | cons x l ih =>
      intro v i hl hv
      rw [List.map_cons, List.map_cons, List.foldl_cons, List.sum_cons, ← Int.add_assoc]
      exact ih _ _ (fun y hy => hl y (by simp [hy])) (hv.add (hl x (by simp)))
  cases l with
  | nil => exact Val.holds_zero
  | cons x l => exact hfold l _ _ (fun y hy => h y (by simp [hy])) (h x (by simp))

/-- An accumulator entry over the products of integers (R168, R175): their sum is added modulo 2^32. -/
theorem accumulate_integer (kt : Nat) (exactInt : Bool) (l : List Nat) (x y : Nat → Int) (sa sb : List Val) (acc : BitVec 32) :
    accumulate ⟨kt, .integer⟩ exactInt (l.map (fun j => Val.ofInt (x j))) (l.map (fun j => Val.ofInt (y j))) sa sb acc
      = acc + BitVec.ofInt 32 (l.map (fun j => x j * y j)).sum := by
  have hsum := exactSum_holds (l := l) fun j _ => (Val.holds_ofInt (x j)).mul (Val.holds_ofInt (y j))
  have hprods : List.zipWith Val.mul (l.map (fun j => Val.ofInt (x j))) (l.map (fun j => Val.ofInt (y j)))
      = l.map (fun j => (Val.ofInt (x j)).mul (Val.ofInt (y j))) := by rw [List.zipWith_map, List.zipWith_self]
  rw [← hsum.at_zero, ← hprods]
  rfl

end Sys2Proof.Machine
end

section
/-! PROOFS. MATMUL of INT8 by INT8 over one row: its operands in their banks, its passes chunk by chunk, and the command. -/

namespace Sys2Proof.Machine

/-! INT8 operands in a bank (R165 to R168). -/

theorem Fmt.rowBytes_int8 (n : Nat) : Fmt.int8.rowBytes n = n := Nat.mul_one n
theorem Fmt.scaleBytes_int8 (n : Nat) : Fmt.int8.scaleBytes n = 0 := rfl
theorem mxeRow_int8 (n : Nat) (elems scales : Bytes) :
    mxeRow .int8 n elems scales = ((List.range n).map (fun j => Val.ofInt (toInt 8 (leAt elems j 1))), []) := by
  simp [mxeRow, packedCode, Fmt.size, Fmt.value, Fmt.ff, Fmt.intBits, Fmt.micro]

theorem leAt_slice {b : Bytes} {off n i len : Nat} (h : i + len ≤ n) : leAt (slice b off n) i len = leAt b (off + i) len := by
  rw [leAt, leAt, slice, slice, slice, List.drop_take, List.take_take, List.drop_drop, Nat.min_eq_left (by omega)]

/-- A field of what an engine reads from a place on that lies within the bank of a local address. -/
theorem State.leAt_sramRead_la (s : State) (g : Nat) {a d n i len : Nat} (hfit : laOff a + d + n ≤ 2 ^ 20) (h : i + len ≤ n) (hn : 0 < n) :
    leAt (s.sramRead g (laBank (a + d)) (laOff (a + d)) n) i len = s.laNat g a (d + i) len := by
  rw [State.leAt_sramRead _ _ _ h, laBank_add (by omega), laOff_add (by omega), sramKey_add, Nat.add_assoc, State.laNat]

/-- Element `j` of the row of A. -/
def State.rowElem (s : State) (g : Nat) (o : MatmulOps) (j : Nat) : Int := toInt 8 (s.laNat g o.a.toNat j 1)
/-- Element `j` of a column of B, whose elements lie in chunks of 64, column after column (R167). -/
def State.colElem (s : State) (g : Nat) (o : MatmulOps) (col j : Nat) : Int :=
  toInt 8 (s.laNat g o.b.toNat ((j / 64 * o.n.toNat + col) * 64 + j % 64) 1)
/-- The product of the elements `j` of the row and of a column. -/
def State.mxeProduct (s : State) (g : Nat) (o : MatmulOps) (col j : Nat) : Int := s.rowElem g o j * s.colElem g o col j
/-- What a MATMUL of INT8 by INT8 over one row uses. -/
def int8Ctx (o : MatmulOps) (stage : Nat) : MxeCtx :=
  { o := o, fa := .int8, fb := .int8, p := ⟨64, .integer⟩, rows := [o.a.toNat], stage := stage }
/-- The elements of a chunk (R168). -/
def int8Width (o : MatmulOps) (c : Nat) : Nat := min 64 (o.k.toNat - c * 64)
/-- The columns of a chunk's panel. -/
def State.int8Panel (s : State) (g : Nat) (o : MatmulOps) (c : Nat) : List (List Val × List Val) :=
  (List.range o.n.toNat).map (fun col => ((List.range (int8Width o c)).map (fun j => Val.ofInt (s.colElem g o col (64 * c + j))), []))
/-- An entry of the row that the MATMUL adds to. -/
def State.mxeEntry (s : State) (g : Nat) (o : MatmulOps) (col : Nat) : BitVec 32 :=
  tget 0 (s.tile g).acc (accKey o.acc.toNat o.accRow.toNat col)
/-- An entry of the row once a chunk's products are added: with INIT the first chunk starts from 0 (R168, R182). -/
def State.chunkEntry (s : State) (g : Nat) (o : MatmulOps) (c col : Nat) : BitVec 32 :=
  (if o.init ∧ c = 0 then 0 else s.mxeEntry g o col)
    + BitVec.ofInt 32 ((List.range (int8Width o c)).map (fun j => s.mxeProduct g o col (64 * c + j))).sum
/-- An entry of the row once all products are added. -/
def State.matmulEntry (s : State) (g : Nat) (o : MatmulOps) (col : Nat) : BitVec 32 :=
  (if o.init then 0 else s.mxeEntry g o col) + BitVec.ofInt 32 ((List.range o.k.toNat).map (s.mxeProduct g o col)).sum
/-- `t` is `s` with the entries of the MATMUL's row holding `v`. -/
abbrev MxeRowWritten (s t : State) (g : Nat) (o : MatmulOps) (v : Nat → BitVec 32) : Prop :=
  AccRowWritten s t g o.acc.toNat o.accRow.toNat o.n.toNat v

/-- The operands of a MATMUL of INT8 over one row are the matrix engine's, each within its bank, and nothing that it reads is in error. -/
structure State.Int8Operands (s : State) (g : Nat) (o : MatmulOps) : Prop where
  good : s.sramBad = []
  accGood : (s.tile g).accBad = []
  ownA : s.fget (.BANK_OWN g (laBank o.a.toNat)) BANK_OWN.OWNER = aMXE
  ownB : s.fget (.BANK_OWN g (laBank o.b.toNat)) BANK_OWN.OWNER = aMXE
  fitsA : laOff o.a.toNat + o.k.toNat ≤ 2 ^ 20
  fitsB : laOff o.b.toNat + (o.k.toNat + 63) / 64 * o.n.toNat * 64 ≤ 2 ^ 20
  columns : 0 < o.n.toNat

section
variable {s t : State} {g : Nat} {o : MatmulOps} {c : Nat}

theorem AccRowWritten.int8Operands {b row n : Nat} {v : Nat → BitVec 32} (h : AccRowWritten s t g b row n v) (hs : s.Int8Operands g o) :
    t.Int8Operands g o :=
  { hs with
    good := h.sramBad.trans hs.good
    accGood := h.accBad.trans hs.accGood
    ownA := (h.fget _ _).trans hs.ownA
    ownB := (h.fget _ _).trans hs.ownB }
theorem State.rowElem_congr (h : t.sram = s.sram) (j : Nat) : t.rowElem g o j = s.rowElem g o j := by
  simp only [State.rowElem, State.laNat, h]
theorem State.colElem_congr (h : t.sram = s.sram) (col j : Nat) : t.colElem g o col j = s.colElem g o col j := by
  simp only [State.colElem, State.laNat, h]

variable (hs : s.Int8Operands g o) (hc : 64 * c < o.k.toNat) (stage : Nat)
include hs hc

/-- The panel of a chunk lies within the bank of B. -/
theorem State.Int8Operands.panel_fits : laOff o.b.toNat + c * (o.n.toNat * 64) + o.n.toNat * 64 ≤ 2 ^ 20 := by
  have hchunk : (c + 1) * (o.n.toNat * 64) ≤ (o.k.toNat + 63) / 64 * (o.n.toNat * 64) := Nat.mul_le_mul_right _ (by omega)
  have hfits := hs.fitsB
  rw [Nat.mul_assoc] at hfits
  rw [Nat.succ_mul] at hchunk
  omega

theorem State.Int8Operands.owners_panel : s.owners g aMXE ((int8Ctx o stage).accesses (.panel c)) = .ok := by
  have hfits := hs.panel_fits hc
  have hn := hs.columns
  refine State.owners_ok fun e he hne => ?_
  simp only [MxeCtx.accesses, MxeCtx.panels, int8Ctx, Fmt.rowBytes_int8, Fmt.scaleBytes_int8, List.mem_cons, List.not_mem_nil, or_false] at he
  rcases he with rfl | rfl
  · simp only [laBank_add (show laOff o.b.toNat + c * (o.n.toNat * 64) < 2 ^ 20 by omega)]
    exact hs.ownB
  · exact absurd (Nat.mul_zero _) hne

theorem State.Int8Operands.owners_row : s.owners g aMXE ((int8Ctx o stage).accesses (.row c 0)) = .ok := by
  have hfits := hs.fitsA
  refine State.owners_ok fun e he hne => ?_
  simp only [MxeCtx.accesses, MxeCtx.rowParts, int8Ctx, Fmt.rowBytes_int8, Fmt.scaleBytes_int8, List.mem_cons, List.not_mem_nil, or_false,
    List.getD_cons_zero] at he
  rcases he with rfl | rfl
  · simp only [laBank_add (show laOff o.a.toNat + c * 64 < 2 ^ 20 by omega)]
    exact hs.ownA
  · exact absurd rfl hne

/-- The load of a chunk's panel: the columns' elements. -/
theorem State.Int8Operands.mxeStep_panel (cols : List (List Val × List Val)) :
    s.mxeStep g (int8Ctx o stage) cols (.panel c) = (s.int8Panel g o c, s) := by
  have hfits := hs.panel_fits hc
  simp only [State.mxeStep, State.operandRead_of_sramBad_nil hs.good, MxeCtx.columns, MxeCtx.panels, int8Ctx, Fmt.rowBytes_int8, mxeRow_int8,
    List.getD_cons_zero]
  refine Prod.ext (List.map_congr_left fun col hcol => Prod.ext (List.map_congr_left fun j hj => ?_) rfl) rfl
  rw [List.mem_range] at hcol hj
  have hj64 : j < 64 := Nat.lt_of_lt_of_le hj (Nat.min_le_left _ _)
  have hcol' : (col + 1) * 64 ≤ o.n.toNat * 64 := Nat.mul_le_mul_right _ hcol
  have hplace : ((64 * c + j) / 64 * o.n.toNat + col) * 64 + (64 * c + j) % 64 = c * (o.n.toNat * 64) + (col * 64 + j) := by
    rw [show (64 * c + j) / 64 = c by omega, show (64 * c + j) % 64 = j by omega, Nat.add_mul, Nat.mul_assoc, Nat.add_assoc]
  rw [leAt_slice (by omega), State.leAt_sramRead_la _ _ hfits (by omega) (by omega), State.colElem, hplace]

/-- The elements of A that a chunk takes. -/
theorem State.Int8Operands.mxeRow_chunk (scales : Bytes) :
    mxeRow .int8 (int8Width o c) (s.sramRead g (laBank (o.a.toNat + c * 64)) (laOff (o.a.toNat + c * 64)) (int8Width o c)) scales
      = ((List.range (int8Width o c)).map (fun j => Val.ofInt (s.rowElem g o (64 * c + j))), []) := by
  have hfits := hs.fitsA
  have hwidth : int8Width o c ≤ o.k.toNat - c * 64 := Nat.min_le_right _ _
  rw [mxeRow_int8]
  refine Prod.ext (List.map_congr_left fun j hj => ?_) rfl
  rw [List.mem_range] at hj
  rw [State.leAt_sramRead_la _ _ (by omega) (by omega) (by omega), State.rowElem, Nat.mul_comm c]

omit hc in
/-- What stands in the row's entries before a chunk: with INIT the first chunk takes zeros (R182). -/
theorem State.Int8Operands.entriesBefore :
    (if o.init && c = 0 then (List.replicate o.n.toNat 0, s) else s.accRead g o.acc.toNat o.accRow.toNat o.n.toNat stage)
      = ((List.range o.n.toNat).map (fun col => if o.init ∧ c = 0 then 0 else s.mxeEntry g o col), s) := by
  rw [State.accRead_of_accBad_nil hs.accGood, State.accRow_eq]
  by_cases h : o.init ∧ c = 0
  · simp [h, List.map_const']
  · simp [h, State.mxeEntry]

/-- The entry of a row's chunk: each entry takes the chunk's products (R168). -/
theorem State.Int8Operands.mxeStep_row :
    MxeRowWritten s (s.mxeStep g (int8Ctx o stage) (s.int8Panel g o c) (.row c 0)).2 g o (s.chunkEntry g o c) := by
  have hrow := hs.mxeRow_chunk hc
  have hstep : (s.mxeStep g (int8Ctx o stage) (s.int8Panel g o c) (.row c 0)).2
      = s.accWrite g o.acc.toNat o.accRow.toNat stage ((List.range o.n.toNat).map (s.chunkEntry g o c)) := by
    simp only [int8Width] at hrow
    simp only [State.mxeStep, State.operandRead_of_sramBad_nil hs.good, MxeCtx.rowParts, int8Ctx, Fmt.rowBytes_int8, List.getD_cons_zero,
      Nat.add_zero, hs.entriesBefore, MxeCtx.width, hrow, State.int8Panel, List.zipWith_map, List.zipWith_self]
    exact congrArg _ (List.map_congr_left fun col _ => accumulate_integer _ _ _ _ _ _ _ _)
  have hwrite := State.accWrite_of_accBad_nil hs.accGood o.acc.toNat o.accRow.toNat stage ((List.range o.n.toNat).map (s.chunkEntry g o c))
  rw [List.length_map, List.length_range, ← hstep] at hwrite
  exact hwrite.congr fun col hcol => by simp [List.getD_eq_getElem?_getD, hcol]

end

/-- The steps of a MATMUL over one row, chunk by chunk. -/
theorem mxeOrder_one (chunks : Nat) : mxeOrder chunks 1 = (List.range' 0 chunks).flatMap (fun c => [.panel c, .row c 0]) := by
  rw [← List.range_eq_range']
  rfl

/-- A sum over the elements from a chunk on, its own elements first. -/
theorem sum_from_chunk (o : MatmulOps) (c : Nat) (f : Nat → Int) :
    ((List.range' (64 * c) (o.k.toNat - 64 * c)).map f).sum
      = ((List.range (int8Width o c)).map (fun j => f (64 * c + j))).sum
        + ((List.range' (64 * (c + 1)) (o.k.toNat - 64 * (c + 1))).map f).sum := by
  have hsplit : List.range' (64 * c) (o.k.toNat - 64 * c)
      = List.range' (64 * c) (int8Width o c) ++ List.range' (64 * (c + 1)) (o.k.toNat - 64 * (c + 1)) := by
    unfold int8Width
    by_cases h : o.k.toNat ≤ 64 * (c + 1)
    · rw [Nat.sub_eq_zero_of_le h, List.range'_zero, List.append_nil]
      congr 1; omega
    · rw [show 64 * (c + 1) = 64 * c + min 64 (o.k.toNat - c * 64) by omega, List.range'_append_1]
      congr 1; omega
  rw [hsplit, List.map_append, List.sum_append, List.range'_eq_map_range, List.map_map]
  rfl

section
variable {s : State} {g : Nat} {o : MatmulOps}

theorem State.mxeProduct_congr {t : State} (h : t.sram = s.sram) (col : Nat) : t.mxeProduct g o col = s.mxeProduct g o col :=
  funext fun j => by rw [State.mxeProduct, State.rowElem_congr h, State.colElem_congr h, State.mxeProduct]

/-- The passes from a chunk on: every entry takes the products of the elements from that chunk on. -/
theorem State.Int8Operands.mxeRun_from (stage m : Nat) : ∀ (s : State) (c done : Nat) (cols : List (List Val × List Val)),
    s.Int8Operands g o → o.k.toNat ≤ 64 * (c + m) → 64 * (c + m) < o.k.toNat + 64 →
    ∃ t, s.mxeRun g (int8Ctx o stage) cols done ((List.range' c m).flatMap (fun c => [.panel c, .row c 0])) = (.all, t)
      ∧ MxeRowWritten s t g o (fun col => (if o.init ∧ c = 0 ∧ 0 < m then 0 else s.mxeEntry g o col)
          + BitVec.ofInt 32 ((List.range' (64 * c) (o.k.toNat - 64 * c)).map (s.mxeProduct g o col)).sum) := by
  induction m with
  | zero =>
    intro s c done cols _ hk _
    refine ⟨s, rfl, AccRowWritten.refl fun col _ => ?_⟩
    rw [Nat.sub_eq_zero_of_le (show o.k.toNat ≤ 64 * c by omega)]
    simp [State.mxeEntry]
  | succ m ih =>
    intro s c done cols hs hk hlast
    have hc : 64 * c < o.k.toNat := by omega
    have hrow := hs.mxeStep_row hc stage
    obtain ⟨t, hrun, hrest⟩ := ih _ (c + 1) (done + 2) (s.int8Panel g o c) (hrow.int8Operands hs) (by omega) (by omega)
    refine ⟨t, ?_, (hrow.trans hrest).congr fun col hcol => ?_⟩
    · rw [List.range'_succ, List.flatMap_cons]
      simp only [List.cons_append, List.nil_append, State.mxeRun, hs.owners_panel hc stage, hs.mxeStep_panel hc stage,
        hs.owners_row hc stage]
      exact hrun
    · have hentry := hrow.entry col hcol
      rw [State.mxeProduct_congr hrow.sram, State.mxeEntry, hentry, sum_from_chunk o c]
      simp [State.chunkEntry, BitVec.ofInt_add, BitVec.add_assoc]

end

/-! MATMUL (R165, R168, R178, R182). -/

section
variable {s : State} {g : Nat} {o : MatmulOps}

@[simp] theorem State.matmulWork_tiles (m n chunks seg sseg : Nat) : (s.matmulWork g m n chunks seg sseg).tiles = s.tiles := by
  simp [State.matmulWork, State.freeBelow]
@[simp] theorem State.matmulWork_sram (m n chunks seg sseg : Nat) : (s.matmulWork g m n chunks seg sseg).sram = s.sram := by
  simp [State.matmulWork, State.freeBelow]
@[simp] theorem State.matmulWork_dram (m n chunks seg sseg : Nat) : (s.matmulWork g m n chunks seg sseg).dram = s.dram := by
  simp [State.matmulWork, State.freeBelow]

/-- A MATMUL of INT8 by INT8 over one row without an index tensor, whose operands pass their checks. -/
structure Int8Row (s : State) (g : Nat) (o : MatmulOps) : Prop extends s.Int8Operands g o where
  aFmt : o.aFmt = 8
  bFmt : o.bFmt = 8
  aIdx : o.aIdx = false
  oneRow : o.m = 1
  nMax : o.n.toNat ≤ 128
  kPos : 0 < o.k.toNat
  boundsA : s.laCheck g o.a.toNat o.k.toNat = .ok
  boundsB : s.laCheck g o.b.toNat ((o.k.toNat + 63) / 64 * o.n.toNat * 64) = .ok

theorem Int8Row.issued {g : Gt} (hs : Int8Row s g o) (h : CmdHdr) (c : EngCmd) : Int8Row (s.issued g h c) g o :=
  { hs with accGood := (State.putQueue_accBad _ _ _ _).trans hs.accGood }

section
variable (hs : Int8Row s g o)
include hs

theorem Int8Row.matmulFields : State.matmulFields o = .inr (.int8, .int8, ⟨64, .integer⟩) := by
  have hn : decide (128 < o.n.toNat) = false := by have := hs.nMax; simpa using this
  simp only [State.matmulFields, hs.aFmt, hs.bFmt, hs.aIdx, hn, Bool.false_and, Bool.or_false, Bool.false_eq_true, if_false]
  rfl

/-- The operands' extents pass their bounds. -/
theorem Int8Row.extents : s.extents g [(o.a.toNat, o.k.toNat), (o.b.toNat, divUp o.k.toNat 64 * o.n.toNat * 64)] = .ok := by
  refine State.extents_ok fun e he => ?_
  simp only [List.mem_cons, List.not_mem_nil, or_false] at he
  rcases he with rfl | rfl
  · exact hs.boundsA
  · exact hs.boundsB

/-- The command's checks are passed, and its passes are made. -/
theorem Int8Row.matmul_eq_matmulGo {i : QItem} (hrows : i.rows = 0) (hixs : i.ixs = []) :
    s.matmul g o i = s.matmulGo g o .int8 .int8 ⟨64, .integer⟩ { i with rows := 1 } := by
  have hchunks : divUp o.k.toNat 64 ≠ 0 := by have := hs.kPos; unfold divUp; omega
  have hpanels : (divUp o.k.toNat 64 * o.n.toNat * 64 != 0) = true := 
    bne_iff_ne.mpr (Nat.mul_ne_zero (Nat.mul_ne_zero hchunks (Nat.ne_of_gt hs.columns)) (by decide))
  have hrow : ¬ 512 < o.accRow.toNat + 1 := by omega
  have hext := hs.extents
  have hm : o.m.toNat = 1 := by rw [hs.oneRow]; rfl
  simp only [State.matmul, hs.matmulFields, hrows, hixs, hm, hs.aIdx, Nat.ne_of_gt hs.columns, Nat.ne_of_gt hs.kPos, Fmt.rowBytes_int8,
    Fmt.scaleBytes_int8, Nat.mul_zero, hrow]
  simp [hpanels, hext, State.readTensors, hixs]

/-- The passes are all made, and each entry of the row has taken its products. -/
theorem Int8Row.matmulGo_eq {i : QItem} (hrows : i.rows = 1) :
    ∃ t, s.matmulGo g o .int8 .int8 ⟨64, .integer⟩ i = (.ran 0, t.matmulWork g 1 o.n.toNat (divUp o.k.toNat 64) 64 0)
      ∧ MxeRowWritten s t g o (s.matmulEntry g o) := by
  have hk := hs.kPos
  have hm : o.m.toNat = 1 := by rw [hs.oneRow]; rfl
  have hctx : (List.range 1).map (fun r => if o.aIdx then ((i.ixs.headD []).getD r 0).toNat else o.a.toNat + r * o.aStride.toNat)
      = [o.a.toNat] := by
    simp [hs.aIdx]
  have hchunks : 0 < divUp o.k.toNat 64 := by unfold divUp; omega
  obtain ⟨t, hrun, hrow⟩ := State.Int8Operands.mxeRun_from i.stage (divUp o.k.toNat 64) s 0 1
    (s.mxeCols g (int8Ctx o i.stage) (mxeOrder (divUp o.k.toNat 64) 1)) hs.toInt8Operands (by unfold divUp; omega) (by unfold divUp; omega)
  rw [← mxeOrder_one] at hrun
  refine ⟨t, ?_, hrow.congr fun col _ => ?_⟩
  · simp only [State.matmulGo, hm, hrows, hctx, Nat.sub_self, List.drop_zero, Fmt.rowBytes_int8, Fmt.scaleBytes_int8]
    rw [← int8Ctx, hrun]
  · simp [State.matmulEntry, hchunks, List.range_eq_range']

theorem Int8Row.matmul_eq {i : QItem} (hrows : i.rows = 0) (hixs : i.ixs = []) :
    ∃ t, s.matmul g o i = (.ran 0, t.matmulWork g 1 o.n.toNat (divUp o.k.toNat 64) 64 0)
      ∧ MxeRowWritten s t g o (s.matmulEntry g o) := by
  rw [hs.matmul_eq_matmulGo hrows hixs]
  exact hs.matmulGo_eq rfl

end

end

/-- A MATMUL at a free engine: the state that its accesses leave, with the command in progress. -/
theorem exec_matmul_int8 {s : State} {g : Gt} {h : CmdHdr} {o : MatmulOps} (halive : s.alive = true) (hfree : s.engineFree g 1 h)
    (hs : Int8Row s g o) :
    ∃ t u, exec (.matmul g h o) s = .next (s.engineBegan u g h (.matmul o))
      ∧ MxeRowWritten (s.issued g h (.matmul o)) t g o (s.matmulEntry g o)
      ∧ u.tiles = t.tiles ∧ u.sram = t.sram ∧ u.dram = t.dram := by
  have hacc : ((s.issued g h (.matmul o)).tile g).acc = (s.tile g).acc := State.putQueue_acc _ _ _ _
  obtain ⟨t, hrun, hrow⟩ := (hs.issued h (.matmul o)).matmul_eq (i := s.engItem g h (.matmul o)) rfl rfl
  refine ⟨t, _, live_engineRow_of_ran halive hfree hrun ?_, hrow.congr fun col _ => ?_, by simp, by simp, by simp⟩
  · rw [State.queue, State.tile_congr (State.matmulWork_tiles ..), ← State.queue, hrow.queue]
    exact State.queue_issued
  · simp only [State.matmulEntry, State.mxeEntry, hacc]
    rfl

end Sys2Proof.Machine
end

section
/-! PROOFS. ACCSTORE of integers over one row, and the statement about both commands of the matrix engine. -/

namespace Sys2Proof.Machine

/-! ACCSTORE of integers (R184). -/

/-- An INT32 takes the value of an accumulator entry as it is (R153 to R155). -/
theorem encode_int32 (sat : Bool) (x : BitVec 32) : Fmt.int32.encode .rne sat (Val.ofInt x.toInt) = x.toNat := by
  have hround : ∀ m : Nat, roundUnits .rne m 1 0 0 = m := fun m => by
    have hup : RMode.up .rne m 0 1 = false := by simp [RMode.up]
    simp [roundUnits, Nat.mod_one, hup]
  have hsign : (if x.toInt < 0 then -(x.toInt.natAbs : Int) else x.toInt.natAbs) = x.toInt := by split <;> omega
  have hlow := BitVec.le_toInt x
  have hhigh := BitVec.toInt_lt (x := x)
  have hclamp : clampInt (-2 ^ 31) (2 ^ 31 - 1) x.toInt = x.toInt := by unfold clampInt; omega
  have hwrap : ofInt 32 x.toInt = x.toNat := by
    have := BitVec.toInt_eq_toNat_cond x
    unfold ofInt
    split at this <;> omega
  calc Fmt.int32.encode .rne sat (Val.ofInt x.toInt)
      = ofInt 32 (clampInt (-2 ^ 31) (2 ^ 31 - 1) (if x.toInt < 0 then -(x.toInt.natAbs : Int) else x.toInt.natAbs)) := by
        simp [Fmt.encode, Fmt.ff, Fmt.intBits, encodeInt, Val.ofInt, hround]
    _ = x.toNat := by rw [hsign, hclamp, hwrap]

/-- A row of INT32 elements is the entries' words, one after another. -/
theorem rowOf_int32 {mode : Nat → RMode} (hmode : ∀ j, mode j = .rne) (sat : Bool) (l : List (BitVec 32)) :
    rowOf .int32 mode sat (l.map (fun x => Val.ofInt x.toInt)) = (l.flatMap (fun x => toLe 4 x.toNat), []) := by
  have hflat : (l.map (fun x => Val.ofInt x.toInt)).zipIdx.flatMap (fun v => toLe 4 (Fmt.int32.encode (mode v.2) sat v.1))
      = l.flatMap (fun x => toLe 4 x.toNat) := by
    simp only [hmode]
    rw [← List.flatMap_map Prod.fst (fun v => toLe 4 (Fmt.int32.encode .rne sat v)), List.zipIdx_map_fst, List.flatMap_map]
    simp only [encode_int32]
  exact Prod.ext hflat rfl

/-- An ACCSTORE of one row of integers in INT32, whose destination passes its checks. -/
structure Int32Row (s : State) (g : Nat) (o : AccstoreOps) : Prop where
  accFmt : o.accFmt = 11
  dFmt : o.dFmt = 11
  oneRow : o.m = 1
  nPos : 0 < o.n.toNat
  nMax : o.n.toNat ≤ 128
  rne : o.rmode = 0
  unbound : o.rowbind = 0
  good : s.sramBad = []
  accGood : (s.tile g).accBad = []
  bounds : s.laCheck g o.d.toNat (4 * o.n.toNat) = .ok
  own : s.fget (.BANK_OWN g (laBank o.d.toNat)) BANK_OWN.OWNER = aMXE
  plain : laView o.d.toNat = 0

/-- The words that an ACCSTORE of one row writes. -/
def State.accstoreBytes (s : State) (g : Nat) (o : AccstoreOps) : Bytes :=
  (s.accRow g o.acc.toNat o.accRow.toNat o.n.toNat).flatMap (fun x => toLe 4 x.toNat)

section
variable {s : State} {g : Nat} {o : AccstoreOps}

theorem Int32Row.issued {g : Gt} (hs : Int32Row s g o) (h : CmdHdr) (c : EngCmd) : Int32Row (s.issued g h c) g o :=
  { hs with accGood := (State.putQueue_accBad _ _ _ _).trans hs.accGood }

theorem State.accstoreBytes_length (s : State) (g : Nat) (o : AccstoreOps) : (s.accstoreBytes g o).length = 4 * o.n.toNat := by
  simp only [State.accstoreBytes, State.accRow_eq, List.length_flatMap, toLe_length, List.map_const', List.length_map, List.length_range,
    List.sum_replicate_nat]
  exact Nat.mul_comm _ _

/-- Word `j` of what is written is entry `j` of the row. -/
theorem State.accstoreBytes_word (s : State) (g : Nat) (o : AccstoreOps) {j : Nat} (hj : j < o.n.toNat) :
    leNat (slice (s.accstoreBytes g o) (4 * j) 4) = (tget 0 (s.tile g).acc (accKey o.acc.toNat o.accRow.toNat j)).toNat := by
  rw [State.accstoreBytes, slice_flatMap_toLe _ _ _ _ (by simpa [State.accRow_eq] using hj), leNat_toLe, Nat.mod_eq_of_lt (by omega)]
  simp [State.accRow_eq]

variable (hs : Int32Row s g o)
include hs

/-- The row is written at D. -/
theorem Int32Row.accstoreRows_eq (key : RowKey) (stage : Nat) :
    ∃ l, s.accstoreRows g o .int32 .int32 stage [(key, 0)]
      = (.all, { s with sram := memWrite s.sram (sramKey g (laBank o.d.toNat) (laOff o.d.toNat)) (s.accstoreBytes g o), lock := l }) := by
  obtain ⟨l, hwrite⟩ := State.bankWrite_plain_of_sramBad_nil hs.good g (laBank o.d.toNat) (laOff o.d.toNat) (s.accstoreBytes g o)
    { agent := aMXE, stage := some stage }
  have hown : s.owners g aMXE [(o.d.toNat, Fmt.int32.rowBytes o.n.toNat)] = .ok := State.owners_ok fun e he _ => by
    obtain rfl := List.mem_singleton.mp he
    exact hs.own
  have hrow := rowOf_int32 (mode := rmodeOf o.rmode.toNat key.seed key.pos o.site.toNat) (fun j => by rw [hs.rne]; rfl) o.sat
    (s.accRow g o.acc.toNat o.accRow.toNat o.n.toNat)
  rw [← hs.plain] at hwrite
  refine ⟨l, ?_⟩
  rw [← hwrite]
  simp only [State.accstoreRows, Nat.zero_mul, Nat.add_zero, hown, State.accRead_of_accBad_nil hs.accGood, if_true, hrow]
  rfl

/-- The command's checks are passed, and its row is written. -/
theorem Int32Row.accstore_eq_accstoreRows {i : QItem} (hrows : i.rows = 0) (hbegun : i.begun = false) (hixs : i.ixs = []) :
    s.accstore g o i = Got.began { i with rows := 1, keys := [s.rowKey g none 0] }
      (s.accstoreRows g o .int32 .int32 i.stage [(s.rowKey g none 0, 0)]) := by
  have hm : o.m.toNat = 1 := by rw [hs.oneRow]; rfl
  have hrow : ¬ 512 < o.accRow.toNat + 1 := by omega
  have hn : ¬ 128 < o.n.toNat := by have := hs.nMax; omega
  have hfmt : fmtOf 11 = some .int32 := rfl
  have hext : s.extents g [(o.d.toNat, o.n.toNat * 4)] = .ok :=
    State.extents_ok fun e he => by rw [List.mem_singleton.mp he, Nat.mul_comm]; exact hs.bounds
  have hsize : (o.n.toNat * 4 != 0) = true := bne_iff_ne.mpr (by have := hs.nPos; omega)
  have hfilter : [(o.d.toNat, o.n.toNat * 4), (o.dScale.toNat, 0)].filter (fun e => e.2 != 0) = [(o.d.toNat, o.n.toNat * 4)] := by
    rw [List.filter_cons_of_pos (by exact hsize)]
    rfl
  simp only [State.accstore, hs.accFmt, hs.dFmt, hfmt, hrows, hbegun, hixs, hs.rne, hs.unbound, hm, Nat.ne_of_gt hs.nPos]
  simp [State.rowbindBad, hn, hrow, hfilter, hext, Fmt.rowBytes, Fmt.size, Fmt.scaleBytes, Fmt.micro,
    State.readTensors, State.accstoreGo, State.rowKeys, hixs, hbegun]

theorem Int32Row.accstore_eq {i : QItem} (hrows : i.rows = 0) (hbegun : i.begun = false) (hixs : i.ixs = []) :
    ∃ l, s.accstore g o i
      = (.ran 0, { s with sram := memWrite s.sram (sramKey g (laBank o.d.toNat) (laOff o.d.toNat)) (s.accstoreBytes g o), lock := l }) := by
  obtain ⟨l, hrun⟩ := hs.accstoreRows_eq (s.rowKey g none 0) i.stage
  exact ⟨l, by rw [hs.accstore_eq_accstoreRows hrows hbegun hixs, hrun]; rfl⟩

end

/-- An ACCSTORE at a free engine: its row is in the bank, and the command is in progress. -/
theorem exec_accstore_int32 {s : State} {g : Gt} {h : CmdHdr} {o : AccstoreOps} (halive : s.alive = true) (hfree : s.engineFree g 1 h)
    (hs : Int32Row s g o) :
    ∃ u, exec (.accstore g h o) s = .next (s.engineBegan u g h (.accstore o))
      ∧ u.sram = memWrite s.sram (sramKey g (laBank o.d.toNat) (laOff o.d.toNat)) (s.accstoreBytes g o)
      ∧ u.dram = s.dram ∧ (u.tile g).acc = (s.tile g).acc := by
  have hacc : ((s.issued g h (.accstore o)).tile g).acc = (s.tile g).acc := State.putQueue_acc _ _ _ _
  have hbytes : (s.issued g h (.accstore o)).accstoreBytes g o = s.accstoreBytes g o := by
    simp only [State.accstoreBytes, State.accRow_eq, hacc]
  obtain ⟨l, hrun⟩ := (hs.issued h (.accstore o)).accstore_eq (i := s.engItem g h (.accstore o)) rfl rfl rfl
  refine ⟨_, live_engineRow_of_ran halive hfree hrun State.queue_issued, ?_, rfl, hacc⟩
  rw [hbytes]
  rfl

/-! The statement. -/

/-- Settles O37: the passes of the MATMUL chunk by chunk, each adding a chunk's products to every entry of the row, and the words that the
ACCSTORE writes. -/
theorem matrixInteger : Obligations.MatrixInteger := by
  unfold Obligations.MatrixInteger
  refine ⟨fun s g h o halive hfree haf hbf hidx hm hn hn128 hk hgood hacc hA hB => ?_,
    fun s g h o halive hfree haf hdf hm hn hn128 hrm hrb hgood hacc hD hview => ?_⟩
  · have hpanels : 0 < (o.k.toNat + 63) / 64 * o.n.toNat * 64 := Nat.mul_pos (Nat.mul_pos (by omega) hn) (by omega)
    obtain ⟨hlaA, hownA, hfitsA⟩ := State.accCheck_ok hk hA.1
    obtain ⟨hlaB, hownB, hfitsB⟩ := State.accCheck_ok hpanels hB.1
    obtain ⟨t, u, hexec, hrow, htiles, hsram, hdram⟩ := exec_matmul_int8 halive hfree
      ⟨⟨hgood, hacc, hownA, hownB, hfitsA, hfitsB, hn⟩, haf, hbf, hidx, hm, hn128, hk, hlaA, hlaB⟩
    have htacc : ((s.engineBegan u g h (.matmul o)).tile g).acc = (t.tile g).acc := by
      rw [State.engineBegan_acc, State.tile_congr htiles]
    refine ⟨_, hexec, fun c hc => ?_, fun b r c hc hout hr => ?_, ⟨fun a => ?_, fun a => ?_⟩, State.engineBegan_queue,
      State.engineBegan_busy rfl⟩
    · rw [htacc]
      exact hrow.entry c hc
    · rw [htacc, hrow.other _ (accKey_beside (by omega) hr hn128 hc hout)]
      exact congrArg (tget 0 · _) (State.putQueue_acc _ _ _ _)
    · rw [State.engineBegan_sram, hsram, hrow.sram]
      rfl
    · rw [State.engineBegan_dram, hdram, hrow.dram]
      rfl
  · obtain ⟨hla, hown, -⟩ := State.accCheck_ok (by omega) hD.1
    obtain ⟨u, hexec, hsram, hdram, htacc⟩ := exec_accstore_int32 halive hfree
      ⟨haf, hdf, hm, hn, hn128, hrm, hrb, hgood, hacc, hla, hown, hview⟩
    have hlen := s.accstoreBytes_length g o
    refine ⟨_, hexec, fun j hj => ?_, fun b hb => ?_, fun a => ?_, ?_, State.engineBegan_queue⟩
    · rw [State.laNat, State.engineBegan_sram, hsram, memNat, memRead_memWrite_slice _ (by omega), State.accstoreBytes_word _ _ _ hj]
    · rw [State.engineBegan_sram, hsram, memByte_memWrite_out _ _ _ _ (by omega)]
    · rw [State.engineBegan_dram, hdram]
    · rw [State.engineBegan_acc, htacc]

end Sys2Proof.Machine
end

section
/-! PROOFS. A data mover's channel after its change, and the answers of other modules that reach it. -/

namespace Sys2Proof.Machine

/-! A channel and its change (R266, R290, R300). -/

/-- A write leaves the entries below its key. -/
theorem tput_filter_lt {α : Type} [DecidableEq α] (d : α) (t : List (Nat × α)) (k : Nat) (v : α) :
    (tput d t k v).filter (·.1 < k) = t.filter (·.1 < k) := by
  have habove : t.filter (fun e => decide (e.1 < k) && decide (k < e.1)) = [] := List.filter_eq_nil_iff.mpr fun e _ => by simp; omega
  by_cases hv : v = d <;> simp [tput, hv, List.filter_filter, habove]
/-- A write leaves the entries above its key. -/
theorem tput_filter_gt {α : Type} [DecidableEq α] (d : α) (t : List (Nat × α)) (k : Nat) (v : α) :
    (tput d t k v).filter (k < ·.1) = t.filter (k < ·.1) := by
  have hbelow : t.filter (fun e => decide (k < e.1) && decide (e.1 < k)) = [] := List.filter_eq_nil_iff.mpr fun e _ => by simp; omega
  by_cases hv : v = d <;> simp [tput, hv, List.filter_filter, hbelow]
/-- Of two writes at a key the later one stands. -/
theorem tput_tput_same {α : Type} [DecidableEq α] (d : α) (t : List (Nat × α)) (k : Nat) (v w : α) :
    tput d (tput d t k v) k w = tput d t k w := by
  rw [tput, tput_filter_lt, tput_filter_gt, tput]
theorem tmod_tmod_same {α : Type} [DecidableEq α] (d : α) (t : List (Nat × α)) (k : Nat) (f g : α → α) :
    tmod d (tmod d t k f) k g = tmod d t k (fun v => g (f v)) := by
  rw [tmod, tmod, tget_tput_same, tput_tput_same, tmod]

/-- Channels are read from the tiles and from the I/O dies' movers alone. -/
theorem State.chan_congr {s t : State} (htiles : t.tiles = s.tiles) (hidma : t.idma = s.idma) (c : ChanId) : t.chan c = s.chan c := by
  cases c with
  | tile g ch => simp only [State.chan, State.tile_congr htiles]
  | io i ch => simp only [State.chan, hidma]

section
variable (s : State) (c : ChanId) (f g : Chan → Chan)

@[simp] theorem State.chan_modChan_same : (s.modChan c f).chan c = f (s.chan c) := by
  cases c with
  | tile t ch => rw [State.modChan, State.chan, State.tile_modTile_same]; exact tget_tput_same _ _ _ _
  | io i ch => exact tget_tput_same _ _ _ _
/-- Two changes of a channel are one. -/
theorem State.modChan_modChan : (s.modChan c f).modChan c g = s.modChan c (fun q => g (f q)) := by
  cases c with
  | tile t ch =>
    simp only [State.modChan, State.modTile, State.putTile, State.tile, tget_tput_same, tput_tput_same, tmod_tmod_same]
  | io i ch => simp only [State.modChan, tmod_tmod_same]
variable {f g} in
/-- A change of a channel is told by what it makes of the channel. -/
theorem State.modChan_congr (h : f (s.chan c) = g (s.chan c)) : s.modChan c f = s.modChan c g := by
  cases c with
  | tile t ch =>
    have h' : f (tget {} (s.tile t).chans ch) = g (tget {} (s.tile t).chans ch) := h
    simp only [State.modChan, State.modTile, tmod, h']
  | io i ch =>
    have h' : f (tget {} s.idma (i * 32 + ch)) = g (tget {} s.idma (i * 32 + ch)) := h
    simp only [State.modChan, tmod, h']

@[simp] theorem State.modChan_regs : (s.modChan c f).regs = s.regs := by cases c <;> rfl
@[simp] theorem State.modChan_pending : (s.modChan c f).pending = s.pending := by cases c <;> rfl
@[simp] theorem State.modChan_fuses : (s.modChan c f).fuses = s.fuses := by cases c <;> rfl
@[simp] theorem State.modChan_pwr : (s.modChan c f).pwr = s.pwr := by cases c <;> rfl
@[simp] theorem State.chan_fset (r : Reg) (x : Fld) (v : Nat) : (s.fset r x v).chan c = s.chan c :=
  State.chan_congr (State.fset_tiles _ _ _ _) (State.fset_idma _ _ _ _) c
@[simp] theorem State.chan_keepOuter (t : State) : (s.keepOuter t).chan c = t.chan c := State.chan_congr rfl rfl c
@[simp] theorem State.chan_takeInbound (p : Port) (b : Bytes) : (s.fresh.takeInbound p b).chan c = s.chan c := State.chan_congr rfl rfl c
/-- A delivered packet that only changes a channel leaves what is outside the dies. -/
theorem State.keepOuter_modChan_takeInbound (p : Port) (b : Bytes) :
    s.keepOuter ((s.fresh.takeInbound p b).modChan c f) = (s.fresh.takeInbound p b).modChan c f :=
  State.keepOuter_eq _ _ (State.modChan_pending _ _ _) (State.modChan_fuses _ _ _) (State.modChan_pwr _ _ _)

end

/-! What an answer leaves of the channel that it names (R300, R302, R304). -/

/-- A NACK of one of a descriptor's GET requests ends the descriptor with the NACK's code (R302). -/
def Xfer.nackedBy (seq : BitVec 32) (code : Nat) (x : Xfer) : Xfer :=
  if x.gets.any (·.1 = seq) then { x with gets := x.gets.filter (·.1 != seq), fault := BitVec.ofNat 8 code } else x
/-- A NACK completes its packet, and a tile channel keeps its code for the FENCE that covers it (R302). -/
def Chan.nackedBy (c : ChanId) (seq : BitVec 32) (code : Nat) (q : Chan) : Chan :=
  { q with done := q.done + 1, nacks := q.nacks ++ (if ofTile c then [(seq, BitVec.ofNat 8 code)] else []), cur := q.cur.map (·.nackedBy seq code) }
/-- One answer fewer is to come for a packet (R304, R305). -/
def Chan.answeredBy (seq : BitVec 32) (q : Chan) : Chan :=
  { q with open_ := (q.open_.map (fun e => if e.1 = seq then (e.1, e.2 - 1) else e)).filter (fun e => e.2 != 0) }

section
variable (s : State) (c : ChanId) (seq : BitVec 32) (code : Nat)

theorem State.answered_eq : s.answered c seq = s.modChan c (Chan.answeredBy seq) := rfl
/-- A NACK changes its channel, and an I/O-die channel shows its code (R304). -/
theorem State.nacked_eq : s.nacked c seq code = match c with
    | .tile _ _ => s.modChan c (Chan.nackedBy c seq code)
    | .io i ch => (s.modChan c (Chan.nackedBy c seq code)).fset (.IDMA_STATUS i ch) IDMA_STATUS.LAST_FAULT code := by
  unfold State.nacked
  rw [State.modChan_congr (g := Chan.nackedBy c seq code)]
  · cases c <;> rfl
  · generalize s.chan c = q
    cases c <;> cases hcur : q.cur with
    | none => simp [Chan.nackedBy, Chan.complete, ofTile, hcur]
    | some x => by_cases hget : x.gets.any (·.1 = seq) = true <;> simp [Chan.nackedBy, Xfer.nackedBy, Chan.complete, ofTile, hcur, hget]
theorem State.nacked_tile_regs (g : Gt) (ch : TileCh) : (s.nacked (.tile g ch) seq code).regs = s.regs := by
  rw [State.nacked_eq]; exact State.modChan_regs _ _ _
theorem State.nacked_io_lastFault (i : Iod) (ch : IoCh) :
    (s.nacked (.io i ch) seq code).fget (.IDMA_STATUS i ch) IDMA_STATUS.LAST_FAULT = code % 2 ^ 8 := by
  rw [State.nacked_eq]; exact State.fget_fset_same _ _ _ _ (by decide)
@[simp] theorem State.chan_answered : (s.answered c seq).chan c = (s.chan c).answeredBy seq := State.chan_modChan_same _ _ _
@[simp] theorem State.answered_regs : (s.answered c seq).regs = s.regs := State.modChan_regs _ _ _
@[simp] theorem State.chan_nacked : (s.nacked c seq code).chan c = (s.chan c).nackedBy c seq code := by
  cases c with
  | tile g ch => rw [State.nacked_eq, State.chan_modChan_same]
  | io i ch => rw [State.nacked_eq, State.chan_fset, State.chan_modChan_same]

/-- A packet with one answer to come is complete; one with more waits for the rest. -/
theorem Chan.answeredBy_open_of_single {seq : BitVec 32} {q : Chan} {n : Nat} (h : q.open_ = [(seq, n)]) :
    (q.answeredBy seq).open_ = if n ≤ 1 then [] else [(seq, n - 1)] := by
  by_cases hn : n ≤ 1
  · have hlast : n - 1 = 0 := by omega
    simp [Chan.answeredBy, h, hn, hlast]
  · have hmore : n - 1 ≠ 0 := by omega
    simp [Chan.answeredBy, h, hn, hmore]
theorem Xfer.nackedBy_of_mem {seq : BitVec 32} {x : Xfer} {a : Nat} (h : (seq, a) ∈ x.gets) :
    x.nackedBy seq code = { x with gets := x.gets.filter (·.1 != seq), fault := BitVec.ofNat 8 code } :=
  if_pos (List.any_eq_true.mpr ⟨_, h, by simp⟩)

/-- GET data that no GET of the channel's descriptor expects only completes its request (R300). -/
theorem State.getData_of_unexpected {k : Packet}
    (h : (s.chan c).cur = none ∨ ∃ x, (s.chan c).cur = some x ∧ ∀ e ∈ x.gets, e.1 ≠ k.hdr.seq) : s.getData c k = s.modChan c (·.complete) := by
  unfold State.getData
  rcases h with h | ⟨x, h, hgets⟩
  · rw [h]
  · have hnone : x.gets.any (·.1 = k.hdr.seq) = false := List.any_eq_false.mpr fun e he => by simpa using hgets e he
    rw [h]; simp [hnone]
/-- GET data that the channel expects enters the inbound path with the bursts that it takes (R273). -/
theorem State.getData_of_expected {k : Packet} {x : Xfer} {a : Nat} (hcur : (s.chan c).cur = some x) (hget : (k.hdr.seq, a) ∈ x.gets)
    (hinq : ∀ e ∈ x.inq, e.1 ≠ k.hdr.seq) : s.getData c k
      = s.modChan c (fun q => { q with cur := some { x with inq := x.inq ++ [(k.hdr.seq, k.payload, divUp k.payload.length (chanBurst c))] } }) := by
  have hsome : x.gets.any (·.1 = k.hdr.seq) = true := List.any_eq_true.mpr ⟨_, hget, by simp⟩
  have hnone : x.inq.any (·.1 = k.hdr.seq) = false := List.any_eq_false.mpr fun e he => by simpa using hinq e he
  unfold State.getData
  rw [hcur]
  simp only [hsome, hnone, Bool.not_false, Bool.and_self, if_true]
  exact State.modChan_congr _ _ (by rw [hcur]; rfl)

end

/-! Answers at the issuer (R289, R293, R300, R302, R304). -/

section
variable {s : State} {p : Port} {k : Packet} {c : ChanId} {n : Nat} {f : ChanId → State → State}

/-- An answer of its kind that names a channel of this module acts on the channel. -/
theorem live_answerPacket (hs : s.alive = true) (hv : s.flag .ROUTE_SELF ROUTE_SELF.SELF_VALID = true)
    (hm : gaModule k.hdr.ga.toNat = s.self) (hc : chanOf k.hdr.issuer.toNat = some c) (ho : k.hdr.opc.toNat = n) :
    live s (·.answerPacket p k n f) = .next (s.keepOuter (f c (s.fresh.takeInbound p (pktBytes k)))) := by
  have haccept : s.fresh.answerPacket p k n f = f c (s.fresh.takeInbound p (pktBytes k)) := by
    simp only [State.answerPacket, ho, bne_self_eq_false, Bool.false_eq_true, if_false]
    rw [State.acceptIn_of_self (s := s.fresh) hv hm, hc]
  rw [live_of_alive s _ hs]
  exact congrArg (fun t => Host.Outcome.next (s.keepOuter t)) haccept

section
variable (hs : s.alive = true) (hv : s.flag .ROUTE_SELF ROUTE_SELF.SELF_VALID = true) (hm : gaModule k.hdr.ga.toNat = s.self)
  (hc : chanOf k.hdr.issuer.toNat = some c)
include hs hv hm hc

theorem exec_ackPacket (ho : k.hdr.opc.toNat = 6) : exec (.ackPacket p k) s
    = .next ((s.fresh.takeInbound p (pktBytes k)).modChan c (fun q => q.complete.answeredBy k.hdr.seq)) :=
  (live_answerPacket hs hv hm hc ho).trans (by rw [State.answered_eq, State.modChan_modChan, State.keepOuter_modChan_takeInbound])

theorem exec_nackPacket (ho : k.hdr.opc.toNat = 7) : exec (.nackPacket p k) s
    = .next (s.keepOuter (((s.fresh.takeInbound p (pktBytes k)).nacked c k.hdr.seq (k.hdr.length.toNat % 256)).answered c k.hdr.seq)) :=
  live_answerPacket hs hv hm hc ho

theorem exec_getDataPacket (ho : k.hdr.opc.toNat = 2) : exec (.getDataPacket p k) s
    = .next (s.keepOuter ((s.fresh.takeInbound p (pktBytes k)).getData c k)) :=
  live_answerPacket hs hv hm hc ho

end

theorem exec_reservedOpcPacket (hs : s.alive = true) (hv : s.flag .ROUTE_SELF ROUTE_SELF.SELF_VALID = true)
    (ho : k.hdr.opc.toNat = 0 ∨ 8 < k.hdr.opc.toNat) :
    exec (.reservedOpcPacket p k) s = .next ((s.fresh.takeInbound p (pktBytes k)).fadd .ROUTE_COUNT ROUTE_COUNT.FOREIGN 1) := by
  have hreserved : ¬ (1 ≤ k.hdr.opc.toNat ∧ k.hdr.opc.toNat ≤ 8) := by omega
  have hv' : (s.fresh.takeInbound p (pktBytes k)).flag .ROUTE_SELF ROUTE_SELF.SELF_VALID = true := hv
  have hcount : s.fresh.reservedOpc p k = (s.fresh.takeInbound p (pktBytes k)).fadd .ROUTE_COUNT ROUTE_COUNT.FOREIGN 1 := by
    simp [State.reservedOpc, hreserved, hv', State.foreign]
  refine (live_of_alive s (·.reservedOpc p k) hs).trans ?_
  rw [hcount, State.keepOuter_fadd_takeInbound]

end

/-- Settles O45: each answer acts on the channel that it names, and a packet with a reserved OPC is counted. -/
theorem answerPackets : Obligations.AnswerPackets := by
  unfold Obligations.AnswerPackets
  intro s p k hs hv hm
  refine ⟨fun c hc => ?_, exec_reservedOpcPacket hs hv⟩
  have hchan : (s.fresh.takeInbound p (pktBytes k)).chan c = s.chan c := State.chan_takeInbound _ _ _ _
  have hcode : BitVec.ofNat 8 (k.hdr.length.toNat % 256) = BitVec.ofNat 8 k.hdr.length.toNat := BitVec.eq_of_toNat_eq (by simp)
  refine ⟨fun ho => ⟨_, exec_ackPacket hs hv hm hc ho, ?_, ?_, ?_⟩, fun n hopen => ?_, fun ho hcur => ?_, fun x at_ ho hcur hget => ?_,
    fun ho hcur => ?_, fun x at_ ho hcur hget hinq => ?_⟩
  · rw [State.chan_modChan_same, hchan]; rfl
  · rw [State.chan_modChan_same, hchan, State.chan_answered]; rfl
  · refine State.modChan_congr _ _ ?_
    rw [State.chan_modChan_same]; rfl
  · rw [State.chan_answered]
    exact Chan.answeredBy_open_of_single hopen
  · refine ⟨_, exec_nackPacket hs hv hm hc ho, ?_, ?_, ?_, ?_⟩
    · simp [Chan.nackedBy, Chan.answeredBy]
    · simp [Chan.nackedBy, Chan.answeredBy]
    · rintro g ch rfl
      constructor
      · simp [Chan.nackedBy, Chan.answeredBy, ofTile, hcode]
      · simp [State.nacked_tile_regs]; rfl
    · rintro i ch rfl
      constructor
      · rw [State.fget_keepOuter, State.fget_congr (State.answered_regs _ _ _), State.nacked_io_lastFault]; simp
      · simp [Chan.nackedBy, Chan.answeredBy, ofTile]
  · refine ⟨_, exec_nackPacket hs hv hm hc ho, ?_, ?_⟩
    · simp [Chan.nackedBy, Chan.answeredBy]
    · simp [Chan.nackedBy, Chan.answeredBy, hcur, Xfer.nackedBy_of_mem _ hget, hcode]
  · rw [exec_getDataPacket hs hv hm hc ho, State.getData_of_unexpected _ _ (by rwa [hchan]), State.keepOuter_modChan_takeInbound]; rfl
  · rw [exec_getDataPacket hs hv hm hc ho, State.getData_of_expected _ _ (by rwa [hchan]) hget hinq, State.keepOuter_modChan_takeInbound]

end Sys2Proof.Machine
end

section
/-! PROOFS. A descriptor of an I/O-die channel that names the memory of another module: its checks, its one unit, and the packet that it
sends. -/

namespace Sys2Proof.Machine

/-! LPDDR5X without a word in error (R115, R116). -/

theorem State.openRows_eq (s : State) (off n : Nat) : s.openRows off n = { s with rows := (s.openRows off n).rows } := by
  unfold State.openRows
  split <;> rfl
theorem State.dramRead_of_dramBad_nil {s : State} (hbad : s.dramBad = []) (off n : Nat) (w : DWho) :
    s.dramRead off n w = (memRead s.dram off n, s.openRows off n) := by
  rw [State.dramRead, hbad, badIn_nil]
  rfl

/-! A descriptor that crosses to another module (R264, R265, R288). -/

/-- A descriptor between global addresses that no page table and no reserved field concerns, of one packet's bytes. -/
structure SmallDesc (d : Desc) : Prop where
  rsvOp : d.rsvOp = none
  rsvd0 : d.rsvd0 = 0
  rsvd1 : d.rsvd1 = 0
  paged : d.paged = false
  srcKind : d.srcKind = 1
  dstKind : d.dstKind = 1
  pos : 0 < d.len.toNat
  le : d.len.toNat ≤ 4096

/-- A word is a global address of a bank or of LPDDR5X of another module (R284). -/
def State.awayAddr (s : State) (a : Word) : Prop := gaModule a.toNat ≠ s.self ∧ gaSpace a.toNat < 2
/-- PUT, SET and CLEAR go from this module's LPDDR5X to another module, and GET comes back from there. -/
def State.Crosses (s : State) (d : Desc) : DescOp → Prop
  | .put | .set | .clear => s.ownDram d.src d.len.toNat ∧ s.awayAddr d.dst
  | .get => s.awayAddr d.src ∧ s.ownDram d.dst d.len.toNat
  | _ => False

/-- The kind of a global address (R263), as a number. -/
theorem addrKind_toNat : (1 : BitVec 2).toNat = 1 := rfl

section
variable {s : State} {c : ChanId} {a : Word} {n : Nat}

theorem State.place_own (h : s.ownDram a n) : s.place c 1 a.toNat = .ok (.dram (gaDram a.toNat)) := by
  obtain ⟨hm, hsp, -, -⟩ := h
  simp [State.place, hm, hsp]
theorem State.place_away (h : s.awayAddr a) : s.place c 1 a.toNat = .ok (.remote a.toNat) := by
  simp [State.place, h.1]
theorem State.spaceBad_own (h : s.ownDram a n) : s.spaceBad 1 a.toNat = false := by
  obtain ⟨-, hsp, hz, -⟩ := h
  simp [State.spaceBad, hsp, hz]
theorem State.spaceBad_away (h : s.awayAddr a) : s.spaceBad 1 a.toNat = false := by
  simp [State.spaceBad, h.1, h.2]
theorem State.outside_own (h : s.ownDram a n) : s.outside 1 a.toNat = false := by simp [State.outside, h.1]
theorem State.outside_away (h : s.awayAddr a) : s.outside 1 a.toNat = true := by simp [State.outside, h.1]
theorem State.extentCheck_own (h : s.ownDram a n) : s.extentCheck c 1 a.toNat (a.toNat, n) = .ok := by
  have hplace := State.place_own (c := c) h
  obtain ⟨-, -, hz, hfit⟩ := h
  simp [State.extentCheck, hz, hplace, State.placeBounds, Nat.not_lt.mpr hfit]
theorem State.extentCheck_away (h : s.awayAddr a) : s.extentCheck c 1 a.toNat (a.toNat, n) = .ok := by
  simp [State.extentCheck, h.1, State.place_away h, State.placeBounds]

end

/-- The one unit of a small descriptor (R288): all its bytes, from its source to its destination. -/
def crossUnit (d : Desc) : XUnit :=
  { at_ := 0, srcs := [d.src.toNat], dsts := [d.dst.toNat], len := d.len.toNat, reqs := [(d.dst.toNat, d.len.toNat)] }
/-- A small descriptor that crosses to another module, as it begins. -/
def crossXfer (c : ChanId) (op : DescOp) (d : Desc) (stage : Nat) (host : Bytes) (split : Bool) : Xfer :=
  { deadXfer op d stage 0 with
    bursts := descBursts c op d, split := split, todo := [crossUnit d], host := host, slot := d.planned.map (fun e => (e.1.toNat, e.2.toNat)) }

section
variable {s : State} {i : Iod} {ch : IoCh} {op : DescOp} {d : Desc}

theorem extentsOf_small (hd : SmallDesc d) (pages : List (BitVec 32)) (dst : Bool) (base : Nat) :
    extentsOf d pages dst base = [(base, d.len.toNat)] := by
  simp [extentsOf, sidePaged, hd.paged]

theorem State.Crosses.bases (h : s.Crosses d op) : srcBases op d = [d.src.toNat] ∧ dstBases op d = [d.dst.toNat] := by
  cases op with
  | copy | parity => exact h.elim
  | get | put | set | clear => exact ⟨rfl, rfl⟩

theorem unitsOf_small (hd : SmallDesc d) (h : s.Crosses d op) (pages : List (BitVec 32)) : unitsOf op d pages = [crossUnit d] := by
  obtain ⟨hsrc, hdst⟩ := h.bases
  have hpos := hd.pos
  have hle := hd.le
  have hone : divUp d.len.toNat 4096 = 1 := by unfold divUp; omega
  simp [unitsOf, piecesOf, pieceAddr, sidePaged, hd.paged, hsrc, hdst, hone, crossUnit, hle]

theorem State.descCheck_of_crosses (hd : SmallDesc d) (h : s.Crosses d op) : s.descCheck (.io i ch) op d = none := by
  obtain ⟨hrop, hr0, hr1, hpaged, hsk, hdk, -, -⟩ := hd
  cases op with
  | copy => exact h.elim
  | parity => exact h.elim
  | get =>
    obtain ⟨hsrc, hdst⟩ := h
    simp [State.descCheck, descAddrs, dstBases, viewBad, kindBad, hrop, hr0, hr1, hpaged, hsk, hdk, State.spaceBad_own hdst,
      State.spaceBad_away hsrc, State.outside_own hdst, State.outside_away hsrc, State.place_own hdst, State.place_away hsrc]
  | put | set | clear =>
    obtain ⟨hsrc, hdst⟩ := h
    simp [State.descCheck, descAddrs, dstBases, viewBad, kindBad, hrop, hr0, hr1, hpaged, hsk, hdk, State.spaceBad_own hsrc,
      State.spaceBad_away hdst, State.outside_own hsrc, State.outside_away hdst, State.place_own hsrc, State.place_away hdst]

/-- The extents of a descriptor that crosses pass their checks. -/
theorem State.extentCheck_of_crosses (h : s.Crosses d op) :
    s.extentCheck (.io i ch) 1 d.src.toNat (d.src.toNat, d.len.toNat) = .ok
      ∧ s.extentCheck (.io i ch) 1 d.dst.toNat (d.dst.toNat, d.len.toNat) = .ok := by
  cases op with
  | copy | parity => exact h.elim
  | get => exact ⟨State.extentCheck_away h.1, State.extentCheck_own h.2⟩
  | put | set | clear => exact ⟨State.extentCheck_own h.1, State.extentCheck_away h.2⟩

/-- A small descriptor that crosses to another module begins, and makes what accesses it can. -/
theorem State.descRun_of_crosses (hd : SmallDesc d) (h : s.Crosses d op) (stage : Nat) (host : Bytes) (it : QItem) :
    ∃ split, (s.descRun (.io i ch) op d stage host it).2
      = ((s.putXfer (.io i ch) (crossXfer (.io i ch) op d stage host split)).xferGo (.io i ch)).2 := by
  have hlen : ¬ d.len = 0 := fun hz => by simpa [hz] using hd.pos
  obtain ⟨hsrc, hdst⟩ := h.bases
  obtain ⟨hsrcOk, hdstOk⟩ := State.extentCheck_of_crosses (i := i) (ch := ch) h
  have hlocal : (decide (op = .copy) || decide (op = .parity)) = false := by
    cases op with
    | copy | parity => exact h.elim
    | get | put | set | clear => rfl
  have hok : firstBad [.ok, .ok] = .ok := rfl
  have hrun : s.descRun (.io i ch) op d stage host it = s.descStart (.io i ch) op d stage host [] := by
    simp only [State.descRun, State.descCheck_of_crosses hd h, if_neg hlen, List.any_nil, Bool.false_eq_true, if_false]
  rw [hrun]
  simp only [State.descStart, hsrc, hdst, hd.srcKind, hd.dstKind, addrKind_toNat, List.flatMap_cons, List.flatMap_nil, extentsOf_small hd, List.map_cons,
    List.map_nil, List.append_nil, List.cons_append, List.nil_append, hsrcOk, hdstOk, hok, unitsOf_small hd h, hlocal, Bool.false_and]
  exact ⟨_, rfl⟩

end

end Sys2Proof.Machine
end

section
/-! PROOFS. The accesses of a descriptor that crosses to another module, one after another, and the statement about the packet that they
send. -/

namespace Sys2Proof.Machine

/-! The next access of a descriptor (R48, R67 to R69, R268). -/

section
variable {s t : State} {c : ChanId} {x : Xfer} {u : XUnit} {r : List XUnit} {a : Nat}

theorem State.lateFind_of_none (h : ∀ e ∈ s.late, e.chan ≠ c) : s.late.find? (·.chan = c) = none :=
  List.find?_eq_none.mpr fun e he => by simpa using h e he
theorem State.lateGo_of_none (h : ∀ e ∈ s.late, e.chan ≠ c) : s.lateGo c = true := by
  rw [State.lateGo, State.lateFind_of_none h]
theorem State.lateCarry_of_none (h : ∀ e ∈ s.late, e.chan ≠ c) (n : Nat) : s.lateCarry c n = s := by
  rw [State.lateCarry, State.lateFind_of_none h]

/-- After an access that was made, the next one follows. -/
theorem State.xferSteps_of_on (h : s.xferStep c = (.on, t)) (hlate : ∀ e ∈ t.late, e.chan ≠ c) (n : Nat) :
    s.xferSteps c (n + 1) = t.xferSteps c n := by
  rw [State.xferSteps]
  simp only [h, State.lateCarry_of_none hlate, ite_self]
/-- A descriptor without a unit to come makes no access. -/
theorem State.xferSteps_of_todo_nil (hcur : (s.chan c).cur = some x) (htodo : x.todo = []) (n : Nat) : s.xferSteps c (n + 1) = (.stop, s) := by
  have hstep : s.xferStep c = (.stop, s) := by simp [State.xferStep, hcur, htodo]
  rw [State.xferSteps, hstep]

/-- A descriptor whose next access may be made: none of the accesses before is refused, waits or fell short, and it is no late transfer. -/
structure State.MayAccess (s : State) (c : ChanId) (x : Xfer) (u : XUnit) : Prop where
  cur : (s.chan c).cur = some x
  todo : x.todo = [u]
  fault : x.fault = 0
  asked : x.asked = false
  short : x.short = false
  late : ∀ e ∈ s.late, e.chan ≠ c

section
variable (h : s.MayAccess c x u)
include h

theorem State.MayAccess.step_read (hop : x.op ≠ .get) (hready : u.ready = false) (ha : u.srcs[x.got.length]? = some a) :
    s.xferStep c = s.readSrc c x u x.got.length a := by
  simp [State.xferStep, h.cur, h.todo, h.fault, h.asked, h.short, State.lateGo_of_none h.late, hop, hready, ha]
theorem State.MayAccess.step_readied (hop : x.op ≠ .get) (hready : u.ready = false) (ha : u.srcs[x.got.length]? = none) :
    s.xferStep c = (.on, s.readied c x u) := by
  simp only [State.xferStep, h.cur, h.todo, h.fault, h.asked, h.short, State.lateGo_of_none h.late, hop, hready, ha]
  simp
theorem State.MayAccess.step_put (hget : x.op ≠ .get) (hcopy : x.op ≠ .copy) (hparity : x.op ≠ .parity) (hready : u.ready = true) :
    s.xferStep c = s.putPacket c x (u.dsts.headD 0) (x.got.headD []) := by
  simp [State.xferStep, h.cur, h.todo, h.fault, h.asked, h.short, State.lateGo_of_none h.late, hget, hcopy, hparity, hready]
theorem State.MayAccess.step_get (hop : x.op = .get) :
    s.xferStep c = s.getPacket c x u (u.srcs.headD 0) (u.dsts.headD 0) := by
  simp [State.xferStep, h.cur, h.todo, h.fault, h.asked, h.short, State.lateGo_of_none h.late, hop]

end

end

/-! The packet (R289, R290, R300, R303, R304, R343). -/

/-- A packet joins the answer traffic of the port that leads to its module. -/
theorem State.sendPacket_of_routesTo {s : State} {k : Packet} {p : Nat} (h : s.routesTo (gaModule k.hdr.ga.toNat) p) (t : Traffic) :
    s.sendPacket t k = (.sent 1, s.enqueuePkt p p t (pktBytes k)) := by
  obtain ⟨hself, hvalid, hkind, hport, husable⟩ := h
  simp [State.sendPacket, hself, hvalid, hkind, hport, husable]

/-- A channel after a request packet of one answer: an I/O-die channel's next descriptor waits for that answer, but for a GET's. -/
def Chan.sentBy (k : Packet) (q : Chan) : Chan :=
  { q with seq := q.seq + 1, issued := q.issued + 1, open_ := if k.hdr.opc.toNat = oGET then q.open_ else q.open_ ++ [(k.hdr.seq, 1)] }
theorem State.chanSend_io {s : State} {k : Packet} {p : Nat} (h : s.routesTo (gaModule k.hdr.ga.toNat) p) (i : Iod) (ch : IoCh)
    (slot : Option (Nat × Nat)) :
    s.chanSend (.io i ch) slot k = (.sent 1, (s.modPort p (fun q => { q with txAnswer := q.txAnswer ++ queued k })).modChan (.io i ch) (Chan.sentBy k)) := by
  simp only [State.chanSend, State.sendPacket_of_routesTo h]
  refine congrArg (Prod.mk (Sent.sent 1)) (State.modChan_congr _ _ ?_)
  by_cases hget : k.hdr.opc.toNat = oGET <;> simp [Chan.sentBy, ofTile, hget]

/-- The request packet that an I/O-die channel sends next (R289). -/
def State.request (s : State) (i : Iod) (ch : IoCh) (opc : Nat) (ga : Word) (len reply : Nat) (b : Bytes) : Packet :=
  { hdr := s.hdr opc ga.toNat len (chanCode (.io i ch)) (s.chan (.io i ch)).seq.toNat reply, payload := b }

section
variable (s : State) (i : Iod) (ch : IoCh) (opc : Nat) (ga : Word) (len reply : Nat) (b : Bytes)

@[simp] theorem State.request_ga : (s.request i ch opc ga len reply b).hdr.ga = ga := by simp [State.request, State.hdr]
@[simp] theorem State.request_seq : (s.request i ch opc ga len reply b).hdr.seq = (s.chan (.io i ch)).seq := by simp [State.request, State.hdr]
@[simp] theorem State.request_opc : (s.request i ch opc ga len reply b).hdr.opc = BitVec.ofNat 8 opc := rfl

end

/-! From a descriptor's begin to its packet (R268, R275, R288). -/

section
variable {s t : State} {i : Iod} {ch : IoCh} {x : Xfer}

/-- Between its begin and its packet, a descriptor of an I/O-die channel changes nothing but what its channel runs and the rows of LPDDR5X that
its reads leave behind. -/
structure State.Runs (s t : State) (i : Iod) (ch : IoCh) (x : Xfer) : Prop where
  beside : ∃ rows idma, t = { s with rows := rows, idma := idma }
  chan : t.chan (.io i ch) = { s.chan (.io i ch) with cur := some x }

theorem State.Runs.putXfer (s : State) (i : Iod) (ch : IoCh) (x : Xfer) : s.Runs (s.putXfer (.io i ch) x) i ch x :=
  ⟨⟨s.rows, _, rfl⟩, State.chan_modChan_same _ _ _⟩
theorem State.Runs.modXfer (h : s.Runs t i ch x) (f : Xfer → Xfer) : s.Runs (t.modXfer (.io i ch) f) i ch (f x) := by
  refine ⟨?_, by rw [State.modXfer, State.chan_modChan_same, h.chan]; rfl⟩
  obtain ⟨rows, idma, rfl⟩ := h.beside
  exact ⟨rows, _, rfl⟩
theorem State.Runs.openRows (h : s.Runs t i ch x) (off n : Nat) : s.Runs (t.openRows off n) i ch x := by
  refine ⟨?_, by rw [State.openRows_eq]; exact h.chan⟩
  obtain ⟨rows, idma, rfl⟩ := h.beside
  exact ⟨_, idma, State.openRows_eq _ _ _⟩
theorem State.Runs.late (h : s.Runs t i ch x) : t.late = s.late := by obtain ⟨rows, idma, rfl⟩ := h.beside; rfl
theorem State.Runs.mayAccess {u : XUnit} (h : s.Runs t i ch x) (hlate : ∀ e ∈ s.late, e.chan ≠ .io i ch) (htodo : x.todo = [u])
    (hfault : x.fault = 0) (hasked : x.asked = false) (hshort : x.short = false) : t.MayAccess (.io i ch) x u :=
  ⟨by rw [h.chan], htodo, hfault, hasked, hshort, by rwa [h.late]⟩

/-- After its packet: the packet is in the port's queue, the channel counts it, and no byte of the memories is changed. -/
structure State.SentBy (s v : State) (i : Iod) (ch : IoCh) (p : Nat) (k : Packet) (x : Xfer) : Prop where
  port : (v.port p).txAnswer = (s.port p).txAnswer ++ queued k
  chan : v.chan (.io i ch) = { (s.chan (.io i ch)).sentBy k with cur := some x }
  late : v.late = s.late
  sram : v.sram = s.sram
  dram : v.dram = s.dram

/-- A packet that a descriptor in progress sends, with what its channel runs then. -/
theorem State.Runs.chanSend {k : Packet} {p : Nat} (h : s.Runs t i ch x) (hroute : s.routesTo (gaModule k.hdr.ga.toNat) p)
    (slot : Option (Nat × Nat)) (f : Xfer → Xfer) :
    ∃ v, t.chanSend (.io i ch) slot k = (.sent 1, v) ∧ s.SentBy (v.modXfer (.io i ch) f) i ch p k (f x) := by
  have hchan := h.chan
  obtain ⟨rows, idma, rfl⟩ := h.beside
  refine ⟨_, State.chanSend_io (s := { s with rows := rows, idma := idma }) hroute i ch slot, ⟨?_, ?_, rfl, rfl, rfl⟩⟩
  · exact congrArg PortSt.txAnswer (tget_tput_same _ _ _ _)
  · rw [State.modXfer, State.chan_modChan_same, State.chan_modChan_same]
    exact congrArg (fun q : Chan => { q.sentBy k with cur := (q.sentBy k).cur.map f }) hchan

/-- The header of the channel's next request. -/
theorem State.Runs.chanHdr (h : s.Runs t i ch x) (stage opc : Nat) (ga : Word) (len reply : Nat) (b : Bytes) :
    t.chanHdr (.io i ch) stage opc ga.toNat len reply = (s.request i ch opc ga len reply b).hdr := by
  have hseq := congrArg Chan.seq h.chan
  obtain ⟨rows, idma, rfl⟩ := h.beside
  exact congrArg (fun q : BitVec 32 => s.hdr opc ga.toNat len (chanCode (.io i ch)) q.toNat reply) hseq

/-- The channel's next request. -/
theorem State.Runs.request (h : s.Runs t i ch x) (stage opc : Nat) (ga : Word) (len reply : Nat) (b : Bytes) :
    ({ hdr := t.chanHdr (.io i ch) stage opc ga.toNat len reply, payload := b } : Packet) = s.request i ch opc ga len reply b := by
  rw [h.chanHdr stage opc ga len reply b]
  rfl

/-- A read of this module's LPDDR5X delivers its bytes to the descriptor. -/
theorem State.Runs.readSrc {a : Word} {u : XUnit} (h : s.Runs t i ch x) (hown : s.ownDram a u.len) (hkind : x.d.srcKind = 1)
    (hbad : s.dramBad = []) (j : Nat) : ∃ t', t.readSrc (.io i ch) x u j a.toNat = (.on, t')
      ∧ s.Runs t' i ch { x with got := x.got ++ [memRead s.dram (gaDram a.toNat) u.len] } := by
  refine ⟨_, ?_, (h.openRows (gaDram a.toNat) u.len).modXfer
    (fun y => { y with got := y.got ++ [memRead s.dram (gaDram a.toNat) u.len] })⟩
  obtain ⟨rows, idma, rfl⟩ := h.beside
  have hplace := State.place_own (s := { s with rows := rows, idma := idma }) (c := .io i ch) hown
  simp only [State.readSrc, hkind, addrKind_toNat, hplace]
  rw [State.dramRead_of_dramBad_nil (s := { s with rows := rows, idma := idma }) hbad]

/-- Once its reads are made, a unit is ready with what they delivered. -/
theorem State.Runs.readied (h : s.Runs t i ch x) (hover : x.overlap = false) (hparity : x.op ≠ .parity) (u : XUnit) :
    s.Runs (t.readied (.io i ch) x u) i ch { (x.modUnit (fun u => { u with ready := true })) with got := x.got } := by
  have hready : t.readied (.io i ch) x u
      = t.modXfer (.io i ch) (fun y => { (y.modUnit (fun u => { u with ready := true })) with got := x.got }) := by
    cases hop : x.op with
    | parity => exact absurd hop hparity
    | _ => simp [State.readied, hover, hop]
  rw [hready]
  exact h.modXfer _

/-- The packet of a PUT, SET or CLEAR leaves with its bytes, which count (R275). -/
theorem State.Runs.putPacket {ga : Word} {p : Nat} (h : s.Runs t i ch x) (hroute : s.routesTo (gaModule ga.toNat) p) (b : Bytes) :
    ∃ v slot, t.putPacket (.io i ch) x ga.toNat b = (.on, v)
      ∧ s.SentBy v i ch p (s.request i ch (opcOf x.op) ga b.length 0 b) { (x.count false b.length).wrote with slot := slot } := by
  obtain ⟨v, hsend, hsent⟩ := h.chanSend (k := s.request i ch (opcOf x.op) ga b.length 0 b) (p := p) (by rwa [State.request_ga]) x.slot
    (fun y => { (y.count false b.length).wrote with slot := t.afterPlanned (gaModule ga.toNat) x.slot (32 + b.length) })
  refine ⟨_, _, ?_, hsent⟩
  simp only [State.putPacket, State.signMove, h.request, hsend]

/-- The request of a GET leaves, and the channel expects its data (R293). -/
theorem State.Runs.getPacket {src a : Word} {p : Nat} {u : XUnit} (h : s.Runs t i ch x) (hroute : s.routesTo (gaModule src.toNat) p)
    (hown : s.ownDram a u.len) (hkind : x.d.dstKind = 1) :
    ∃ v slot, t.getPacket (.io i ch) x u src.toNat a.toNat = (.on, v)
      ∧ s.SentBy v i ch p (s.request i ch oGET src u.len (s.self * 2 ^ 48 + 2 ^ 46 + gaDram a.toNat) [])
        { x.wrote with gets := x.gets ++ [((s.chan (.io i ch)).seq, a.toNat)], slot := slot } := by
  have hreply : t.replyOf (t.placeOf (.io i ch) x.d.dstKind.toNat a.toNat) = s.self * 2 ^ 48 + 2 ^ 46 + gaDram a.toNat := by
    obtain ⟨rows, idma, rfl⟩ := h.beside
    have hplace := State.place_own (s := { s with rows := rows, idma := idma }) (c := .io i ch) hown
    rw [State.placeOf, hkind, addrKind_toNat, hplace]
    rfl
  obtain ⟨v, hsend, hsent⟩ := h.chanSend (k := s.request i ch oGET src u.len (s.self * 2 ^ 48 + 2 ^ 46 + gaDram a.toNat) []) (p := p)
    (by rwa [State.request_ga]) x.slot
    (fun y => { y.wrote with gets := y.gets ++ [((s.chan (.io i ch)).seq, a.toNat)], slot := t.afterPlanned (gaModule src.toNat) x.slot 32 })
  refine ⟨_, _, ?_, hsent⟩
  have hseq := congrArg PktHdr.seq (h.chanHdr x.stage oGET src u.len (s.self * 2 ^ 48 + 2 ^ 46 + gaDram a.toNat) [])
  rw [State.request_seq] at hseq
  simp only [State.getPacket, hreply, h.request, hsend, hseq]

end

section
variable {s : State} {i : Iod} {ch : IoCh} {op : DescOp} {d : Desc} {p : Nat}

/-- A small descriptor has at most one read, the step that readies its unit, one packet and the step that finds no unit more. -/
theorem State.xferGo_cross (s : State) (i : Iod) (ch : IoCh) (op : DescOp) (d : Desc) (stage : Nat) (host : Bytes) (split : Bool) :
    (s.putXfer (.io i ch) (crossXfer (.io i ch) op d stage host split)).xferGo (.io i ch)
      = (s.putXfer (.io i ch) (crossXfer (.io i ch) op d stage host split)).xferSteps (.io i ch) 4 := by
  rw [State.xferGo, (State.Runs.putXfer s i ch _).chan]
  rfl

section
variable (hd : SmallDesc d) (hlate : ∀ e ∈ s.late, e.chan ≠ .io i ch) (stage : Nat) (host : Bytes) (split : Bool)
include hd hlate

/-- A PUT, SET or CLEAR reads its bytes and sends its packet. -/
theorem State.xferGo_of_put (hbad : s.dramBad = []) (hop : op = .put ∨ op = .set ∨ op = .clear) (hsrc : s.ownDram d.src d.len.toNat)
    (hroute : s.routesTo (gaModule d.dst.toNat) p) :
    ∃ x, s.SentBy ((s.putXfer (.io i ch) (crossXfer (.io i ch) op d stage host split)).xferGo (.io i ch)).2 i ch p
        (s.request i ch (opcOf op) d.dst d.len.toNat 0 (memRead s.dram (gaDram d.src.toNat) d.len.toNat)) x
      ∧ (x.fault, x.bytes, x.gets) = (0, d.len.toNat, []) := by
  have hget : op ≠ .get := by rcases hop with rfl | rfl | rfl <;> decide
  have hcopy : op ≠ .copy := by rcases hop with rfl | rfl | rfl <;> decide
  have hparity : op ≠ .parity := by rcases hop with rfl | rfl | rfl <;> decide
  have h0 := State.Runs.putXfer s i ch (crossXfer (.io i ch) op d stage host split)
  have hread := (h0.mayAccess hlate rfl rfl rfl rfl).step_read hget rfl rfl
  obtain ⟨t1, hread', h1⟩ := h0.readSrc (u := crossUnit d) hsrc hd.srcKind hbad 0
  have hready := (h1.mayAccess hlate rfl rfl rfl rfl).step_readied hget rfl rfl
  have h2 := h1.readied rfl hparity (crossUnit d)
  have hput := (h2.mayAccess hlate rfl rfl rfl rfl).step_put hget hcopy hparity rfl
  obtain ⟨v, slot, hput', h3⟩ := h2.putPacket (ga := d.dst) hroute (memRead s.dram (gaDram d.src.toNat) d.len.toNat)
  have hsteps : (s.putXfer (.io i ch) (crossXfer (.io i ch) op d stage host split)).xferGo (.io i ch) = (.stop, v) := by
    rw [State.xferGo_cross, State.xferSteps_of_on (hread.trans hread') (by rwa [h1.late]), State.xferSteps_of_on hready (by rwa [h2.late]),
      State.xferSteps_of_on (hput.trans hput') (by rwa [h3.late]), State.xferSteps_of_todo_nil (by rw [h3.chan]) rfl]
  rw [hsteps]
  rw [memRead_length] at h3
  exact ⟨_, h3, Prod.ext rfl (Prod.ext (Nat.zero_add _) rfl)⟩

/-- A GET sends its request. -/
theorem State.xferGo_of_get (hdst : s.ownDram d.dst d.len.toNat) (hroute : s.routesTo (gaModule d.src.toNat) p) :
    ∃ x, s.SentBy ((s.putXfer (.io i ch) (crossXfer (.io i ch) .get d stage host split)).xferGo (.io i ch)).2 i ch p
        (s.request i ch oGET d.src d.len.toNat (s.self * 2 ^ 48 + 2 ^ 46 + gaDram d.dst.toNat) []) x
      ∧ (x.fault, x.bytes, x.gets) = (0, 0, [((s.chan (.io i ch)).seq, d.dst.toNat)]) := by
  have h0 := State.Runs.putXfer s i ch (crossXfer (.io i ch) .get d stage host split)
  have hget := (h0.mayAccess hlate rfl rfl rfl rfl).step_get rfl
  obtain ⟨v, slot, hget', h1⟩ := h0.getPacket (u := crossUnit d) hroute hdst hd.dstKind
  have hsteps : (s.putXfer (.io i ch) (crossXfer (.io i ch) .get d stage host split)).xferGo (.io i ch) = (.stop, v) := by
    rw [State.xferGo_cross, State.xferSteps_of_on (hget.trans hget') (by rwa [h1.late]), State.xferSteps_of_todo_nil (by rw [h1.chan]) rfl]
  rw [hsteps]
  exact ⟨_, h1, rfl⟩

end

/-! The row of a descriptor of an I/O-die channel (R262, R264). -/

/-- The descriptor that the row names is the ring's next one; its entry is read. -/
theorem State.descEntry_of_ringNames (h : s.ringNames i ch op d) :
    ∃ rows, s.descEntry i ch (s.fget (.IDMA_RINGS i ch) IDMA_RINGS.DRING) op d = (true, { s with rows := rows }) := by
  unfold State.descEntry
  rcases h with hkind | ⟨hbad, hmatch⟩
  · exact ⟨s.rows, by rw [if_neg hkind]⟩
  · split
    · simp only [State.dramRead_of_dramBad_nil hbad, hmatch, if_true]
      exact ⟨_, by rw [State.openRows_eq]⟩
    · exact ⟨s.rows, rfl⟩

/-- What is told of a descriptor's packet also holds once the descriptor has left its ring. -/
theorem State.SentBy.taken {v : State} {k : Packet} {x : Xfer} {rows : List (Nat × Nat)}
    (h : ({ s.fresh with rows := rows } : State).SentBy v i ch p k x) (ring : Nat) : s.SentBy (s.keepOuter (v.ringTake ring)) i ch p k x := by
  have hports : (s.keepOuter (v.ringTake ring)).ports = v.ports := by simp [State.ringTake]
  refine ⟨?_, ?_, ?_, ?_, ?_⟩
  · rw [State.port, hports]
    exact h.port
  · rw [State.chan_keepOuter, State.chan_congr (s := v) (by simp [State.ringTake]) (by simp [State.ringTake])]
    exact h.chan
  · simpa [State.ringTake] using h.late
  · simpa [State.ringTake] using h.sram
  · simpa [State.ringTake] using h.dram

/-- The row of a small descriptor that crosses: the descriptor makes its accesses and leaves its ring. -/
theorem live_descRow_of_crosses {b : Bytes} (hs : s.alive = true) (hready : s.ioReady i ch d = true) (hnames : s.ringNames i ch op d)
    (hd : SmallDesc d) (h : s.Crosses d op) :
    ∃ rows ring split, live s (·.descRow (.io i ch b) op d) = .next (s.keepOuter (((({ s.fresh with rows := rows } : State).putXfer (.io i ch)
      (crossXfer (.io i ch) op d s.stage b split)).xferGo (.io i ch)).2.ringTake ring)) := by
  obtain ⟨rows, hentry⟩ := State.descEntry_of_ringNames (s := s.fresh) hnames
  obtain ⟨split, hrun⟩ := State.descRun_of_crosses (s := { s.fresh with rows := rows }) (i := i) (ch := ch) hd h s.stage b
    { stage := s.stage, pred := true, body := .fence 0 }
  have hready' : s.fresh.ioReady i ch d = true := hready
  refine ⟨rows, s.fget (.IDMA_RINGS i ch) IDMA_RINGS.DRING, split, ?_⟩
  rw [live_of_alive s _ hs, ← hrun]
  simp only [State.descRow, hready', hentry, Bool.not_true, Bool.false_eq_true, if_false]
  rfl

section
variable {b : Bytes} (hs : s.alive = true) (hready : s.ioReady i ch d = true) (hd : SmallDesc d) (hlate : ∀ e ∈ s.late, e.chan ≠ .io i ch)
include hs hready hd hlate

theorem live_descRow_put (hbad : s.dramBad = []) (hop : op = .put ∨ op = .set ∨ op = .clear) (hnames : s.ringNames i ch op d)
    (hsrc : s.ownDram d.src d.len.toNat) (haway : s.awayAddr d.dst) (hroute : s.routesTo (gaModule d.dst.toNat) p) :
    ∃ t x, live s (·.descRow (.io i ch b) op d) = .next t
      ∧ s.SentBy t i ch p (s.request i ch (opcOf op) d.dst d.len.toNat 0 (memRead s.dram (gaDram d.src.toNat) d.len.toNat)) x
      ∧ (x.fault, x.bytes, x.gets) = (0, d.len.toNat, []) := by
  have hcross : s.Crosses d op := by rcases hop with rfl | rfl | rfl <;> exact ⟨hsrc, haway⟩
  obtain ⟨rows, ring, split, hrow⟩ := live_descRow_of_crosses (b := b) hs hready hnames hd hcross
  obtain ⟨x, hsent, hx⟩ := State.xferGo_of_put (s := { s.fresh with rows := rows }) hd hlate s.stage b split hbad hop hsrc hroute
  exact ⟨_, x, hrow, hsent.taken ring, hx⟩

theorem live_descRow_get (hnames : s.ringNames i ch .get d) (haway : s.awayAddr d.src) (hdst : s.ownDram d.dst d.len.toNat)
    (hroute : s.routesTo (gaModule d.src.toNat) p) :
    ∃ t x, live s (·.descRow (.io i ch b) .get d) = .next t
      ∧ s.SentBy t i ch p (s.request i ch oGET d.src d.len.toNat (s.self * 2 ^ 48 + 2 ^ 46 + gaDram d.dst.toNat) []) x
      ∧ (x.fault, x.bytes, x.gets) = (0, 0, [((s.chan (.io i ch)).seq, d.dst.toNat)]) := by
  obtain ⟨rows, ring, split, hrow⟩ := live_descRow_of_crosses (b := b) hs hready hnames hd ⟨haway, hdst⟩
  obtain ⟨x, hsent, hx⟩ := State.xferGo_of_get (s := { s.fresh with rows := rows }) hd hlate s.stage b split hdst hroute
  exact ⟨_, x, hrow, hsent.taken ring, hx⟩

end

/-- A packet sent: it waits at its port, its channel has issued one more, and the memories read as before. -/
theorem State.SentBy.counts {t : State} {k : Packet} {x : Xfer} (h : s.SentBy t i ch p k x) :
    (t.port p).txAnswer = (s.port p).txAnswer ++ queued k ∧ (t.chan (.io i ch)).seq = (s.chan (.io i ch)).seq + 1
      ∧ (t.chan (.io i ch)).issued = (s.chan (.io i ch)).issued + 1 ∧ (t.chan (.io i ch)).done = (s.chan (.io i ch)).done ∧ sameMemory s t :=
  ⟨h.port, by rw [h.chan]; rfl, by rw [h.chan]; rfl, by rw [h.chan]; rfl, fun a => by rw [h.sram], fun a => by rw [h.dram]⟩

end

/-- Settles O42: the accesses of the descriptor in turn, with the packet of the last one. -/
theorem descriptorsSend : Obligations.DescriptorsSend := by
  unfold Obligations.DescriptorsSend
  intro s i ch b d p hs hready hrop hr0 hr1 hpaged hsk hdk hpos hle hbad hlate
  have hd : SmallDesc d := ⟨hrop, hr0, hr1, hpaged, hsk, hdk, hpos, hle⟩
  refine ⟨fun x hx hnames hsrc haway hspace hroute => ?_, fun hnames hdst haway hspace hroute => ?_⟩
  · obtain ⟨hop, hopc, hexec⟩ : (x.2.2 = .put ∨ x.2.2 = .set ∨ x.2.2 = .clear) ∧ x.2.1 = opcOf x.2.2
        ∧ exec x.1 s = live s (·.descRow (.io i ch b) x.2.2 d) := by
      simp only [List.mem_cons, List.not_mem_nil, or_false] at hx
      rcases hx with rfl | rfl | rfl
      · exact ⟨.inl rfl, rfl, rfl⟩
      · exact ⟨.inr (.inl rfl), rfl, rfl⟩
      · exact ⟨.inr (.inr rfl), rfl, rfl⟩
    obtain ⟨t, y, hrow, hsent, hy⟩ := live_descRow_put hs hready hd hlate hbad hop hnames hsrc ⟨haway, hspace⟩ hroute
    refine ⟨t, hexec.trans hrow, ?_, ?_, ?_⟩
    · rw [hopc]
      exact hsent.counts
    · have hkeep : (s.request i ch (opcOf x.2.2) d.dst d.len.toNat 0 (memRead s.dram (gaDram d.src.toNat) d.len.toNat)).hdr.opc.toNat ≠ oGET := by
        rcases hop with h | h | h <;> rw [h, State.request_opc] <;> decide
      rw [hsent.chan]
      simp only [Chan.sentBy, if_neg hkeep, State.request_seq]
    · rw [hsent.chan]
      exact congrArg some hy
  · obtain ⟨t, y, hrow, hsent, hy⟩ := live_descRow_get (b := b) hs hready hd hlate hnames ⟨haway, hspace⟩ hdst hroute
    refine ⟨t, hrow, hsent.counts, ?_⟩
    rw [hsent.chan]
    exact congrArg some hy

end Sys2Proof.Machine
end
